-- ==== Sys2Proof/Word.lean ====
section
/-! DEFINITION. The word types of the machine and the shape of its sparse tables (00_scope.md R5; 01_stolilo_levels.md
R21). -/
namespace Sys2Proof

/-- A byte of storage. -/
abbrev Byte := BitVec 8
/-- A lane register or an instruction word (R21, R22). -/
abbrev Word := BitVec 32
/-- A uniform register, a control register or an address (R21). -/
abbrev DWord := BitVec 64
/-- A table keyed by number: entries in rising key order, no key twice. The functions over it are in
Machine/Tab.lean. -/
abbrev Tab (α : Type) := List (Nat × α)

end Sys2Proof
end

