-- ==== Sys2Proof/Config.lean ====
section
/-! DEFINITION. What a part or an environment fixes and the specification leaves open: opaque constants, of which
nothing can be proved, and the figures that statements opening with "On the Stolilo S56," give (00_scope.md R2, R3).
-/
namespace Sys2Proof.Config

/-! ## Free values (log 9) -/

/-- A fresh doubleword: the n-th value that the specification leaves undefined. -/
opaque freeDWord : Nat → BitVec 64
/-- A fresh byte, for areas whose contents are undefined (R395, R432). -/
opaque freeByte : Nat → BitVec 8
/-- A fresh choice between charging and not charging LODC (R76). -/
opaque freeCharge : Nat → Bool
/-- A free choice among finitely many allowed outcomes: the n-th choice, reduced by the number of outcomes (R305). -/
opaque freeChoice : Nat → Nat
/-- Whether a group of R114 that holds infinities of both signs and a NaN raises NV. -/
opaque nvBesideNan : Bool
/-- The tile, modulo the tiles of the wafer, that owns the port through which an address of host memory, or with true of pool
memory, is reached (R237). -/
opaque portTile : Bool → Nat → Nat
/-- Phase in ticks of the refresh calendar of each store after reset (R336). -/
opaque refreshPhase : Nat → Nat
/-- Phase in clocks, 0 to 3, of the slew step of each cluster (R359). -/
opaque slewPhase : Nat → Nat
/-- The thermal coefficient TC of each cluster (R354). -/
opaque thermalCoefficient : Nat → Nat
/-- Random 256-bit keys that the curator draws, by draw number (R402). -/
opaque randomKey : Nat → BitVec 256
/-- The device secrets and certificate chain bytes (R410, R412, R425). -/
opaque certificateChain : List (BitVec 8)
/-- The signature over a message, by key number, as bytes (R410). -/
opaque signature : Nat → List (BitVec 8) → List (BitVec 8)
/-- Whether a staged or stored firmware image verifies under both signatures (R412). -/
opaque imageVerifies : List (BitVec 8) → Bool
/-- Major version and security version that a firmware image carries (R412, R425). -/
opaque imageVersion : List (BitVec 8) → BitVec 8
opaque imageSecurity : List (BitVec 8) → Nat
/-- The digests of measurement blocks 1 to 3 of R410. -/
opaque measurement : Nat → List (BitVec 8)
/-- The digest of the module's identity key, as a tenant's member list names it (R413). -/
opaque identityDigest : List (BitVec 8)
/-- The digest of the identity key of the module that bears a number, as the host's list of modules gives it (R413, R428). -/
opaque moduleDigest : Nat → List (BitVec 8)
/-- Whether the CRC-64 of a fabric flit is right: R427 names no polynomial. -/
opaque flitCrcGood : List (BitVec 8) → Bool
/-- Header, payload and tag of a flit opened under a group key: its payload, or none where the AES-256-GCM tag fails;
R427 gives no nonce. -/
opaque flitOpen : List (BitVec 8) → List (BitVec 8) → Option (List (BitVec 8))

/-! ## Figures of the Stolilo S56 -/

/-- Cores of a cluster, clusters of a tile, tiles of the wafer (R14). -/
def coresPerCluster : Nat := 4
def clustersPerTile : Nat := 40
def tilesPerWafer : Nat := 56
/-- Gallery DRAM of a tile in bytes: 128 GiB (R16). -/
def dramPerTile : Nat := 128 * 2 ^ 30
/-- Weight store of a tile in bytes: 384 MiB (R16). -/
def weightsPerTile : Nat := 384 * 2 ^ 20
/-- Wing slots and lanes of a core, resident threads (R16, R65, R82). -/
def wingSlots : Nat := 64
def lanes : Nat := 32
def coreThreads : Nat := 2048
/-- SRAM units of 64 KiB that a split shares (R208). -/
def sramUnits : Nat := 34

end Sys2Proof.Config
end

