-- ==== Sys2Proof/Syntax.lean ====
section
/-! DEFINITION. The instruction set as syntax: one constructor for each row of the opcode table
(02_encoding.md R36, R41; 95_what_each_step_holds.md). A row with an encoding carries the fields of its word, each
field as wide as the word has it; e is the end-of-scene bit (R22). A row without an encoding is a step of the
hardware, of the curator or of a host, and carries what the step concerns: a core, chorus or slot number, a thread
key (cast key times 2048 plus TID), a cast key, a gallery tag, or the request's arguments. -/
namespace Sys2Proof

/-- Where a host operation reaches the module: the virtual function's gallery, and the IDE stream that it arrives over, where
it arrives over one (R405). -/
structure HostPath where
  tag : Nat
  stream : Option Nat
  deriving DecidableEq, Repr

/-- One step of the machine: an instruction word of a thread, or a hardware, host or management event. -/
inductive Instr where
  /-- R83. Scene header: a thread entering the scene waits on WAIT_MASK and binds cue A and cue B for the scene's counted words. -/
  | scene (w : BitVec 12) (a b : BitVec 4) (l : BitVec 1)
  /-- R120. vd := (va + vb) mod 2^32, or the signed sum clamped when sat is set. -/
  | add (e : Bool) (d a b : BitVec 6)
  /-- R120. vd := (va - vb) mod 2^32, or the signed difference clamped when sat is set. -/
  | sub (e : Bool) (d a b : BitVec 6)
  /-- R120. vd := carry out of the unsigned sum va + vb. -/
  | addc (e : Bool) (d a b : BitVec 6)
  /-- R120. vd := borrow out of the unsigned difference va - vb. -/
  | subb (e : Bool) (d a b : BitVec 6)
  /-- R120. 64-bit pair addition modulo 2^64, or clamped to INT64 when sat is set. -/
  | add64 (e : Bool) (d a b : BitVec 6)
  /-- R120. 64-bit pair subtraction modulo 2^64, or clamped to INT64 when sat is set. -/
  | sub64 (e : Bool) (d a b : BitVec 6)
  /-- R120. Signed minimum of va and vb. -/
  | min (e : Bool) (d a b : BitVec 6)
  /-- R120. Signed maximum of va and vb. -/
  | max (e : Bool) (d a b : BitVec 6)
  /-- R120. Unsigned minimum of va and vb. -/
  | minu (e : Bool) (d a b : BitVec 6)
  /-- R120. Unsigned maximum of va and vb. -/
  | maxu (e : Bool) (d a b : BitVec 6)
  /-- R120. Signed absolute value of va, modulo 2^32. -/
  | abs (e : Bool) (d a : BitVec 6)
  /-- R120. Bitwise AND of va and vb. -/
  | and (e : Bool) (d a b : BitVec 6)
  /-- R120. Bitwise OR of va and vb. -/
  | or (e : Bool) (d a b : BitVec 6)
  /-- R120. Bitwise XOR of va and vb. -/
  | xor (e : Bool) (d a b : BitVec 6)
  /-- R120. va AND NOT vb. -/
  | andn (e : Bool) (d a b : BitVec 6)
  /-- R121. Shift left by the whole of vb; 0 for a count of 32 or more. -/
  | shl (e : Bool) (d a b : BitVec 6)
  /-- R121. Logical shift right by the whole of vb. -/
  | shr (e : Bool) (d a b : BitVec 6)
  /-- R121. Arithmetic shift right by the whole of vb. -/
  | sar (e : Bool) (d a b : BitVec 6)
  /-- R121. Rotate va left by vb[4:0]. -/
  | rotl (e : Bool) (d a b : BitVec 6)
  /-- R120. Count of 1 bits in va. -/
  | popc (e : Bool) (d a : BitVec 6)
  /-- R120. Leading zero bits of va; 32 for zero. -/
  | clz (e : Bool) (d a : BitVec 6)
  /-- R120. Trailing zero bits of va; 32 for zero. -/
  | ctz (e : Bool) (d a : BitVec 6)
  /-- R120. Bit reversal of va. -/
  | brev (e : Bool) (d a : BitVec 6)
  /-- R120. Byte reversal of va. -/
  | bswap (e : Bool) (d a : BitVec 6)
  /-- R122. Extract a bit field of va described by vb, optionally sign-extended. -/
  | bfx (e : Bool) (d a b : BitVec 6)
  /-- R122. Insert va into a bit field of vd described by vb. -/
  | bfi (e : Bool) (d a b : BitVec 6)
  /-- R123. vd := va + sext(imm12) modulo 2^32. -/
  | addi (e : Bool) (d a : BitVec 6) (i : BitVec 12)
  /-- R123. vd := va AND sext(imm12). -/
  | andi (e : Bool) (d a : BitVec 6) (i : BitVec 12)
  /-- R123. vd := va OR sext(imm12). -/
  | ori (e : Bool) (d a : BitVec 6) (i : BitVec 12)
  /-- R123. vd := va XOR sext(imm12). -/
  | xori (e : Bool) (d a : BitVec 6) (i : BitVec 12)
  /-- R124. Shift va left by an immediate count. -/
  | shli (e : Bool) (d a : BitVec 6) (n : BitVec 5)
  /-- R124. Logical shift va right by an immediate count. -/
  | shri (e : Bool) (d a : BitVec 6) (n : BitVec 5)
  /-- R124. Arithmetic shift va right by an immediate count. -/
  | sari (e : Bool) (d a : BitVec 6) (n : BitVec 5)
  /-- R125. vd := sext(imm17, 32). -/
  | movi (e : Bool) (d : BitVec 6) (i : BitVec 17)
  /-- R125. vd[31:15] := imm17; vd[14:0] is kept. -/
  | movhi (e : Bool) (d : BitVec 6) (i : BitVec 17)
  /-- R126. Low 32 bits of va x vb, or the signed product clamped when sat is set. -/
  | mullo (e : Bool) (d a b : BitVec 6)
  /-- R126. High 32 bits of the signed 64-bit product. -/
  | mulhi (e : Bool) (d a b : BitVec 6)
  /-- R126. High 32 bits of the unsigned 64-bit product. -/
  | mulhiu (e : Bool) (d a b : BitVec 6)
  /-- R126. va x vb + addend, modulo 2^32 or clamped. -/
  | mad (e : Bool) (d a b : BitVec 6)
  /-- R127. Signed division rounding toward zero, with fixed results for the edge cases. -/
  | div (e : Bool) (d a b : BitVec 6)
  /-- R127. Unsigned division. -/
  | divu (e : Bool) (d a b : BitVec 6)
  /-- R127. Signed remainder, taking the sign of the dividend. -/
  | rem (e : Bool) (d a b : BitVec 6)
  /-- R127. Unsigned remainder. -/
  | remu (e : Bool) (d a b : BitVec 6)
  /-- R116. Signed four-byte dot product plus addend, saturated once. -/
  | dot4s (e : Bool) (d a b : BitVec 6)
  /-- R116. Unsigned four-byte dot product plus addend, saturated once. -/
  | dot4u (e : Bool) (d a b : BitVec 6)
  /-- R128. Two INT16 products plus addend, wrapped or saturated once. -/
  | dot2s (e : Bool) (d a b : BitVec 6)
  /-- R129. Integer compare of va with vb, combined into p[pd]. -/
  | cmp (e : Bool) (p : BitVec 4) (c : BitVec 2) (a b k : BitVec 6)
  /-- R130. Integer compare of va with sext(imm8), combined into p[pd]. -/
  | cmpi (e : Bool) (p : BitVec 4) (c : BitVec 2) (a : BitVec 6) (k : BitVec 4) (i : BitVec 8)
  /-- R131. p[pd] := truth table tt indexed by p[pa] and p[pb]. -/
  | plop (e : Bool) (d a b t : BitVec 4)
  /-- R132. vd := the predicates as bits [15:0]. -/
  | pmovToV (e : Bool) (d : BitVec 6)
  /-- R132. p0 to p14 := va[14:0]. -/
  | pmovToP (e : Bool) (a : BitVec 6)
  /-- R151. FP32 addition, rounded once. -/
  | fadd (e : Bool) (d a b : BitVec 6)
  /-- R151. FP32 subtraction, rounded once. -/
  | fsub (e : Bool) (d a b : BitVec 6)
  /-- R151. FP32 multiplication, rounded once. -/
  | fmul (e : Bool) (d a b : BitVec 6)
  /-- R151. FP32 fused multiply-add, rounded once. -/
  | ffma (e : Bool) (d a b : BitVec 6)
  /-- R152. FP32 minimumNumber. -/
  | fmin (e : Bool) (d a b : BitVec 6)
  /-- R152. FP32 maximumNumber. -/
  | fmax (e : Bool) (d a b : BitVec 6)
  /-- R153. One-hot class mask of va. -/
  | fclass (e : Bool) (d a : BitVec 6)
  /-- R154. Round va to an integral FP32 value. -/
  | frnd (e : Bool) (d a : BitVec 6)
  /-- R155. FP32 compare, combined into p[pd]. -/
  | fcmp (e : Bool) (p : BitVec 4) (c : BitVec 2) (a b k : BitVec 6)
  /-- R156. Packed FP16 addition. -/
  | pkadd (e : Bool) (d a b : BitVec 6)
  /-- R156. Packed FP16 multiplication. -/
  | pkmul (e : Bool) (d a b : BitVec 6)
  /-- R156. Packed FP16 fused multiply-add. -/
  | pkfma (e : Bool) (d a b : BitVec 6)
  /-- R156. Packed BF16 addition. -/
  | pkaddBf (e : Bool) (d a b : BitVec 6)
  /-- R156. Packed BF16 multiplication. -/
  | pkmulBf (e : Bool) (d a b : BitVec 6)
  /-- R156. Packed BF16 fused multiply-add. -/
  | pkfmaBf (e : Bool) (d a b : BitVec 6)
  /-- R157. FP64 addition. -/
  | dadd (e : Bool) (d a b : BitVec 6)
  /-- R157. FP64 subtraction. -/
  | dsub (e : Bool) (d a b : BitVec 6)
  /-- R157. FP64 multiplication. -/
  | dmul (e : Bool) (d a b : BitVec 6)
  /-- R157. FP64 fused multiply-add. -/
  | dfma (e : Bool) (d a b : BitVec 6)
  /-- R157. FP64 minimumNumber. -/
  | dmin (e : Bool) (d a b : BitVec 6)
  /-- R157. FP64 maximumNumber. -/
  | dmax (e : Bool) (d a b : BitVec 6)
  /-- R155. FP64 compare, combined into p[pd]. -/
  | dcmp (e : Bool) (p : BitVec 4) (c : BitVec 2) (a b k : BitVec 6)
  /-- R159. Correctly rounded FP32 reciprocal. -/
  | frcp (e : Bool) (d a : BitVec 6)
  /-- R159. Correctly rounded FP32 reciprocal square root. -/
  | frsq (e : Bool) (d a : BitVec 6)
  /-- R159. Correctly rounded FP32 square root. -/
  | fsqrt (e : Bool) (d a : BitVec 6)
  /-- R159. Correctly rounded FP32 division. -/
  | fdiv (e : Bool) (d a b : BitVec 6)
  /-- R159. Correctly rounded 2^x in FP32. -/
  | fexp2 (e : Bool) (d a : BitVec 6)
  /-- R159. Correctly rounded log2 x in FP32. -/
  | flog2 (e : Bool) (d a : BitVec 6)
  /-- R159. Correctly rounded sin(pi x) in FP32. -/
  | fsinpi (e : Bool) (d a : BitVec 6)
  /-- R159. Correctly rounded cos(pi x) in FP32. -/
  | fcospi (e : Bool) (d a : BitVec 6)
  /-- R159. Correctly rounded tanh x in FP32. -/
  | ftanh (e : Bool) (d a : BitVec 6)
  /-- R159. Correctly rounded FP64 reciprocal. -/
  | drcp (e : Bool) (d a : BitVec 6)
  /-- R159. Correctly rounded FP64 reciprocal square root. -/
  | drsq (e : Bool) (d a : BitVec 6)
  /-- R159. Correctly rounded FP64 division. -/
  | ddiv (e : Bool) (d a b : BitVec 6)
  /-- R162. Convert va from the source format in vb to the destination format in fn. -/
  | cvt (e : Bool) (d a s t : BitVec 6)
  /-- R170. Quantise FP32 to TF8 with a curve and a block scale. -/
  | qntTf8 (e : Bool) (d a b : BitVec 6)
  /-- R170. Quantise FP32 to TF6 with a curve and a block scale. -/
  | qntTf6 (e : Bool) (d a b : BitVec 6)
  /-- R171. Dequantise a TF8 code to FP32 with a curve and a block scale. -/
  | dqntTf8 (e : Bool) (d a b : BitVec 6)
  /-- R171. Dequantise a TF6 code to FP32 with a curve and a block scale. -/
  | dqntTf6 (e : Bool) (d a b : BitVec 6)
  /-- R166. Read a 128-byte curve table, check it and load it for the whole cast; vd receives the status. -/
  | ctbl (e : Bool) (d a b : BitVec 6)
  /-- R178. Load from global, scratchpad or weight store space; counted on cue A. -/
  | ld (e : Bool) (d a : BitVec 6) (b : BitVec 5) (m : BitVec 1) (z s : BitVec 3)
  /-- R178. Store to global or scratchpad space at one logical time. -/
  | st (e : Bool) (d a : BitVec 6) (b : BitVec 5) (m : BitVec 1) (z s : BitVec 3)
  /-- R179. Prefetch a line toward L1 or a replica; never traps. -/
  | pfetch (e : Bool) (a : BitVec 6) (b : BitVec 5) (m : BitVec 1) (s : BitVec 3)
  /-- R180. Store one value to up to four addresses at ascending logical times. -/
  | mcst (e : Bool) (d a : BitVec 6) (b : BitVec 5) (m z : BitVec 1) (c : BitVec 2)
  /-- R181. Order against the host (.H), replicas (.R) or engine writes (.E). -/
  | fence (e : Bool) (s : BitVec 3)
  /-- R183. Atomic add; vd receives the old value. -/
  | aadd (e : Bool) (d a : BitVec 6) (b : BitVec 5) (m w p : BitVec 1)
  /-- R183. Atomic signed minimum. -/
  | amin (e : Bool) (d a : BitVec 6) (b : BitVec 5) (m w p : BitVec 1)
  /-- R183. Atomic signed maximum. -/
  | amax (e : Bool) (d a : BitVec 6) (b : BitVec 5) (m w p : BitVec 1)
  /-- R183. Atomic bitwise AND. -/
  | aand (e : Bool) (d a : BitVec 6) (b : BitVec 5) (m w p : BitVec 1)
  /-- R183. Atomic bitwise OR. -/
  | aor (e : Bool) (d a : BitVec 6) (b : BitVec 5) (m w p : BitVec 1)
  /-- R183. Atomic bitwise XOR. -/
  | axor (e : Bool) (d a : BitVec 6) (b : BitVec 5) (m w p : BitVec 1)
  /-- R183. Atomic exchange. -/
  | axch (e : Bool) (d a : BitVec 6) (b : BitVec 5) (m w p : BitVec 1)
  /-- R183. Atomic compare and swap. -/
  | acas (e : Bool) (d a : BitVec 6) (b : BitVec 5) (m w p : BitVec 1)
  /-- R183. Atomic floating-point add, rounded nearest-even, writing no flag. -/
  | afadd (e : Bool) (d a : BitVec 6) (b : BitVec 5) (m w p : BitVec 1)
  /-- R220. Window-wide vote over the member mask at rendezvous completion. -/
  | vote (e : Bool) (d a : BitVec 6) (m : BitVec 5) (v : BitVec 4)
  /-- R221. Fixed-tree reduction over the members. -/
  | redux (e : Bool) (d a : BitVec 6) (m : BitVec 5) (v : BitVec 4)
  /-- R221. Inclusive prefix fold over the members. -/
  | scanInc (e : Bool) (d a : BitVec 6) (m : BitVec 5) (v : BitVec 4)
  /-- R221. Exclusive prefix fold over the members. -/
  | scanExc (e : Bool) (d a : BitVec 6) (m : BitVec 5) (v : BitVec 4)
  /-- R112. 32-point Hadamard rotation across the whole window. -/
  | had (e : Bool) (d a : BitVec 6) (m : BitVec 5)
  /-- R219. Take va from the seat given by an immediate. -/
  | shflIdx (e : Bool) (d a : BitVec 6) (m s : BitVec 5)
  /-- R219. Take va from the seat given by an s-register. -/
  | shflSidx (e : Bool) (d a : BitVec 6) (m s : BitVec 5)
  /-- R219. Take va from the own seat XOR an immediate. -/
  | shflXor (e : Bool) (d a : BitVec 6) (m s : BitVec 5)
  /-- R219. Take va from the seat given by vd on entry. -/
  | shflVidx (e : Bool) (d a : BitVec 6) (m : BitVec 5)
  /-- R141. Branch on a predicate to a word offset. -/
  | bra (p : BitVec 4) (i : BitVec 1) (o : BitVec 19)
  /-- R143. Jump to the address in a register pair; the target must be a landing scene. -/
  | jmpi (a : BitVec 6)
  /-- R143. Indirect call with a link pair. -/
  | calli (d a : BitVec 6)
  /-- R143. Return to the link held in a register pair. -/
  | ret (a : BitVec 6)
  /-- R144. Bounds-check an index, read a table word and jump to a landing scene. -/
  | jtab (n a : BitVec 6) (b : BitVec 5)
  /-- R142. Direct call writing the link pair. -/
  | call (d : BitVec 6) (o : BitVec 18)
  /-- R133. vd := va. -/
  | mov (e : Bool) (d a : BitVec 6)
  /-- R133. vd := p ? va : vb. -/
  | sel (e : Bool) (d a b : BitVec 6) (p : BitVec 4)
  /-- R134. vd := low half of an s-register. -/
  | s2vLo (e : Bool) (d a : BitVec 6)
  /-- R134. vd := high half of an s-register. -/
  | s2vHi (e : Bool) (d a : BitVec 6)
  /-- R134. s-register := zext(va). -/
  | v2sLo (e : Bool) (d a : BitVec 6)
  /-- R134. High half of an s-register := va. -/
  | v2sHi (e : Bool) (d a : BitVec 6)
  /-- R134. s-register := a lane register pair. -/
  | v2sPair (e : Bool) (d a : BitVec 6)
  /-- R31. Prefix that masks, rounds, gives a third source or saturates the following RRR word. -/
  | pfx (m : BitVec 4) (z : BitVec 1) (r : BitVec 3) (c : BitVec 6) (s : BitVec 1)
  /-- R135. 64-bit uniform addition. -/
  | uadd (e : Bool) (d a b : BitVec 5)
  /-- R135. 64-bit uniform subtraction. -/
  | usub (e : Bool) (d a b : BitVec 5)
  /-- R135. 64-bit uniform multiplication. -/
  | umul (e : Bool) (d a b : BitVec 5)
  /-- R135. Uniform bitwise AND. -/
  | uand (e : Bool) (d a b : BitVec 5)
  /-- R135. Uniform bitwise OR. -/
  | uor (e : Bool) (d a b : BitVec 5)
  /-- R135. Uniform bitwise XOR. -/
  | uxor (e : Bool) (d a b : BitVec 5)
  /-- R135. Uniform shift left. -/
  | ushl (e : Bool) (d a b : BitVec 5)
  /-- R135. Uniform logical shift right. -/
  | ushr (e : Bool) (d a b : BitVec 5)
  /-- R135. Uniform arithmetic shift right. -/
  | usar (e : Bool) (d a b : BitVec 5)
  /-- R135. sd := sa. -/
  | umov (e : Bool) (d a : BitVec 5)
  /-- R136. sd := sa + sext(imm14). -/
  | uaddi (e : Bool) (d a : BitVec 5) (i : BitVec 14)
  /-- R35. Two-word literal load: sd := sext(literal, 64). -/
  | movl (e : Bool) (d : BitVec 5) (lit : BitVec 32)
  /-- R35. Two-word literal load into the high half: sd[63:32] := literal. -/
  | movlHi (e : Bool) (d : BitVec 5) (lit : BitVec 32)
  /-- R145. Uniform branch on a condition of s[sa]. -/
  | ubra (a : BitVec 5) (c : BitVec 3) (o : BitVec 16)
  /-- R146. Uniform call that writes the link to an s-register. -/
  | ucall (a : BitVec 5) (o : BitVec 16)
  /-- R146. Uniform return to the link held in an s-register. -/
  | uret (a : BitVec 5)
  /-- R84. File the thread in the wings at the next scene. -/
  | reform
  /-- R85. End the thread; outstanding work follows R81. -/
  | exit
  /-- R89. Wait until any condition holds or the time-out passes. -/
  | waitAny (p : BitVec 4) (a : BitVec 5) (n : BitVec 2) (s : BitVec 5)
  /-- R89. Wait until every condition holds or the time-out passes. -/
  | waitAll (p : BitVec 4) (a : BitVec 5) (n : BitVec 2) (s : BitVec 5)
  /-- R86. No operation. -/
  | nop (e : Bool)
  /-- R198. Raise the TRAP cause with a code. -/
  | trap (e : Bool) (c : BitVec 16)
  /-- R198. Raise the BKPT cause with a code. -/
  | bkpt (e : Bool) (c : BitVec 16)
  /-- R254. Check a descriptor and write a reservation record for the cast. -/
  | vres (e : Bool) (r : BitVec 4) (a b : BitVec 5)
  /-- R255. Empty a reservation record. -/
  | vrel (e : Bool) (r : BitVec 4)
  /-- R256. Ask the tile fetch unit to bring K-blocks of an operand forward. -/
  | tfetch (e : Bool) (r : BitVec 4) (b : BitVec 5)
  /-- R258. Cast-level signed matrix multiply-accumulate into a tile. -/
  | mma (e : Bool) (q : BitVec 4) (d : BitVec 3) (a b : BitVec 4) (z : BitVec 1)
  /-- R260. Quartet matrix multiply-accumulate across four casts. -/
  | qmma (e : Bool) (q : BitVec 4) (d : BitVec 3) (a b : BitVec 4) (z : BitVec 1)
  /-- R277. Cast-level Horner evaluation of a matrix polynomial on resident tiles. -/
  | mpoly (e : Bool) (q : BitVec 4) (d x t g : BitVec 3) (p : BitVec 1)
  /-- R280. Cast-level fixed-point iteration with residual, growth and cap tests. -/
  | miter (e : Bool) (q : BitVec 4) (x a b : BitVec 3) (g : BitVec 2) (p : BitVec 1) (c : BitVec 6)
  /-- R265. Zero an accumulator tile at its place in matrix order. -/
  | azero (e : Bool) (d : BitVec 3)
  /-- R265. Load a tile from memory. -/
  | aload (e : Bool) (d : BitVec 3) (a b : BitVec 5)
  /-- R266. Store a tile to unframed pages (held) or to framed pages as an engine write. -/
  | astore (e : Bool) (d : BitVec 3) (a b : BitVec 5)
  /-- R265. Read one tile element into an s-register. -/
  | aread (e : Bool) (d : BitVec 3) (a b : BitVec 5)
  /-- R265. Write one tile element from an s-register. -/
  | awrite (e : Bool) (d : BitVec 3) (a b : BitVec 5)
  /-- R265. Transpose a tile into another tile or in place. -/
  | atrn (e : Bool) (d b : BitVec 3)
  /-- R271. Write a coefficient register at its place in matrix order. -/
  | acoef (e : Bool) (c : BitVec 3) (a : BitVec 5)
  /-- R272. Read a tile's event, report or residual word; sel 4 also clears the event word. -/
  | astat (e : Bool) (d s : BitVec 3) (t : BitVec 5)
  /-- R223. Declare the set of a convergence register. -/
  | conv (e : Bool) (q a b : BitVec 5)
  /-- R224. Read a convergence register's status, set or signatures. -/
  | qread (e : Bool) (d q s : BitVec 5)
  /-- R230. Arrive at a barrier record and hold until its phase changes. -/
  | bar (e : Bool) (d a : BitVec 5)
  /-- R229. Initialise a barrier record's EXPECT and ARRIVED. -/
  | binit (e : Bool) (a b : BitVec 5)
  /-- R372. Arrive at a production-wide grid barrier. -/
  | gbar (e : Bool) (d a : BitVec 5)
  /-- R328. Issue an engine copy of a contiguous range; counted on cue B. -/
  | copy (e : Bool) (d a b : BitVec 5)
  /-- R330. Issue an indexed engine gather. -/
  | gather (e : Bool) (d a b : BitVec 5)
  /-- R330. Issue an indexed engine scatter. -/
  | scatter (e : Bool) (d a b : BitVec 5)
  /-- R333. Bring understudy frames of a page range on stage at one key. -/
  | publish (e : Bool) (a b : BitVec 5)
  /-- R430. Issue a collective engine operation on a communicator. -/
  | coll (e : Bool) (d a b : BitVec 5)
  /-- R348. Check a launch record and make it ready, or release a held node. -/
  | launch (e : Bool) (d a : BitVec 5)
  /-- R348. Create a held node from a launch record. -/
  | gnode (e : Bool) (d a : BitVec 5)
  /-- R349. Link a predecessor node before a held successor. -/
  | gdep (e : Bool) (a b : BitVec 5)
  /-- R389. Append a message to a channel queue of a named core. -/
  | send (e : Bool) (d a b : BitVec 5)
  /-- R390. Take the oldest message from a channel of the executing core. -/
  | recv (e : Bool) (d a b : BitVec 5)
  /-- R338. Read the refresh calendar of a vault or weight store. -/
  | rfcal (e : Bool) (d a : BitVec 5)
  /-- R395. Freeze every framed page at one key and stream the pages to an area. -/
  | snap (e : Bool) (d a b : BitVec 5)
  /-- R199. Read a CSR into an s-register. -/
  | csrr (e : Bool) (c : BitVec 12) (s : BitVec 5)
  /-- R199. Write a CSR from an s-register. -/
  | csrw (e : Bool) (c : BitVec 12) (s : BitVec 5)
  /-- R199. Set bits of a CSR. -/
  | csrs (e : Bool) (c : BitVec 12) (s : BitVec 5)
  /-- R199. Clear bits of a CSR. -/
  | csrc (e : Bool) (c : BitVec 12) (s : BitVec 5)
  /-- R196. Return from a trap to TEPC under the header DIST words back. -/
  | rett
  /-- R200. Read the reference tick count. -/
  | rdtime (e : Bool) (s : BitVec 5)
  /-- R369. Stop the own cast and write its image, then leave the core or continue. -/
  | ctxsave (e : Bool) (s : BitVec 5)
  /-- R370. Check a cast image and make the cast available for admission. -/
  | ctxload (e : Bool) (s : BitVec 5)
  /-- R69. A write to WINGAGE clamps the age threshold to 16..1024 from the next clock. -/
  | wingageWrite (x : BitVec 64)
  /-- R106. A write to FRM that would leave an invalid mode leaves RM unchanged. -/
  | frmWrite (x : BitVec 64)
  /-- R190. A W1C write clears sticky cause bits of TCAUSE. -/
  | tcauseClear (x : BitVec 64)
  /-- R195. A write to TVEC takes effect for the whole cast, highest TID last within a clock. -/
  | tvecWrite (x : BitVec 64)
  /-- R202. Writing 1 to TDBG.HALTCAST requests a debugger halt of every other thread of the cast. -/
  | haltcast (x : BitVec 64)
  /-- R217. A write to RDVTO clamps the rendezvous time-out to 2^24 ticks. -/
  | rdvtoWrite (x : BitVec 64)
  /-- R363. A write to TSLICE clamps the slice length to at least 1,000 ticks. -/
  | tsliceWrite (x : BitVec 64)
  /-- R384. A write to GROOT, NTBASE, STBASE or FPBASE is pending until creation or the next quiesce. -/
  | curatorBaseWrite (csr : BitVec 12) (x : BitVec 64)
  /-- R384. A write to SNAPRES takes effect now, or when the snapshot in flight completes. -/
  | snapresWrite (x : BitVec 64)
  /-- R7. A write to a register without behaviour of its own applies each field's access code. -/
  | csrPlainWrite (csr : BitVec 12) (x : BitVec 64)
  /-- R426. Module reset: the curator verifies firmware, tests regions, loads routers and trains the host ports. failed is the
  step that fails, where one does, and bad lists the regions that fail their test. -/
  | moduleReset (failed : Option Nat) (bad : List Nat)
  /-- R67. The oldest thread of a wing slot reaches the WINGAGE threshold and the slot becomes eligible. -/
  | slotAged (core slot : Nat)
  /-- R68. An eligible slot is drawn into a chorus in order of effective priority. -/
  | chorusDraw (core slot : Nat)
  /-- R68. A waiting chorus or sub-chorus wins a lane between scenes or after a held word. -/
  | laneGrant (core ch : Nat)
  /-- R27. A scene fetched whole is decoded and checked; an illegal scene traps every entering thread. -/
  | sceneFetch (core ch : Nat)
  /-- R79. Every cue named in the header's wait mask reads zero and the chorus competes for a lane. -/
  | headerWaitMet (core ch : Nat)
  /-- R187. A page walk completes for a translation miss and the access's checks proceed. -/
  | translationWalk (core : Nat) (va : BitVec 64)
  /-- R77. A load or atomic writes its destinations and decrements its cue. -/
  | loadComplete (tk op : Nat)
  /-- R89. A waiting thread evaluates its conditions at each tick or cue change. -/
  | waitEvaluate (tk : Nat)
  /-- R89. A WAIT's time-out expires and p[pd] receives 1. -/
  | waitTimeout (tk : Nat)
  /-- R194. Asynchronous, deferred and owed causes are delivered at a scene boundary. -/
  | causeDelivery (tk : Nat)
  /-- R217. A rendezvous or signing set exceeds RDVTO and its held members take RDV. -/
  | rdvTimeout (tk : Nat)
  /-- R242. An operation that waited in matrix order for earlier tile users begins on the array. -/
  | matrixOpStart (core : Nat)
  /-- R222. An issued matrix operation completes; q goes DONE, GEN advances and signers' cue B falls. -/
  | matrixOpComplete (core : Nat)
  /-- R435. An accumulator instruction finishes its time and releases its cue or held thread. -/
  | accOpComplete (core : Nat)
  /-- R360. Every 4 clocks the limiter recomputes active column groups, grants and fillers. -/
  | slewStep (cluster : Nat)
  /-- R181. A waiting fence's ordering conditions are met and the thread continues. -/
  | fenceComplete (tk : Nat)
  /-- R322. A full engine queue gains a slot and a waiting engine instruction issues. -/
  | engineSlotFree (tk : Nat)
  /-- R322. Every access of an engine operation is made and the issuer's cue B falls. -/
  | engineOpComplete (op : Nat)
  /-- R333. The issuer's own engine writes complete and the page set is brought on stage at key P. -/
  | publishTake (tk : Nat)
  /-- R85. Every thread has exited and outstanding operations have completed, so the cast ends and frees its resources. -/
  | castEnd (ck : Nat)
  /-- R342. A ready copy node starts its COPY on the first tile's engines. -/
  | copyNodeStart (node : Nat)
  /-- R351. The box office offers waiting ensembles in queue order and admits those that fit. -/
  | boxOfficePass (g : Nat)
  /-- R351. An ensemble that has waited 200,000 ticks becomes a blocker. -/
  | blockerTimeout (g : Nat)
  /-- R361. The gating hold of an empty core expires and the core is power-gated. -/
  | coreGate (core : Nat)
  /-- R361. A gated core finishes waking and the waiting cast is admitted. -/
  | coreWakeComplete (core : Nat)
  /-- R355. Each 400-tick interval samples temperatures and applies overrun, power and thermal clock limits. -/
  | powerInterval (temps : List Nat)
  /-- R336. A store enters a refresh window and serves no access. -/
  | refreshWindowStart (store : Nat)
  /-- R336. A refresh window ends and waiting accesses proceed. -/
  | refreshWindowEnd (store : Nat)
  /-- R303. A core advances its timestamp past every held lease within each 200 ticks. -/
  | ptsAdvance (core : Nat)
  /-- R364. A cast's time slice expires and SLICE is delivered when NOTIFY is set. -/
  | sliceExpiry (ck : Nat)
  /-- R364. After notified threads return or 100,000 ticks pass, the cast is pre-empted or given a new slice. -/
  | sliceDecision (ck : Nat)
  /-- R203. A debugger halt is requested from outside the gallery and delivered under R194. -/
  | haltRequest (ck : Nat)
  /-- R311. A host CXL.mem access to gallery DRAM takes a key at its home slice. -/
  | hostCxlMemAccess (g : HostPath) (addr : Nat) (write : Bool) (data : List (BitVec 8))
  /-- R378. A router drops a packet whose tag does not match the destination's gallery. -/
  | packetTagDrop (tag tile : Nat)
  /-- R380. A power region fails a curator test and is retired at the next quiesce. -/
  | regionTestFail (region : Nat)
  /-- R380. A core's compute fails; it becomes router-only and its name and queues are lost. -/
  | coreComputeFail (core : Nat)
  /-- R395. The snapshot stream ends, writes its status and DONE, and releases the freeze. -/
  | snapshotComplete (g : Nat)
  /-- R427. A peer fabric flit arrives and is checked, delivered or dropped. -/
  | fabricFlitReceive (port : Nat) (flit : List (BitVec 8))
  /-- R427. After 16 retries of one flit the port goes down and traffic reroutes. -/
  | fabricPortDown (port : Nat)
  /-- R421. The stub page executes a LAUNCH for the virtual function's gallery. -/
  | stubLaunch (g : HostPath) (opa : BitVec 64)
  /-- R421. The stub page executes a GNODE for the gallery. -/
  | stubGnode (g : HostPath) (opa : BitVec 64)
  /-- R421. The stub page executes a GDEP for the gallery. -/
  | stubGdep (g : HostPath) (opa opb : BitVec 64)
  /-- R379. Management request that creates a gallery from a connected tile set with a fresh tag. -/
  | createGallery (tag : BitVec 8) (a0 a1 a2 a3 a4 : BitVec 64)
  /-- R379. Management request that ends all productions, zeroes memory and frees the tiles. -/
  | removeGallery (tag : BitVec 8) (a0 a1 a2 a3 a4 : BitVec 64)
  /-- R379. Management request that adds positions under quiesce. -/
  | growGallery (tag : BitVec 8) (a0 a1 a2 a3 a4 : BitVec 64)
  /-- R379. Management request that removes the last positions under quiesce. -/
  | shrinkGallery (tag : BitVec 8) (a0 a1 a2 a3 a4 : BitVec 64)
  /-- R379. Management request that moves a position to a free tile under quiesce. -/
  | migratePosition (tag : BitVec 8) (a0 a1 a2 a3 a4 : BitVec 64)
  /-- R379. Management request that migrates several positions under one quiesce. -/
  | compactGallery (tag : BitVec 8) (a0 a1 a2 a3 a4 : BitVec 64)
  /-- R393. Management request that ends a position's companies and withdraws them from grid barriers. -/
  | retirePosition (tag : BitVec 8) (a0 a1 a2 a3 a4 : BitVec 64)
  /-- R428. Management request that installs a communicator's rank list. -/
  | setCommunicator (tag : BitVec 8) (a0 a1 a2 a3 a4 : BitVec 64)
  /-- R409. Management request that halts a cast, refused for protected galleries without external debug. -/
  | haltCast (tag : BitVec 8) (a0 a1 a2 a3 a4 : BitVec 64)
  /-- R424. Management request that writes one object to a host buffer at one curator key. -/
  | readBack (tag : BitVec 8) (a0 a1 a2 a3 a4 : BitVec 64)
  /-- R423. Management request that copies event-log records to a host buffer. -/
  | readLog (tag : BitVec 8) (a0 a1 a2 a3 a4 : BitVec 64)
  /-- R423. Management request that stages a firmware image for the next reset. -/
  | stageFirmware (tag : BitVec 8) (a0 a1 a2 a3 a4 : BitVec 64)
  /-- R423. Management request that returns identification registers and the certificate chain. -/
  | identify (tag : BitVec 8) (a0 a1 a2 a3 a4 : BitVec 64)
  /-- R410. An SPDM request returns doubly signed measurements of a gallery. -/
  | spdmGetMeasurements (g : Nat) (nonce : List (BitVec 8))
  /-- R420. A TDISP lock request after a completed SPDM session moves the TDI toward RUN. -/
  | tdispLock (g : Nat)
  /-- R413. A tenant delivers a group key over a secured session and the module installs it. -/
  | groupKeyDelivery (g grp : Nat) (key : List (BitVec 8))
  /-- R395. The snapshot stream passes a frozen line, releasing a writer that a full snapshot reserve held. -/
  | snapshotStreamPassesLine (g line : Nat)
  /-- R423. A GO write submits a request record whose CODE or arguments are malformed, and the curator writes STATUS 3. -/
  | managementRequestMalformed (words : List (BitVec 64))
  /-- R421. A GO write on the stub page with OP above 2, or OPB non-zero for LAUNCH or GNODE, gets STATUS 3. -/
  | stubOpMalformed (g : HostPath) (op opa opb : BitVec 64)
  /-- R420. An SPDM secured session is opened with the gallery's virtual function over DOE. -/
  | spdmSecuredSession (g : Nat)
  /-- R420. A TDISP request moves a locked TDI into the RUN state, where protected host access is served. -/
  | tdispRunRequest (g : Nat)
  /-- R419. An IDE key-management request over the VF's DOE mailbox programs and starts an IDE stream bound to the TDI. -/
  | ideKeyManagement (g stream : Nat) (key : List (BitVec 8))
  /-- R427. The host brings up the peer fabric, training the ports and giving the module its 12-bit module number. -/
  | fabricBringUp (ports : List Nat) (number : Nat)
  deriving DecidableEq, Repr

end Sys2Proof
end

