-- ==== Sys2Proof/WellFormed.lean ====
section
/-! DEFINITION. Which instructions have an encoding that the core accepts: the register rules of R30, the MEM and
ATOM combinations of R37, R177, R180 and R182, the code ranges of R38 to R41, and the field rules that an entry
adds. What depends on the words around an instruction (R26, R33) is checked when a scene is fetched. Rows of the
opcode table that no word encodes are always well formed: what they concern is checked by their meaning. -/
namespace Sys2Proof

/-- The operand names an even register (R30). -/
def evenReg {n : Nat} (r : BitVec n) : Bool := r.toNat % 2 == 0

/-- The operand names a register that is a multiple of 4 (R30). -/
def quadReg {n : Nat} (r : BitVec n) : Bool := r.toNat % 4 == 0

/-- A field that names an s-register from a 6-bit lane field holds 0 to 31 (R30). -/
def uniReg (r : BitVec 6) : Bool := r.toNat < 32

/-- The address operands of MEM and ATOM: with A = 1 an even pair and a zero sb (R30, R37). -/
def addrOk (a : BitVec 6) (b : BitVec 5) (m : BitVec 1) : Bool :=
  m == 0 || (evenReg a && b == 0)

/-- The data operands of an atomic other than ACAS (R182). -/
def atomOk (d a : BitVec 6) (b : BitVec 5) (m w : BitVec 1) : Bool :=
  addrOk a b m && (w == 0 || evenReg d)

/-- A CVT format code that R40 assigns. -/
def cvtCode (c : BitVec 6) : Bool :=
  c.toNat < 6 || c == 8 || c == 9 || c == 10 || c == 12 || c == 14

/-- The register rule of CVT: a pair for FP64 and INT64 (R161). -/
def cvtReg (c r : BitVec 6) : Bool := !(c == 0 || c == 14) || evenReg r

/-- A cue field of a header: 0 to 11, or 15 for none (R24). -/
def cueField (c : BitVec 4) : Bool := c.toNat < 12 || c == 15

/-- The checks of one instruction by itself. -/
def Instr.wf : Instr → Bool
  | .scene _ a b _ => cueField a && cueField b
  | .add64 _ d a b | .sub64 _ d a b => evenReg d && evenReg a && evenReg b
  | .dadd _ d a b | .dsub _ d a b | .dmul _ d a b | .dfma _ d a b | .dmin _ d a b | .dmax _ d a b
  | .ddiv _ d a b => evenReg d && evenReg a && evenReg b
  | .drcp _ d a | .drsq _ d a => evenReg d && evenReg a
  | .cmp _ _ _ _ _ k => k.toNat < 10
  | .cmpi _ _ _ _ k _ => k.toNat < 10
  | .fcmp _ _ _ _ _ k => k.toNat < 8
  | .dcmp _ _ _ a b k => k.toNat < 8 && evenReg a && evenReg b
  | .cvt _ d a s t => cvtCode s && cvtCode t && s != t && cvtReg s a && cvtReg t d
  | .ctbl _ _ a _ => evenReg a
  | .ld _ d a b m z s => z != 7 && s.toNat < 5 && (z != 3 || evenReg d) && (z != 4 || quadReg d) && addrOk a b m
  | .st _ d a b m z s =>
    z.toNat < 5 && (s == 0 || s == 2 || s == 3) && (z != 3 || evenReg d) && (z != 4 || quadReg d) && addrOk a b m
  | .pfetch _ a b m s => s.toNat < 4 && addrOk a b m
  | .mcst _ d a b m z c =>
    addrOk a b m && (z == 0 || evenReg d) &&
      (if m == 0 then decide (a.toNat + c.toNat ≤ 63) else decide (a.toNat + 2 * c.toNat + 1 ≤ 63))
  | .fence _ s => s != 0
  | .aadd _ d a b m w _ | .amin _ d a b m w _ | .amax _ d a b m w _ | .aand _ d a b m w _ | .aor _ d a b m w _
  | .axor _ d a b m w _ | .axch _ d a b m w _ | .afadd _ d a b m w _ => atomOk d a b m w
  | .acas _ d a b m w _ => addrOk a b m && (if w == 0 then evenReg d else quadReg d)
  | .vote _ _ _ _ v => v.toNat < 6
  | .redux _ _ _ _ v | .scanInc _ _ _ _ v | .scanExc _ _ _ _ v => v.toNat < 11
  | .jmpi a | .ret a => evenReg a
  | .calli d a => evenReg d && evenReg a
  | .call d _ => evenReg d
  | .s2vLo _ _ a | .s2vHi _ _ a => uniReg a
  | .v2sLo _ d _ | .v2sHi _ d _ => uniReg d
  | .v2sPair _ d a => uniReg d && evenReg a
  | .pfx _ _ r _ _ => r.toNat < 6
  | .ubra a c _ => c != 7 && (c != 0 || a == 0)
  | .waitAny _ a n _ | .waitAll _ a n _ => a.toNat + n.toNat < 32
  | .vres _ _ a _ => a != 31
  | .astat _ _ s _ => s.toNat < 5
  | .conv _ q _ _ => q.toNat < 16
  | .qread _ _ q s => q.toNat < 16 && s.toNat < 4
  | .gather _ _ a _ | .scatter _ _ a _ => a != 31
  | .add _ _ _ _ | .sub _ _ _ _ | .addc _ _ _ _ | .subb _ _ _ _ | .min _ _ _ _ | .max _ _ _ _ | .minu _ _ _ _
  | .maxu _ _ _ _ | .abs _ _ _ | .and _ _ _ _ | .or _ _ _ _ | .xor _ _ _ _ | .andn _ _ _ _ | .shl _ _ _ _
  | .shr _ _ _ _ | .sar _ _ _ _ | .rotl _ _ _ _ | .popc _ _ _ | .clz _ _ _ | .ctz _ _ _ | .brev _ _ _
  | .bswap _ _ _ | .bfx _ _ _ _ | .bfi _ _ _ _ | .addi _ _ _ _ | .andi _ _ _ _ | .ori _ _ _ _ | .xori _ _ _ _
  | .shli _ _ _ _ | .shri _ _ _ _ | .sari _ _ _ _ | .movi _ _ _ | .movhi _ _ _ | .mullo _ _ _ _ | .mulhi _ _ _ _
  | .mulhiu _ _ _ _ | .mad _ _ _ _ | .div _ _ _ _ | .divu _ _ _ _ | .rem _ _ _ _ | .remu _ _ _ _ | .dot4s _ _ _ _
  | .dot4u _ _ _ _ | .dot2s _ _ _ _ | .plop _ _ _ _ _ | .pmovToV _ _ | .pmovToP _ _ | .fadd _ _ _ _ | .fsub _ _ _ _
  | .fmul _ _ _ _ | .ffma _ _ _ _ | .fmin _ _ _ _ | .fmax _ _ _ _ | .fclass _ _ _ | .frnd _ _ _ | .pkadd _ _ _ _
  | .pkmul _ _ _ _ | .pkfma _ _ _ _ | .pkaddBf _ _ _ _ | .pkmulBf _ _ _ _ | .pkfmaBf _ _ _ _ | .frcp _ _ _
  | .frsq _ _ _ | .fsqrt _ _ _ | .fdiv _ _ _ _ | .fexp2 _ _ _ | .flog2 _ _ _ | .fsinpi _ _ _ | .fcospi _ _ _
  | .ftanh _ _ _ | .qntTf8 _ _ _ _ | .qntTf6 _ _ _ _ | .dqntTf8 _ _ _ _ | .dqntTf6 _ _ _ _ | .had _ _ _ _
  | .shflIdx _ _ _ _ _ | .shflSidx _ _ _ _ _ | .shflXor _ _ _ _ _ | .shflVidx _ _ _ _ | .bra _ _ _ | .jtab _ _ _
  | .mov _ _ _ | .sel _ _ _ _ _ | .uadd _ _ _ _ | .usub _ _ _ _ | .umul _ _ _ _ | .uand _ _ _ _ | .uor _ _ _ _
  | .uxor _ _ _ _ | .ushl _ _ _ _ | .ushr _ _ _ _ | .usar _ _ _ _ | .umov _ _ _ | .uaddi _ _ _ _ | .movl _ _ _
  | .movlHi _ _ _ | .ucall _ _ | .uret _ | .reform | .exit | .nop _ | .trap _ _ | .bkpt _ _ | .vrel _ _
  | .tfetch _ _ _ | .mma _ _ _ _ _ _ | .qmma _ _ _ _ _ _ | .mpoly _ _ _ _ _ _ _ | .miter _ _ _ _ _ _ _ _
  | .azero _ _ | .aload _ _ _ _ | .astore _ _ _ _ | .aread _ _ _ _ | .awrite _ _ _ _ | .atrn _ _ _ | .acoef _ _ _
  | .bar _ _ _ | .binit _ _ _ | .gbar _ _ _ | .copy _ _ _ _ | .publish _ _ _ | .coll _ _ _ _ | .launch _ _ _
  | .gnode _ _ _ | .gdep _ _ _ | .send _ _ _ _ | .recv _ _ _ _ | .rfcal _ _ _ | .snap _ _ _ _ | .csrr _ _ _
  | .csrw _ _ _ | .csrs _ _ _ | .csrc _ _ _ | .rett | .rdtime _ _ | .ctxsave _ _ | .ctxload _ _ | .wingageWrite _
  | .frmWrite _ | .tcauseClear _ | .tvecWrite _ | .haltcast _ | .rdvtoWrite _ | .tsliceWrite _
  | .curatorBaseWrite _ _ | .snapresWrite _ | .csrPlainWrite _ _ | .moduleReset _ _ | .slotAged _ _
  | .chorusDraw _ _ | .laneGrant _ _ | .sceneFetch _ _ | .headerWaitMet _ _ | .translationWalk _ _
  | .loadComplete _ _ | .waitEvaluate _ | .waitTimeout _ | .causeDelivery _ | .rdvTimeout _ | .matrixOpStart _
  | .matrixOpComplete _ | .accOpComplete _ | .slewStep _ | .fenceComplete _ | .engineSlotFree _
  | .engineOpComplete _ | .publishTake _ | .castEnd _ | .copyNodeStart _ | .boxOfficePass _ | .blockerTimeout _
  | .coreGate _ | .coreWakeComplete _ | .powerInterval _ | .refreshWindowStart _ | .refreshWindowEnd _
  | .ptsAdvance _ | .sliceExpiry _ | .sliceDecision _ | .haltRequest _ | .hostCxlMemAccess _ _ _ _
  | .packetTagDrop _ _ | .regionTestFail _ | .coreComputeFail _ | .snapshotComplete _ | .fabricFlitReceive _ _
  | .fabricPortDown _ | .stubLaunch _ _ | .stubGnode _ _ | .stubGdep _ _ _ | .createGallery _ _ _ _ _ _
  | .removeGallery _ _ _ _ _ _ | .growGallery _ _ _ _ _ _ | .shrinkGallery _ _ _ _ _ _
  | .migratePosition _ _ _ _ _ _ | .compactGallery _ _ _ _ _ _ | .retirePosition _ _ _ _ _ _
  | .setCommunicator _ _ _ _ _ _ | .haltCast _ _ _ _ _ _ | .readBack _ _ _ _ _ _ | .readLog _ _ _ _ _ _
  | .stageFirmware _ _ _ _ _ _ | .identify _ _ _ _ _ _ | .spdmGetMeasurements _ _ | .tdispLock _
  | .groupKeyDelivery _ _ _ | .snapshotStreamPassesLine _ _ | .managementRequestMalformed _
  | .stubOpMalformed _ _ _ _ | .spdmSecuredSession _ | .tdispRunRequest _ | .ideKeyManagement _ _ _
  | .fabricBringUp _ _ => true

end Sys2Proof
end

