-- ==== Sys2Proof/Decode.lean ====
section
/-! DEFINITION. From words to instructions and back (02_encoding.md R22, R29 to R42). Decoding is total: it answers
the instruction a word stands for, or says by name why the word stands for none. The encoder is written from the
same tables. -/
namespace Sys2Proof

/-- Why bytes are no instruction (R27, R42). -/
inductive DecodeError where
  /-- Fewer bytes than the instruction has. -/
  | truncated
  /-- A major code that R42 leaves unused. -/
  | unusedMajor
  /-- A minor code that R36 and R41 do not list. -/
  | unusedMinor
  /-- A reserved or unused field that is not zero (R8, R30). -/
  | reservedField
  /-- The E bit is not what the word must have (R24, R26, R33). -/
  | sceneEnd
  /-- A field value that R30, R37 to R41 or the entry does not permit. -/
  | illegalOperand
  deriving DecidableEq, Repr

/-- Bits [lo+n-1:lo] of a number. -/
def fld (w lo n : Nat) : Nat := w / 2 ^ lo % 2 ^ n

/-- The same bits as a bit vector. -/
def bv (w lo n : Nat) : BitVec n := BitVec.ofNat n (w / 2 ^ lo)

/-- Bit i of a number. -/
def bit (w i : Nat) : Bool := w / 2 ^ i % 2 == 1

/-- The instruction is accepted when its reserved fields are zero and its operands are legal. -/
def accept (reserved : Nat) (i : Instr) : Except DecodeError Instr :=
  if reserved = 0 then (if i.wf then .ok i else .error .illegalOperand) else .error .reservedField

/-- A word that must end its scene (R26). -/
def acceptEnd (w reserved : Nat) (i : Instr) : Except DecodeError Instr :=
  if bit w 30 then accept reserved i else .error .sceneEnd

/-- A word that must not end a scene: a header (R24) or a prefix (R33). -/
def acceptMid (w reserved : Nat) (i : Instr) : Except DecodeError Instr :=
  if bit w 30 then .error .sceneEnd else accept reserved i

/-- The lane set (R36). -/
def decodeLane (w : Nat) : Except DecodeError Instr :=
  match fld w 24 6 with
  | 0x1 =>
    match fld w 0 6 with
    | 0 => accept 0 (.add (bit w 30) (bv w 18 6) (bv w 12 6) (bv w 6 6))
    | 1 => accept 0 (.sub (bit w 30) (bv w 18 6) (bv w 12 6) (bv w 6 6))
    | 2 => accept 0 (.addc (bit w 30) (bv w 18 6) (bv w 12 6) (bv w 6 6))
    | 3 => accept 0 (.subb (bit w 30) (bv w 18 6) (bv w 12 6) (bv w 6 6))
    | 4 => accept 0 (.add64 (bit w 30) (bv w 18 6) (bv w 12 6) (bv w 6 6))
    | 5 => accept 0 (.sub64 (bit w 30) (bv w 18 6) (bv w 12 6) (bv w 6 6))
    | 6 => accept 0 (.min (bit w 30) (bv w 18 6) (bv w 12 6) (bv w 6 6))
    | 7 => accept 0 (.max (bit w 30) (bv w 18 6) (bv w 12 6) (bv w 6 6))
    | 8 => accept 0 (.minu (bit w 30) (bv w 18 6) (bv w 12 6) (bv w 6 6))
    | 9 => accept 0 (.maxu (bit w 30) (bv w 18 6) (bv w 12 6) (bv w 6 6))
    | 10 => accept (fld w 6 6) (.abs (bit w 30) (bv w 18 6) (bv w 12 6))
    | 11 => accept 0 (.and (bit w 30) (bv w 18 6) (bv w 12 6) (bv w 6 6))
    | 12 => accept 0 (.or (bit w 30) (bv w 18 6) (bv w 12 6) (bv w 6 6))
    | 13 => accept 0 (.xor (bit w 30) (bv w 18 6) (bv w 12 6) (bv w 6 6))
    | 14 => accept 0 (.andn (bit w 30) (bv w 18 6) (bv w 12 6) (bv w 6 6))
    | 15 => accept 0 (.shl (bit w 30) (bv w 18 6) (bv w 12 6) (bv w 6 6))
    | 16 => accept 0 (.shr (bit w 30) (bv w 18 6) (bv w 12 6) (bv w 6 6))
    | 17 => accept 0 (.sar (bit w 30) (bv w 18 6) (bv w 12 6) (bv w 6 6))
    | 18 => accept 0 (.rotl (bit w 30) (bv w 18 6) (bv w 12 6) (bv w 6 6))
    | 19 => accept (fld w 6 6) (.popc (bit w 30) (bv w 18 6) (bv w 12 6))
    | 20 => accept (fld w 6 6) (.clz (bit w 30) (bv w 18 6) (bv w 12 6))
    | 21 => accept (fld w 6 6) (.ctz (bit w 30) (bv w 18 6) (bv w 12 6))
    | 22 => accept (fld w 6 6) (.brev (bit w 30) (bv w 18 6) (bv w 12 6))
    | 23 => accept (fld w 6 6) (.bswap (bit w 30) (bv w 18 6) (bv w 12 6))
    | 24 => accept 0 (.bfx (bit w 30) (bv w 18 6) (bv w 12 6) (bv w 6 6))
    | 25 => accept 0 (.bfi (bit w 30) (bv w 18 6) (bv w 12 6) (bv w 6 6))
    | _ => .error .unusedMinor
  | 0x2 => accept 0 (.addi (bit w 30) (bv w 18 6) (bv w 12 6) (bv w 0 12))
  | 0x3 => accept 0 (.andi (bit w 30) (bv w 18 6) (bv w 12 6) (bv w 0 12))
  | 0x4 => accept 0 (.ori (bit w 30) (bv w 18 6) (bv w 12 6) (bv w 0 12))
  | 0x5 => accept 0 (.xori (bit w 30) (bv w 18 6) (bv w 12 6) (bv w 0 12))
  | 0x6 =>
    match fld w 10 2 with
    | 0 => accept (fld w 5 5) (.shli (bit w 30) (bv w 18 6) (bv w 12 6) (bv w 0 5))
    | 1 => accept (fld w 5 5) (.shri (bit w 30) (bv w 18 6) (bv w 12 6) (bv w 0 5))
    | 2 => accept (fld w 5 5) (.sari (bit w 30) (bv w 18 6) (bv w 12 6) (bv w 0 5))
    | _ => .error .unusedMinor
  | 0x7 =>
    match fld w 17 1 with
    | 0 => accept 0 (.movi (bit w 30) (bv w 18 6) (bv w 0 17))
    | 1 => accept 0 (.movhi (bit w 30) (bv w 18 6) (bv w 0 17))
    | _ => .error .unusedMinor
  | 0x8 =>
    match fld w 0 6 with
    | 0 => accept 0 (.mullo (bit w 30) (bv w 18 6) (bv w 12 6) (bv w 6 6))
    | 1 => accept 0 (.mulhi (bit w 30) (bv w 18 6) (bv w 12 6) (bv w 6 6))
    | 2 => accept 0 (.mulhiu (bit w 30) (bv w 18 6) (bv w 12 6) (bv w 6 6))
    | 3 => accept 0 (.mad (bit w 30) (bv w 18 6) (bv w 12 6) (bv w 6 6))
    | 4 => accept 0 (.div (bit w 30) (bv w 18 6) (bv w 12 6) (bv w 6 6))
    | 5 => accept 0 (.divu (bit w 30) (bv w 18 6) (bv w 12 6) (bv w 6 6))
    | 6 => accept 0 (.rem (bit w 30) (bv w 18 6) (bv w 12 6) (bv w 6 6))
    | 7 => accept 0 (.remu (bit w 30) (bv w 18 6) (bv w 12 6) (bv w 6 6))
    | 8 => accept 0 (.dot4s (bit w 30) (bv w 18 6) (bv w 12 6) (bv w 6 6))
    | 9 => accept 0 (.dot4u (bit w 30) (bv w 18 6) (bv w 12 6) (bv w 6 6))
    | 10 => accept 0 (.dot2s (bit w 30) (bv w 18 6) (bv w 12 6) (bv w 6 6))
    | _ => .error .unusedMinor
  | 0xC => accept 0 (.cmp (bit w 30) (bv w 20 4) (bv w 18 2) (bv w 12 6) (bv w 6 6) (bv w 0 6))
  | 0xD => accept 0 (.cmpi (bit w 30) (bv w 20 4) (bv w 18 2) (bv w 12 6) (bv w 8 4) (bv w 0 8))
  | 0xE => accept (fld w 4 4 + fld w 16 4) (.plop (bit w 30) (bv w 20 4) (bv w 12 4) (bv w 8 4) (bv w 0 4))
  | 0xF =>
    match fld w 0 6 with
    | 0 => accept (fld w 6 12) (.pmovToV (bit w 30) (bv w 18 6))
    | 1 => accept (fld w 6 6 + fld w 18 6) (.pmovToP (bit w 30) (bv w 12 6))
    | _ => .error .unusedMinor
  | 0x10 =>
    match fld w 0 6 with
    | 0 => accept 0 (.fadd (bit w 30) (bv w 18 6) (bv w 12 6) (bv w 6 6))
    | 1 => accept 0 (.fsub (bit w 30) (bv w 18 6) (bv w 12 6) (bv w 6 6))
    | 2 => accept 0 (.fmul (bit w 30) (bv w 18 6) (bv w 12 6) (bv w 6 6))
    | 3 => accept 0 (.ffma (bit w 30) (bv w 18 6) (bv w 12 6) (bv w 6 6))
    | 4 => accept 0 (.fmin (bit w 30) (bv w 18 6) (bv w 12 6) (bv w 6 6))
    | 5 => accept 0 (.fmax (bit w 30) (bv w 18 6) (bv w 12 6) (bv w 6 6))
    | 6 => accept (fld w 6 6) (.fclass (bit w 30) (bv w 18 6) (bv w 12 6))
    | 7 => accept (fld w 6 6) (.frnd (bit w 30) (bv w 18 6) (bv w 12 6))
    | _ => .error .unusedMinor
  | 0x11 => accept 0 (.fcmp (bit w 30) (bv w 20 4) (bv w 18 2) (bv w 12 6) (bv w 6 6) (bv w 0 6))
  | 0x12 =>
    match fld w 0 6 with
    | 0 => accept 0 (.pkadd (bit w 30) (bv w 18 6) (bv w 12 6) (bv w 6 6))
    | 1 => accept 0 (.pkmul (bit w 30) (bv w 18 6) (bv w 12 6) (bv w 6 6))
    | 2 => accept 0 (.pkfma (bit w 30) (bv w 18 6) (bv w 12 6) (bv w 6 6))
    | 8 => accept 0 (.pkaddBf (bit w 30) (bv w 18 6) (bv w 12 6) (bv w 6 6))
    | 9 => accept 0 (.pkmulBf (bit w 30) (bv w 18 6) (bv w 12 6) (bv w 6 6))
    | 10 => accept 0 (.pkfmaBf (bit w 30) (bv w 18 6) (bv w 12 6) (bv w 6 6))
    | _ => .error .unusedMinor
  | 0x18 =>
    match fld w 0 6 with
    | 0 => accept 0 (.dadd (bit w 30) (bv w 18 6) (bv w 12 6) (bv w 6 6))
    | 1 => accept 0 (.dsub (bit w 30) (bv w 18 6) (bv w 12 6) (bv w 6 6))
    | 2 => accept 0 (.dmul (bit w 30) (bv w 18 6) (bv w 12 6) (bv w 6 6))
    | 3 => accept 0 (.dfma (bit w 30) (bv w 18 6) (bv w 12 6) (bv w 6 6))
    | 4 => accept 0 (.dmin (bit w 30) (bv w 18 6) (bv w 12 6) (bv w 6 6))
    | 5 => accept 0 (.dmax (bit w 30) (bv w 18 6) (bv w 12 6) (bv w 6 6))
    | _ => .error .unusedMinor
  | 0x19 => accept 0 (.dcmp (bit w 30) (bv w 20 4) (bv w 18 2) (bv w 12 6) (bv w 6 6) (bv w 0 6))
  | 0x1C =>
    match fld w 0 6 with
    | 0 => accept (fld w 6 6) (.frcp (bit w 30) (bv w 18 6) (bv w 12 6))
    | 1 => accept (fld w 6 6) (.frsq (bit w 30) (bv w 18 6) (bv w 12 6))
    | 2 => accept (fld w 6 6) (.fsqrt (bit w 30) (bv w 18 6) (bv w 12 6))
    | 3 => accept 0 (.fdiv (bit w 30) (bv w 18 6) (bv w 12 6) (bv w 6 6))
    | 4 => accept (fld w 6 6) (.fexp2 (bit w 30) (bv w 18 6) (bv w 12 6))
    | 5 => accept (fld w 6 6) (.flog2 (bit w 30) (bv w 18 6) (bv w 12 6))
    | 6 => accept (fld w 6 6) (.fsinpi (bit w 30) (bv w 18 6) (bv w 12 6))
    | 7 => accept (fld w 6 6) (.fcospi (bit w 30) (bv w 18 6) (bv w 12 6))
    | 8 => accept (fld w 6 6) (.ftanh (bit w 30) (bv w 18 6) (bv w 12 6))
    | 16 => accept (fld w 6 6) (.drcp (bit w 30) (bv w 18 6) (bv w 12 6))
    | 17 => accept (fld w 6 6) (.drsq (bit w 30) (bv w 18 6) (bv w 12 6))
    | 18 => accept 0 (.ddiv (bit w 30) (bv w 18 6) (bv w 12 6) (bv w 6 6))
    | _ => .error .unusedMinor
  | 0x1D => accept 0 (.cvt (bit w 30) (bv w 18 6) (bv w 12 6) (bv w 6 6) (bv w 0 6))
  | 0x1E =>
    match fld w 0 6 with
    | 0 => accept 0 (.qntTf8 (bit w 30) (bv w 18 6) (bv w 12 6) (bv w 6 6))
    | 1 => accept 0 (.qntTf6 (bit w 30) (bv w 18 6) (bv w 12 6) (bv w 6 6))
    | 2 => accept 0 (.dqntTf8 (bit w 30) (bv w 18 6) (bv w 12 6) (bv w 6 6))
    | 3 => accept 0 (.dqntTf6 (bit w 30) (bv w 18 6) (bv w 12 6) (bv w 6 6))
    | _ => .error .unusedMinor
  | 0x1F =>
    match fld w 0 6 with
    | 0 => accept 0 (.ctbl (bit w 30) (bv w 18 6) (bv w 12 6) (bv w 6 6))
    | _ => .error .unusedMinor
  | 0x20 => accept 0 (.ld (bit w 30) (bv w 18 6) (bv w 12 6) (bv w 7 5) (bv w 6 1) (bv w 3 3) (bv w 0 3))
  | 0x21 => accept 0 (.st (bit w 30) (bv w 18 6) (bv w 12 6) (bv w 7 5) (bv w 6 1) (bv w 3 3) (bv w 0 3))
  | 0x22 => accept (fld w 3 3 + fld w 18 6) (.pfetch (bit w 30) (bv w 12 6) (bv w 7 5) (bv w 6 1) (bv w 0 3))
  | 0x23 =>
    match fld w 4 2 with
    | 1 => accept (fld w 2 1) (.mcst (bit w 30) (bv w 18 6) (bv w 12 6) (bv w 7 5) (bv w 6 1) (bv w 3 1) (bv w 0 2))
    | _ => .error .unusedMinor
  | 0x24 => accept (fld w 3 21) (.fence (bit w 30) (bv w 0 3))
  | 0x28 =>
    match fld w 0 4 with
    | 0 => accept 0 (.aadd (bit w 30) (bv w 18 6) (bv w 12 6) (bv w 7 5) (bv w 6 1) (bv w 5 1) (bv w 4 1))
    | 1 => accept 0 (.amin (bit w 30) (bv w 18 6) (bv w 12 6) (bv w 7 5) (bv w 6 1) (bv w 5 1) (bv w 4 1))
    | 2 => accept 0 (.amax (bit w 30) (bv w 18 6) (bv w 12 6) (bv w 7 5) (bv w 6 1) (bv w 5 1) (bv w 4 1))
    | 3 => accept 0 (.aand (bit w 30) (bv w 18 6) (bv w 12 6) (bv w 7 5) (bv w 6 1) (bv w 5 1) (bv w 4 1))
    | 4 => accept 0 (.aor (bit w 30) (bv w 18 6) (bv w 12 6) (bv w 7 5) (bv w 6 1) (bv w 5 1) (bv w 4 1))
    | 5 => accept 0 (.axor (bit w 30) (bv w 18 6) (bv w 12 6) (bv w 7 5) (bv w 6 1) (bv w 5 1) (bv w 4 1))
    | 6 => accept 0 (.axch (bit w 30) (bv w 18 6) (bv w 12 6) (bv w 7 5) (bv w 6 1) (bv w 5 1) (bv w 4 1))
    | 7 => accept 0 (.acas (bit w 30) (bv w 18 6) (bv w 12 6) (bv w 7 5) (bv w 6 1) (bv w 5 1) (bv w 4 1))
    | 8 => accept 0 (.afadd (bit w 30) (bv w 18 6) (bv w 12 6) (bv w 7 5) (bv w 6 1) (bv w 5 1) (bv w 4 1))
    | _ => .error .unusedMinor
  | 0x2C =>
    match fld w 4 3 with
    | 0 => accept 0 (.vote (bit w 30) (bv w 18 6) (bv w 12 6) (bv w 7 5) (bv w 0 4))
    | 1 => accept 0 (.redux (bit w 30) (bv w 18 6) (bv w 12 6) (bv w 7 5) (bv w 0 4))
    | 2 => accept 0 (.scanInc (bit w 30) (bv w 18 6) (bv w 12 6) (bv w 7 5) (bv w 0 4))
    | 3 => accept 0 (.scanExc (bit w 30) (bv w 18 6) (bv w 12 6) (bv w 7 5) (bv w 0 4))
    | 4 => accept (fld w 0 4) (.had (bit w 30) (bv w 18 6) (bv w 12 6) (bv w 7 5))
    | _ => .error .unusedMinor
  | 0x2D =>
    match fld w 5 2 with
    | 0 => accept 0 (.shflIdx (bit w 30) (bv w 18 6) (bv w 12 6) (bv w 7 5) (bv w 0 5))
    | 1 => accept 0 (.shflSidx (bit w 30) (bv w 18 6) (bv w 12 6) (bv w 7 5) (bv w 0 5))
    | 2 => accept 0 (.shflXor (bit w 30) (bv w 18 6) (bv w 12 6) (bv w 7 5) (bv w 0 5))
    | 3 => accept (fld w 0 5) (.shflVidx (bit w 30) (bv w 18 6) (bv w 12 6) (bv w 7 5))
    | _ => .error .unusedMinor
  | 0x30 => acceptEnd w 0 (.bra (bv w 20 4) (bv w 19 1) (bv w 0 19))
  | 0x31 =>
    match fld w 0 6 with
    | 0 => acceptEnd w (fld w 6 6 + fld w 18 6) (.jmpi (bv w 12 6))
    | 1 => acceptEnd w (fld w 6 6) (.calli (bv w 18 6) (bv w 12 6))
    | 2 => acceptEnd w (fld w 6 6 + fld w 18 6) (.ret (bv w 12 6))
    | _ => .error .unusedMinor
  | 0x32 => acceptEnd w (fld w 0 7) (.jtab (bv w 18 6) (bv w 12 6) (bv w 7 5))
  | 0x33 => acceptEnd w 0 (.call (bv w 18 6) (bv w 0 18))
  | 0x34 =>
    match fld w 0 6 with
    | 0 => accept (fld w 6 6) (.mov (bit w 30) (bv w 18 6) (bv w 12 6))
    | _ => if fld w 4 2 = 1 then accept 0 (.sel (bit w 30) (bv w 18 6) (bv w 12 6) (bv w 6 6) (bv w 0 4)) else .error .unusedMinor
  | 0x35 =>
    match fld w 0 6 with
    | 0 => accept (fld w 6 6) (.s2vLo (bit w 30) (bv w 18 6) (bv w 12 6))
    | 1 => accept (fld w 6 6) (.s2vHi (bit w 30) (bv w 18 6) (bv w 12 6))
    | 2 => accept (fld w 6 6) (.v2sLo (bit w 30) (bv w 18 6) (bv w 12 6))
    | 3 => accept (fld w 6 6) (.v2sHi (bit w 30) (bv w 18 6) (bv w 12 6))
    | 4 => accept (fld w 6 6) (.v2sPair (bit w 30) (bv w 18 6) (bv w 12 6))
    | _ => .error .unusedMinor
  | 0x3F => acceptMid w (fld w 0 9) (.pfx (bv w 20 4) (bv w 19 1) (bv w 16 3) (bv w 10 6) (bv w 9 1))
  | _ => .error .unusedMajor

/-- The uniform set (R41); lit is the word after, which only MOVL reads. -/
def decodeUniform (w lit : Nat) : Except DecodeError Instr :=
  match fld w 24 6 with
  | 0x0 => acceptMid w (fld w 0 3) (.scene (bv w 12 12) (bv w 8 4) (bv w 4 4) (bv w 3 1))
  | 0x1 =>
    match fld w 0 9 with
    | 0 => accept 0 (.uadd (bit w 30) (bv w 19 5) (bv w 14 5) (bv w 9 5))
    | 1 => accept 0 (.usub (bit w 30) (bv w 19 5) (bv w 14 5) (bv w 9 5))
    | 2 => accept 0 (.umul (bit w 30) (bv w 19 5) (bv w 14 5) (bv w 9 5))
    | 3 => accept 0 (.uand (bit w 30) (bv w 19 5) (bv w 14 5) (bv w 9 5))
    | 4 => accept 0 (.uor (bit w 30) (bv w 19 5) (bv w 14 5) (bv w 9 5))
    | 5 => accept 0 (.uxor (bit w 30) (bv w 19 5) (bv w 14 5) (bv w 9 5))
    | 6 => accept 0 (.ushl (bit w 30) (bv w 19 5) (bv w 14 5) (bv w 9 5))
    | 7 => accept 0 (.ushr (bit w 30) (bv w 19 5) (bv w 14 5) (bv w 9 5))
    | 8 => accept 0 (.usar (bit w 30) (bv w 19 5) (bv w 14 5) (bv w 9 5))
    | 9 => accept (fld w 9 5) (.umov (bit w 30) (bv w 19 5) (bv w 14 5))
    | _ => .error .unusedMinor
  | 0x2 => accept 0 (.uaddi (bit w 30) (bv w 19 5) (bv w 14 5) (bv w 0 14))
  | 0x8 => acceptEnd w 0 (.ubra (bv w 19 5) (bv w 16 3) (bv w 0 16))
  | 0x9 => acceptEnd w (fld w 16 3) (.ucall (bv w 19 5) (bv w 0 16))
  | 0xA => acceptEnd w (fld w 0 19) (.uret (bv w 19 5))
  | 0xC => acceptEnd w (fld w 0 24) (.reform)
  | 0xD => acceptEnd w (fld w 0 24) (.exit)
  | 0xE =>
    match fld w 12 1 with
    | 0 => acceptEnd w (fld w 0 7) (.waitAny (bv w 20 4) (bv w 15 5) (bv w 13 2) (bv w 7 5))
    | 1 => acceptEnd w (fld w 0 7) (.waitAll (bv w 20 4) (bv w 15 5) (bv w 13 2) (bv w 7 5))
    | _ => .error .unusedMinor
  | 0xF =>
    match fld w 20 4 with
    | 0 => accept (fld w 0 20) (.nop (bit w 30))
    | 1 => accept (fld w 16 4) (.trap (bit w 30) (bv w 0 16))
    | 2 => accept (fld w 16 4) (.bkpt (bit w 30) (bv w 0 16))
    | _ => .error .unusedMinor
  | 0x10 =>
    match fld w 0 9 with
    | 0 => accept (fld w 19 1) (.vres (bit w 30) (bv w 20 4) (bv w 14 5) (bv w 9 5))
    | 1 => accept (fld w 9 11) (.vrel (bit w 30) (bv w 20 4))
    | 2 => accept (fld w 14 6) (.tfetch (bit w 30) (bv w 20 4) (bv w 9 5))
    | _ => .error .unusedMinor
  | 0x11 => accept (fld w 1 8) (.mma (bit w 30) (bv w 20 4) (bv w 17 3) (bv w 13 4) (bv w 9 4) (bv w 0 1))
  | 0x12 => accept (fld w 1 8) (.qmma (bit w 30) (bv w 20 4) (bv w 17 3) (bv w 13 4) (bv w 9 4) (bv w 0 1))
  | 0x13 => accept (fld w 0 7) (.mpoly (bit w 30) (bv w 20 4) (bv w 17 3) (bv w 14 3) (bv w 11 3) (bv w 8 3) (bv w 7 1))
  | 0x14 => accept (fld w 6 2) (.miter (bit w 30) (bv w 20 4) (bv w 17 3) (bv w 14 3) (bv w 11 3) (bv w 9 2) (bv w 8 1) (bv w 0 6))
  | 0x15 =>
    match fld w 0 8 with
    | 0 => accept (fld w 8 13) (.azero (bit w 30) (bv w 21 3))
    | 1 => accept (fld w 18 3) (.aload (bit w 30) (bv w 21 3) (bv w 13 5) (bv w 8 5))
    | 2 => accept (fld w 18 3) (.astore (bit w 30) (bv w 21 3) (bv w 13 5) (bv w 8 5))
    | 3 => accept (fld w 18 3) (.aread (bit w 30) (bv w 21 3) (bv w 13 5) (bv w 8 5))
    | 4 => accept (fld w 18 3) (.awrite (bit w 30) (bv w 21 3) (bv w 13 5) (bv w 8 5))
    | 5 => accept (fld w 8 10) (.atrn (bit w 30) (bv w 21 3) (bv w 18 3))
    | 6 => accept (fld w 8 5 + fld w 21 3) (.acoef (bit w 30) (bv w 18 3) (bv w 13 5))
    | 7 => accept (fld w 13 5) (.astat (bit w 30) (bv w 21 3) (bv w 18 3) (bv w 8 5))
    | _ => .error .unusedMinor
  | 0x18 =>
    match fld w 0 9 with
    | 0 => accept 0 (.conv (bit w 30) (bv w 19 5) (bv w 14 5) (bv w 9 5))
    | 1 => accept 0 (.qread (bit w 30) (bv w 19 5) (bv w 14 5) (bv w 9 5))
    | _ => .error .unusedMinor
  | 0x19 =>
    match fld w 0 9 with
    | 0 => accept (fld w 9 5) (.bar (bit w 30) (bv w 19 5) (bv w 14 5))
    | 1 => accept (fld w 19 5) (.binit (bit w 30) (bv w 14 5) (bv w 9 5))
    | _ => .error .unusedMinor
  | 0x1A =>
    match fld w 0 9 with
    | 0 => accept (fld w 9 5) (.gbar (bit w 30) (bv w 19 5) (bv w 14 5))
    | _ => .error .unusedMinor
  | 0x1C =>
    match fld w 0 9 with
    | 0 => accept 0 (.copy (bit w 30) (bv w 19 5) (bv w 14 5) (bv w 9 5))
    | 1 => accept 0 (.gather (bit w 30) (bv w 19 5) (bv w 14 5) (bv w 9 5))
    | 2 => accept 0 (.scatter (bit w 30) (bv w 19 5) (bv w 14 5) (bv w 9 5))
    | _ => .error .unusedMinor
  | 0x1D =>
    match fld w 0 9 with
    | 0 => accept (fld w 19 5) (.publish (bit w 30) (bv w 14 5) (bv w 9 5))
    | _ => .error .unusedMinor
  | 0x1E =>
    match fld w 0 9 with
    | 0 => accept 0 (.coll (bit w 30) (bv w 19 5) (bv w 14 5) (bv w 9 5))
    | _ => .error .unusedMinor
  | 0x20 =>
    match fld w 0 9 with
    | 0 => accept (fld w 9 5) (.launch (bit w 30) (bv w 19 5) (bv w 14 5))
    | 1 => accept (fld w 9 5) (.gnode (bit w 30) (bv w 19 5) (bv w 14 5))
    | 2 => accept (fld w 19 5) (.gdep (bit w 30) (bv w 14 5) (bv w 9 5))
    | _ => .error .unusedMinor
  | 0x21 =>
    match fld w 0 9 with
    | 0 => accept 0 (.send (bit w 30) (bv w 19 5) (bv w 14 5) (bv w 9 5))
    | 1 => accept 0 (.recv (bit w 30) (bv w 19 5) (bv w 14 5) (bv w 9 5))
    | _ => .error .unusedMinor
  | 0x24 =>
    match fld w 0 9 with
    | 0 => accept (fld w 9 5) (.rfcal (bit w 30) (bv w 19 5) (bv w 14 5))
    | _ => .error .unusedMinor
  | 0x25 =>
    match fld w 0 9 with
    | 0 => accept 0 (.snap (bit w 30) (bv w 19 5) (bv w 14 5) (bv w 9 5))
    | _ => .error .unusedMinor
  | 0x28 =>
    match fld w 0 7 with
    | 0 => accept 0 (.csrr (bit w 30) (bv w 12 12) (bv w 7 5))
    | 1 => accept 0 (.csrw (bit w 30) (bv w 12 12) (bv w 7 5))
    | 2 => accept 0 (.csrs (bit w 30) (bv w 12 12) (bv w 7 5))
    | 3 => accept 0 (.csrc (bit w 30) (bv w 12 12) (bv w 7 5))
    | 4 => acceptEnd w (fld w 7 17) (.rett)
    | 5 => accept (fld w 12 12) (.rdtime (bit w 30) (bv w 7 5))
    | 6 => accept (fld w 12 12) (.ctxsave (bit w 30) (bv w 7 5))
    | 7 => accept (fld w 12 12) (.ctxload (bit w 30) (bv w 7 5))
    | _ => .error .unusedMinor
  | 0x3F =>
    match fld w 18 1 with
    | 0 => accept (fld w 0 18) (.movl (bit w 30) (bv w 19 5) (bv lit 0 32))
    | _ => accept (fld w 0 18) (.movlHi (bit w 30) (bv w 19 5) (bv lit 0 32))
  | _ => .error .unusedMajor

/-- The instruction of a word and of the word after it (R22). -/
def decodeWord (w lit : Nat) : Except DecodeError Instr :=
  if fld w 31 1 = 0 then decodeLane w else decodeUniform w lit

/-- A word is the first of two: MOVL (R35). -/
def isMovlWord (w : Nat) : Bool := fld w 31 1 == 1 && fld w 24 6 == 0x3F

/-- The little-endian number that bytes hold (R5). -/
def leNat : List Byte → Nat
  | [] => 0
  | b :: t => b.toNat + 256 * leNat t

/-- The n bytes of a number, lowest first (R5). -/
def leBytes : Nat → Nat → List Byte
  | 0, _ => []
  | n + 1, x => BitVec.ofNat 8 x :: leBytes n (x / 256)

/-- The instruction that bytes begin with, and the bytes after it. -/
def decodeBytes (bs : List Byte) : Except DecodeError (Instr × List Byte) :=
  if bs.length < 4 then .error .truncated
  else
    let w := leNat (bs.take 4)
    if isMovlWord w then
      if bs.length < 8 then .error .truncated
      else (decodeWord w (leNat ((bs.drop 4).take 4))).map (fun i => (i, bs.drop 8))
    else (decodeWord w 0).map (fun i => (i, bs.drop 4))

/-- A word of 32 bits. -/
def wordOf (n : Nat) : Word := BitVec.ofNat 32 n

/-- A word's fixed bits with each field added at its lowest bit. -/
def pack : Nat → List (Nat × Nat) → Nat
  | b, [] => b
  | b, (x, lo) :: t => pack (b + x * 2 ^ lo) t

/-- The words of an instruction; none for a step that no word encodes. -/
def encode : Instr → List Word
  | .scene w a b l => [wordOf (pack 0x80000000 [(w.toNat, 12), (a.toNat, 8), (b.toNat, 4), (l.toNat, 3)])]
  | .add e d a b => [wordOf (pack 0x1000000 [(e.toNat, 30), (d.toNat, 18), (a.toNat, 12), (b.toNat, 6)])]
  | .sub e d a b => [wordOf (pack 0x1000001 [(e.toNat, 30), (d.toNat, 18), (a.toNat, 12), (b.toNat, 6)])]
  | .addc e d a b => [wordOf (pack 0x1000002 [(e.toNat, 30), (d.toNat, 18), (a.toNat, 12), (b.toNat, 6)])]
  | .subb e d a b => [wordOf (pack 0x1000003 [(e.toNat, 30), (d.toNat, 18), (a.toNat, 12), (b.toNat, 6)])]
  | .add64 e d a b => [wordOf (pack 0x1000004 [(e.toNat, 30), (d.toNat, 18), (a.toNat, 12), (b.toNat, 6)])]
  | .sub64 e d a b => [wordOf (pack 0x1000005 [(e.toNat, 30), (d.toNat, 18), (a.toNat, 12), (b.toNat, 6)])]
  | .min e d a b => [wordOf (pack 0x1000006 [(e.toNat, 30), (d.toNat, 18), (a.toNat, 12), (b.toNat, 6)])]
  | .max e d a b => [wordOf (pack 0x1000007 [(e.toNat, 30), (d.toNat, 18), (a.toNat, 12), (b.toNat, 6)])]
  | .minu e d a b => [wordOf (pack 0x1000008 [(e.toNat, 30), (d.toNat, 18), (a.toNat, 12), (b.toNat, 6)])]
  | .maxu e d a b => [wordOf (pack 0x1000009 [(e.toNat, 30), (d.toNat, 18), (a.toNat, 12), (b.toNat, 6)])]
  | .abs e d a => [wordOf (pack 0x100000A [(e.toNat, 30), (d.toNat, 18), (a.toNat, 12)])]
  | .and e d a b => [wordOf (pack 0x100000B [(e.toNat, 30), (d.toNat, 18), (a.toNat, 12), (b.toNat, 6)])]
  | .or e d a b => [wordOf (pack 0x100000C [(e.toNat, 30), (d.toNat, 18), (a.toNat, 12), (b.toNat, 6)])]
  | .xor e d a b => [wordOf (pack 0x100000D [(e.toNat, 30), (d.toNat, 18), (a.toNat, 12), (b.toNat, 6)])]
  | .andn e d a b => [wordOf (pack 0x100000E [(e.toNat, 30), (d.toNat, 18), (a.toNat, 12), (b.toNat, 6)])]
  | .shl e d a b => [wordOf (pack 0x100000F [(e.toNat, 30), (d.toNat, 18), (a.toNat, 12), (b.toNat, 6)])]
  | .shr e d a b => [wordOf (pack 0x1000010 [(e.toNat, 30), (d.toNat, 18), (a.toNat, 12), (b.toNat, 6)])]
  | .sar e d a b => [wordOf (pack 0x1000011 [(e.toNat, 30), (d.toNat, 18), (a.toNat, 12), (b.toNat, 6)])]
  | .rotl e d a b => [wordOf (pack 0x1000012 [(e.toNat, 30), (d.toNat, 18), (a.toNat, 12), (b.toNat, 6)])]
  | .popc e d a => [wordOf (pack 0x1000013 [(e.toNat, 30), (d.toNat, 18), (a.toNat, 12)])]
  | .clz e d a => [wordOf (pack 0x1000014 [(e.toNat, 30), (d.toNat, 18), (a.toNat, 12)])]
  | .ctz e d a => [wordOf (pack 0x1000015 [(e.toNat, 30), (d.toNat, 18), (a.toNat, 12)])]
  | .brev e d a => [wordOf (pack 0x1000016 [(e.toNat, 30), (d.toNat, 18), (a.toNat, 12)])]
  | .bswap e d a => [wordOf (pack 0x1000017 [(e.toNat, 30), (d.toNat, 18), (a.toNat, 12)])]
  | .bfx e d a b => [wordOf (pack 0x1000018 [(e.toNat, 30), (d.toNat, 18), (a.toNat, 12), (b.toNat, 6)])]
  | .bfi e d a b => [wordOf (pack 0x1000019 [(e.toNat, 30), (d.toNat, 18), (a.toNat, 12), (b.toNat, 6)])]
  | .addi e d a i => [wordOf (pack 0x2000000 [(e.toNat, 30), (d.toNat, 18), (a.toNat, 12), (i.toNat, 0)])]
  | .andi e d a i => [wordOf (pack 0x3000000 [(e.toNat, 30), (d.toNat, 18), (a.toNat, 12), (i.toNat, 0)])]
  | .ori e d a i => [wordOf (pack 0x4000000 [(e.toNat, 30), (d.toNat, 18), (a.toNat, 12), (i.toNat, 0)])]
  | .xori e d a i => [wordOf (pack 0x5000000 [(e.toNat, 30), (d.toNat, 18), (a.toNat, 12), (i.toNat, 0)])]
  | .shli e d a n => [wordOf (pack 0x6000000 [(e.toNat, 30), (d.toNat, 18), (a.toNat, 12), (n.toNat, 0)])]
  | .shri e d a n => [wordOf (pack 0x6000400 [(e.toNat, 30), (d.toNat, 18), (a.toNat, 12), (n.toNat, 0)])]
  | .sari e d a n => [wordOf (pack 0x6000800 [(e.toNat, 30), (d.toNat, 18), (a.toNat, 12), (n.toNat, 0)])]
  | .movi e d i => [wordOf (pack 0x7000000 [(e.toNat, 30), (d.toNat, 18), (i.toNat, 0)])]
  | .movhi e d i => [wordOf (pack 0x7020000 [(e.toNat, 30), (d.toNat, 18), (i.toNat, 0)])]
  | .mullo e d a b => [wordOf (pack 0x8000000 [(e.toNat, 30), (d.toNat, 18), (a.toNat, 12), (b.toNat, 6)])]
  | .mulhi e d a b => [wordOf (pack 0x8000001 [(e.toNat, 30), (d.toNat, 18), (a.toNat, 12), (b.toNat, 6)])]
  | .mulhiu e d a b => [wordOf (pack 0x8000002 [(e.toNat, 30), (d.toNat, 18), (a.toNat, 12), (b.toNat, 6)])]
  | .mad e d a b => [wordOf (pack 0x8000003 [(e.toNat, 30), (d.toNat, 18), (a.toNat, 12), (b.toNat, 6)])]
  | .div e d a b => [wordOf (pack 0x8000004 [(e.toNat, 30), (d.toNat, 18), (a.toNat, 12), (b.toNat, 6)])]
  | .divu e d a b => [wordOf (pack 0x8000005 [(e.toNat, 30), (d.toNat, 18), (a.toNat, 12), (b.toNat, 6)])]
  | .rem e d a b => [wordOf (pack 0x8000006 [(e.toNat, 30), (d.toNat, 18), (a.toNat, 12), (b.toNat, 6)])]
  | .remu e d a b => [wordOf (pack 0x8000007 [(e.toNat, 30), (d.toNat, 18), (a.toNat, 12), (b.toNat, 6)])]
  | .dot4s e d a b => [wordOf (pack 0x8000008 [(e.toNat, 30), (d.toNat, 18), (a.toNat, 12), (b.toNat, 6)])]
  | .dot4u e d a b => [wordOf (pack 0x8000009 [(e.toNat, 30), (d.toNat, 18), (a.toNat, 12), (b.toNat, 6)])]
  | .dot2s e d a b => [wordOf (pack 0x800000A [(e.toNat, 30), (d.toNat, 18), (a.toNat, 12), (b.toNat, 6)])]
  | .cmp e p c a b k => [wordOf (pack 0xC000000 [(e.toNat, 30), (p.toNat, 20), (c.toNat, 18), (a.toNat, 12), (b.toNat, 6), (k.toNat, 0)])]
  | .cmpi e p c a k i => [wordOf (pack 0xD000000 [(e.toNat, 30), (p.toNat, 20), (c.toNat, 18), (a.toNat, 12), (k.toNat, 8), (i.toNat, 0)])]
  | .plop e d a b t => [wordOf (pack 0xE000000 [(e.toNat, 30), (d.toNat, 20), (a.toNat, 12), (b.toNat, 8), (t.toNat, 0)])]
  | .pmovToV e d => [wordOf (pack 0xF000000 [(e.toNat, 30), (d.toNat, 18)])]
  | .pmovToP e a => [wordOf (pack 0xF000001 [(e.toNat, 30), (a.toNat, 12)])]
  | .fadd e d a b => [wordOf (pack 0x10000000 [(e.toNat, 30), (d.toNat, 18), (a.toNat, 12), (b.toNat, 6)])]
  | .fsub e d a b => [wordOf (pack 0x10000001 [(e.toNat, 30), (d.toNat, 18), (a.toNat, 12), (b.toNat, 6)])]
  | .fmul e d a b => [wordOf (pack 0x10000002 [(e.toNat, 30), (d.toNat, 18), (a.toNat, 12), (b.toNat, 6)])]
  | .ffma e d a b => [wordOf (pack 0x10000003 [(e.toNat, 30), (d.toNat, 18), (a.toNat, 12), (b.toNat, 6)])]
  | .fmin e d a b => [wordOf (pack 0x10000004 [(e.toNat, 30), (d.toNat, 18), (a.toNat, 12), (b.toNat, 6)])]
  | .fmax e d a b => [wordOf (pack 0x10000005 [(e.toNat, 30), (d.toNat, 18), (a.toNat, 12), (b.toNat, 6)])]
  | .fclass e d a => [wordOf (pack 0x10000006 [(e.toNat, 30), (d.toNat, 18), (a.toNat, 12)])]
  | .frnd e d a => [wordOf (pack 0x10000007 [(e.toNat, 30), (d.toNat, 18), (a.toNat, 12)])]
  | .fcmp e p c a b k => [wordOf (pack 0x11000000 [(e.toNat, 30), (p.toNat, 20), (c.toNat, 18), (a.toNat, 12), (b.toNat, 6), (k.toNat, 0)])]
  | .pkadd e d a b => [wordOf (pack 0x12000000 [(e.toNat, 30), (d.toNat, 18), (a.toNat, 12), (b.toNat, 6)])]
  | .pkmul e d a b => [wordOf (pack 0x12000001 [(e.toNat, 30), (d.toNat, 18), (a.toNat, 12), (b.toNat, 6)])]
  | .pkfma e d a b => [wordOf (pack 0x12000002 [(e.toNat, 30), (d.toNat, 18), (a.toNat, 12), (b.toNat, 6)])]
  | .pkaddBf e d a b => [wordOf (pack 0x12000008 [(e.toNat, 30), (d.toNat, 18), (a.toNat, 12), (b.toNat, 6)])]
  | .pkmulBf e d a b => [wordOf (pack 0x12000009 [(e.toNat, 30), (d.toNat, 18), (a.toNat, 12), (b.toNat, 6)])]
  | .pkfmaBf e d a b => [wordOf (pack 0x1200000A [(e.toNat, 30), (d.toNat, 18), (a.toNat, 12), (b.toNat, 6)])]
  | .dadd e d a b => [wordOf (pack 0x18000000 [(e.toNat, 30), (d.toNat, 18), (a.toNat, 12), (b.toNat, 6)])]
  | .dsub e d a b => [wordOf (pack 0x18000001 [(e.toNat, 30), (d.toNat, 18), (a.toNat, 12), (b.toNat, 6)])]
  | .dmul e d a b => [wordOf (pack 0x18000002 [(e.toNat, 30), (d.toNat, 18), (a.toNat, 12), (b.toNat, 6)])]
  | .dfma e d a b => [wordOf (pack 0x18000003 [(e.toNat, 30), (d.toNat, 18), (a.toNat, 12), (b.toNat, 6)])]
  | .dmin e d a b => [wordOf (pack 0x18000004 [(e.toNat, 30), (d.toNat, 18), (a.toNat, 12), (b.toNat, 6)])]
  | .dmax e d a b => [wordOf (pack 0x18000005 [(e.toNat, 30), (d.toNat, 18), (a.toNat, 12), (b.toNat, 6)])]
  | .dcmp e p c a b k => [wordOf (pack 0x19000000 [(e.toNat, 30), (p.toNat, 20), (c.toNat, 18), (a.toNat, 12), (b.toNat, 6), (k.toNat, 0)])]
  | .frcp e d a => [wordOf (pack 0x1C000000 [(e.toNat, 30), (d.toNat, 18), (a.toNat, 12)])]
  | .frsq e d a => [wordOf (pack 0x1C000001 [(e.toNat, 30), (d.toNat, 18), (a.toNat, 12)])]
  | .fsqrt e d a => [wordOf (pack 0x1C000002 [(e.toNat, 30), (d.toNat, 18), (a.toNat, 12)])]
  | .fdiv e d a b => [wordOf (pack 0x1C000003 [(e.toNat, 30), (d.toNat, 18), (a.toNat, 12), (b.toNat, 6)])]
  | .fexp2 e d a => [wordOf (pack 0x1C000004 [(e.toNat, 30), (d.toNat, 18), (a.toNat, 12)])]
  | .flog2 e d a => [wordOf (pack 0x1C000005 [(e.toNat, 30), (d.toNat, 18), (a.toNat, 12)])]
  | .fsinpi e d a => [wordOf (pack 0x1C000006 [(e.toNat, 30), (d.toNat, 18), (a.toNat, 12)])]
  | .fcospi e d a => [wordOf (pack 0x1C000007 [(e.toNat, 30), (d.toNat, 18), (a.toNat, 12)])]
  | .ftanh e d a => [wordOf (pack 0x1C000008 [(e.toNat, 30), (d.toNat, 18), (a.toNat, 12)])]
  | .drcp e d a => [wordOf (pack 0x1C000010 [(e.toNat, 30), (d.toNat, 18), (a.toNat, 12)])]
  | .drsq e d a => [wordOf (pack 0x1C000011 [(e.toNat, 30), (d.toNat, 18), (a.toNat, 12)])]
  | .ddiv e d a b => [wordOf (pack 0x1C000012 [(e.toNat, 30), (d.toNat, 18), (a.toNat, 12), (b.toNat, 6)])]
  | .cvt e d a s t => [wordOf (pack 0x1D000000 [(e.toNat, 30), (d.toNat, 18), (a.toNat, 12), (s.toNat, 6), (t.toNat, 0)])]
  | .qntTf8 e d a b => [wordOf (pack 0x1E000000 [(e.toNat, 30), (d.toNat, 18), (a.toNat, 12), (b.toNat, 6)])]
  | .qntTf6 e d a b => [wordOf (pack 0x1E000001 [(e.toNat, 30), (d.toNat, 18), (a.toNat, 12), (b.toNat, 6)])]
  | .dqntTf8 e d a b => [wordOf (pack 0x1E000002 [(e.toNat, 30), (d.toNat, 18), (a.toNat, 12), (b.toNat, 6)])]
  | .dqntTf6 e d a b => [wordOf (pack 0x1E000003 [(e.toNat, 30), (d.toNat, 18), (a.toNat, 12), (b.toNat, 6)])]
  | .ctbl e d a b => [wordOf (pack 0x1F000000 [(e.toNat, 30), (d.toNat, 18), (a.toNat, 12), (b.toNat, 6)])]
  | .ld e d a b m z s => [wordOf (pack 0x20000000 [(e.toNat, 30), (d.toNat, 18), (a.toNat, 12), (b.toNat, 7), (m.toNat, 6), (z.toNat, 3), (s.toNat, 0)])]
  | .st e d a b m z s => [wordOf (pack 0x21000000 [(e.toNat, 30), (d.toNat, 18), (a.toNat, 12), (b.toNat, 7), (m.toNat, 6), (z.toNat, 3), (s.toNat, 0)])]
  | .pfetch e a b m s => [wordOf (pack 0x22000000 [(e.toNat, 30), (a.toNat, 12), (b.toNat, 7), (m.toNat, 6), (s.toNat, 0)])]
  | .mcst e d a b m z c => [wordOf (pack 0x23000010 [(e.toNat, 30), (d.toNat, 18), (a.toNat, 12), (b.toNat, 7), (m.toNat, 6), (z.toNat, 3), (c.toNat, 0)])]
  | .fence e s => [wordOf (pack 0x24000000 [(e.toNat, 30), (s.toNat, 0)])]
  | .aadd e d a b m w p => [wordOf (pack 0x28000000 [(e.toNat, 30), (d.toNat, 18), (a.toNat, 12), (b.toNat, 7), (m.toNat, 6), (w.toNat, 5), (p.toNat, 4)])]
  | .amin e d a b m w p => [wordOf (pack 0x28000001 [(e.toNat, 30), (d.toNat, 18), (a.toNat, 12), (b.toNat, 7), (m.toNat, 6), (w.toNat, 5), (p.toNat, 4)])]
  | .amax e d a b m w p => [wordOf (pack 0x28000002 [(e.toNat, 30), (d.toNat, 18), (a.toNat, 12), (b.toNat, 7), (m.toNat, 6), (w.toNat, 5), (p.toNat, 4)])]
  | .aand e d a b m w p => [wordOf (pack 0x28000003 [(e.toNat, 30), (d.toNat, 18), (a.toNat, 12), (b.toNat, 7), (m.toNat, 6), (w.toNat, 5), (p.toNat, 4)])]
  | .aor e d a b m w p => [wordOf (pack 0x28000004 [(e.toNat, 30), (d.toNat, 18), (a.toNat, 12), (b.toNat, 7), (m.toNat, 6), (w.toNat, 5), (p.toNat, 4)])]
  | .axor e d a b m w p => [wordOf (pack 0x28000005 [(e.toNat, 30), (d.toNat, 18), (a.toNat, 12), (b.toNat, 7), (m.toNat, 6), (w.toNat, 5), (p.toNat, 4)])]
  | .axch e d a b m w p => [wordOf (pack 0x28000006 [(e.toNat, 30), (d.toNat, 18), (a.toNat, 12), (b.toNat, 7), (m.toNat, 6), (w.toNat, 5), (p.toNat, 4)])]
  | .acas e d a b m w p => [wordOf (pack 0x28000007 [(e.toNat, 30), (d.toNat, 18), (a.toNat, 12), (b.toNat, 7), (m.toNat, 6), (w.toNat, 5), (p.toNat, 4)])]
  | .afadd e d a b m w p => [wordOf (pack 0x28000008 [(e.toNat, 30), (d.toNat, 18), (a.toNat, 12), (b.toNat, 7), (m.toNat, 6), (w.toNat, 5), (p.toNat, 4)])]
  | .vote e d a m v => [wordOf (pack 0x2C000000 [(e.toNat, 30), (d.toNat, 18), (a.toNat, 12), (m.toNat, 7), (v.toNat, 0)])]
  | .redux e d a m v => [wordOf (pack 0x2C000010 [(e.toNat, 30), (d.toNat, 18), (a.toNat, 12), (m.toNat, 7), (v.toNat, 0)])]
  | .scanInc e d a m v => [wordOf (pack 0x2C000020 [(e.toNat, 30), (d.toNat, 18), (a.toNat, 12), (m.toNat, 7), (v.toNat, 0)])]
  | .scanExc e d a m v => [wordOf (pack 0x2C000030 [(e.toNat, 30), (d.toNat, 18), (a.toNat, 12), (m.toNat, 7), (v.toNat, 0)])]
  | .had e d a m => [wordOf (pack 0x2C000040 [(e.toNat, 30), (d.toNat, 18), (a.toNat, 12), (m.toNat, 7)])]
  | .shflIdx e d a m s => [wordOf (pack 0x2D000000 [(e.toNat, 30), (d.toNat, 18), (a.toNat, 12), (m.toNat, 7), (s.toNat, 0)])]
  | .shflSidx e d a m s => [wordOf (pack 0x2D000020 [(e.toNat, 30), (d.toNat, 18), (a.toNat, 12), (m.toNat, 7), (s.toNat, 0)])]
  | .shflXor e d a m s => [wordOf (pack 0x2D000040 [(e.toNat, 30), (d.toNat, 18), (a.toNat, 12), (m.toNat, 7), (s.toNat, 0)])]
  | .shflVidx e d a m => [wordOf (pack 0x2D000060 [(e.toNat, 30), (d.toNat, 18), (a.toNat, 12), (m.toNat, 7)])]
  | .bra p i o => [wordOf (pack 0x70000000 [(p.toNat, 20), (i.toNat, 19), (o.toNat, 0)])]
  | .jmpi a => [wordOf (pack 0x71000000 [(a.toNat, 12)])]
  | .calli d a => [wordOf (pack 0x71000001 [(d.toNat, 18), (a.toNat, 12)])]
  | .ret a => [wordOf (pack 0x71000002 [(a.toNat, 12)])]
  | .jtab n a b => [wordOf (pack 0x72000000 [(n.toNat, 18), (a.toNat, 12), (b.toNat, 7)])]
  | .call d o => [wordOf (pack 0x73000000 [(d.toNat, 18), (o.toNat, 0)])]
  | .mov e d a => [wordOf (pack 0x34000000 [(e.toNat, 30), (d.toNat, 18), (a.toNat, 12)])]
  | .sel e d a b p => [wordOf (pack 0x34000010 [(e.toNat, 30), (d.toNat, 18), (a.toNat, 12), (b.toNat, 6), (p.toNat, 0)])]
  | .s2vLo e d a => [wordOf (pack 0x35000000 [(e.toNat, 30), (d.toNat, 18), (a.toNat, 12)])]
  | .s2vHi e d a => [wordOf (pack 0x35000001 [(e.toNat, 30), (d.toNat, 18), (a.toNat, 12)])]
  | .v2sLo e d a => [wordOf (pack 0x35000002 [(e.toNat, 30), (d.toNat, 18), (a.toNat, 12)])]
  | .v2sHi e d a => [wordOf (pack 0x35000003 [(e.toNat, 30), (d.toNat, 18), (a.toNat, 12)])]
  | .v2sPair e d a => [wordOf (pack 0x35000004 [(e.toNat, 30), (d.toNat, 18), (a.toNat, 12)])]
  | .pfx m z r c s => [wordOf (pack 0x3F000000 [(m.toNat, 20), (z.toNat, 19), (r.toNat, 16), (c.toNat, 10), (s.toNat, 9)])]
  | .uadd e d a b => [wordOf (pack 0x81000000 [(e.toNat, 30), (d.toNat, 19), (a.toNat, 14), (b.toNat, 9)])]
  | .usub e d a b => [wordOf (pack 0x81000001 [(e.toNat, 30), (d.toNat, 19), (a.toNat, 14), (b.toNat, 9)])]
  | .umul e d a b => [wordOf (pack 0x81000002 [(e.toNat, 30), (d.toNat, 19), (a.toNat, 14), (b.toNat, 9)])]
  | .uand e d a b => [wordOf (pack 0x81000003 [(e.toNat, 30), (d.toNat, 19), (a.toNat, 14), (b.toNat, 9)])]
  | .uor e d a b => [wordOf (pack 0x81000004 [(e.toNat, 30), (d.toNat, 19), (a.toNat, 14), (b.toNat, 9)])]
  | .uxor e d a b => [wordOf (pack 0x81000005 [(e.toNat, 30), (d.toNat, 19), (a.toNat, 14), (b.toNat, 9)])]
  | .ushl e d a b => [wordOf (pack 0x81000006 [(e.toNat, 30), (d.toNat, 19), (a.toNat, 14), (b.toNat, 9)])]
  | .ushr e d a b => [wordOf (pack 0x81000007 [(e.toNat, 30), (d.toNat, 19), (a.toNat, 14), (b.toNat, 9)])]
  | .usar e d a b => [wordOf (pack 0x81000008 [(e.toNat, 30), (d.toNat, 19), (a.toNat, 14), (b.toNat, 9)])]
  | .umov e d a => [wordOf (pack 0x81000009 [(e.toNat, 30), (d.toNat, 19), (a.toNat, 14)])]
  | .uaddi e d a i => [wordOf (pack 0x82000000 [(e.toNat, 30), (d.toNat, 19), (a.toNat, 14), (i.toNat, 0)])]
  | .ubra a c o => [wordOf (pack 0xC8000000 [(a.toNat, 19), (c.toNat, 16), (o.toNat, 0)])]
  | .ucall a o => [wordOf (pack 0xC9000000 [(a.toNat, 19), (o.toNat, 0)])]
  | .uret a => [wordOf (pack 0xCA000000 [(a.toNat, 19)])]
  | .reform => [wordOf (pack 0xCC000000 [])]
  | .exit => [wordOf (pack 0xCD000000 [])]
  | .waitAny p a n s => [wordOf (pack 0xCE000000 [(p.toNat, 20), (a.toNat, 15), (n.toNat, 13), (s.toNat, 7)])]
  | .waitAll p a n s => [wordOf (pack 0xCE001000 [(p.toNat, 20), (a.toNat, 15), (n.toNat, 13), (s.toNat, 7)])]
  | .nop e => [wordOf (pack 0x8F000000 [(e.toNat, 30)])]
  | .trap e c => [wordOf (pack 0x8F100000 [(e.toNat, 30), (c.toNat, 0)])]
  | .bkpt e c => [wordOf (pack 0x8F200000 [(e.toNat, 30), (c.toNat, 0)])]
  | .vres e r a b => [wordOf (pack 0x90000000 [(e.toNat, 30), (r.toNat, 20), (a.toNat, 14), (b.toNat, 9)])]
  | .vrel e r => [wordOf (pack 0x90000001 [(e.toNat, 30), (r.toNat, 20)])]
  | .tfetch e r b => [wordOf (pack 0x90000002 [(e.toNat, 30), (r.toNat, 20), (b.toNat, 9)])]
  | .mma e q d a b z => [wordOf (pack 0x91000000 [(e.toNat, 30), (q.toNat, 20), (d.toNat, 17), (a.toNat, 13), (b.toNat, 9), (z.toNat, 0)])]
  | .qmma e q d a b z => [wordOf (pack 0x92000000 [(e.toNat, 30), (q.toNat, 20), (d.toNat, 17), (a.toNat, 13), (b.toNat, 9), (z.toNat, 0)])]
  | .mpoly e q d x t g p => [wordOf (pack 0x93000000 [(e.toNat, 30), (q.toNat, 20), (d.toNat, 17), (x.toNat, 14), (t.toNat, 11), (g.toNat, 8), (p.toNat, 7)])]
  | .miter e q x a b g p c => [wordOf (pack 0x94000000 [(e.toNat, 30), (q.toNat, 20), (x.toNat, 17), (a.toNat, 14), (b.toNat, 11), (g.toNat, 9), (p.toNat, 8), (c.toNat, 0)])]
  | .azero e d => [wordOf (pack 0x95000000 [(e.toNat, 30), (d.toNat, 21)])]
  | .aload e d a b => [wordOf (pack 0x95000001 [(e.toNat, 30), (d.toNat, 21), (a.toNat, 13), (b.toNat, 8)])]
  | .astore e d a b => [wordOf (pack 0x95000002 [(e.toNat, 30), (d.toNat, 21), (a.toNat, 13), (b.toNat, 8)])]
  | .aread e d a b => [wordOf (pack 0x95000003 [(e.toNat, 30), (d.toNat, 21), (a.toNat, 13), (b.toNat, 8)])]
  | .awrite e d a b => [wordOf (pack 0x95000004 [(e.toNat, 30), (d.toNat, 21), (a.toNat, 13), (b.toNat, 8)])]
  | .atrn e d b => [wordOf (pack 0x95000005 [(e.toNat, 30), (d.toNat, 21), (b.toNat, 18)])]
  | .acoef e c a => [wordOf (pack 0x95000006 [(e.toNat, 30), (c.toNat, 18), (a.toNat, 13)])]
  | .astat e d s t => [wordOf (pack 0x95000007 [(e.toNat, 30), (d.toNat, 21), (s.toNat, 18), (t.toNat, 8)])]
  | .conv e q a b => [wordOf (pack 0x98000000 [(e.toNat, 30), (q.toNat, 19), (a.toNat, 14), (b.toNat, 9)])]
  | .qread e d q s => [wordOf (pack 0x98000001 [(e.toNat, 30), (d.toNat, 19), (q.toNat, 14), (s.toNat, 9)])]
  | .bar e d a => [wordOf (pack 0x99000000 [(e.toNat, 30), (d.toNat, 19), (a.toNat, 14)])]
  | .binit e a b => [wordOf (pack 0x99000001 [(e.toNat, 30), (a.toNat, 14), (b.toNat, 9)])]
  | .gbar e d a => [wordOf (pack 0x9A000000 [(e.toNat, 30), (d.toNat, 19), (a.toNat, 14)])]
  | .copy e d a b => [wordOf (pack 0x9C000000 [(e.toNat, 30), (d.toNat, 19), (a.toNat, 14), (b.toNat, 9)])]
  | .gather e d a b => [wordOf (pack 0x9C000001 [(e.toNat, 30), (d.toNat, 19), (a.toNat, 14), (b.toNat, 9)])]
  | .scatter e d a b => [wordOf (pack 0x9C000002 [(e.toNat, 30), (d.toNat, 19), (a.toNat, 14), (b.toNat, 9)])]
  | .publish e a b => [wordOf (pack 0x9D000000 [(e.toNat, 30), (a.toNat, 14), (b.toNat, 9)])]
  | .coll e d a b => [wordOf (pack 0x9E000000 [(e.toNat, 30), (d.toNat, 19), (a.toNat, 14), (b.toNat, 9)])]
  | .launch e d a => [wordOf (pack 0xA0000000 [(e.toNat, 30), (d.toNat, 19), (a.toNat, 14)])]
  | .gnode e d a => [wordOf (pack 0xA0000001 [(e.toNat, 30), (d.toNat, 19), (a.toNat, 14)])]
  | .gdep e a b => [wordOf (pack 0xA0000002 [(e.toNat, 30), (a.toNat, 14), (b.toNat, 9)])]
  | .send e d a b => [wordOf (pack 0xA1000000 [(e.toNat, 30), (d.toNat, 19), (a.toNat, 14), (b.toNat, 9)])]
  | .recv e d a b => [wordOf (pack 0xA1000001 [(e.toNat, 30), (d.toNat, 19), (a.toNat, 14), (b.toNat, 9)])]
  | .rfcal e d a => [wordOf (pack 0xA4000000 [(e.toNat, 30), (d.toNat, 19), (a.toNat, 14)])]
  | .snap e d a b => [wordOf (pack 0xA5000000 [(e.toNat, 30), (d.toNat, 19), (a.toNat, 14), (b.toNat, 9)])]
  | .csrr e c s => [wordOf (pack 0xA8000000 [(e.toNat, 30), (c.toNat, 12), (s.toNat, 7)])]
  | .csrw e c s => [wordOf (pack 0xA8000001 [(e.toNat, 30), (c.toNat, 12), (s.toNat, 7)])]
  | .csrs e c s => [wordOf (pack 0xA8000002 [(e.toNat, 30), (c.toNat, 12), (s.toNat, 7)])]
  | .csrc e c s => [wordOf (pack 0xA8000003 [(e.toNat, 30), (c.toNat, 12), (s.toNat, 7)])]
  | .rett => [wordOf (pack 0xE8000004 [])]
  | .rdtime e s => [wordOf (pack 0xA8000005 [(e.toNat, 30), (s.toNat, 7)])]
  | .ctxsave e s => [wordOf (pack 0xA8000006 [(e.toNat, 30), (s.toNat, 7)])]
  | .ctxload e s => [wordOf (pack 0xA8000007 [(e.toNat, 30), (s.toNat, 7)])]
  | .movl e d lit => [wordOf (pack 0xBF000000 [(e.toNat, 30), (d.toNat, 19)]), lit]
  | .movlHi e d lit => [wordOf (pack 0xBF040000 [(e.toNat, 30), (d.toNat, 19)]), lit]
  | .wingageWrite _ => []
  | .frmWrite _ => []
  | .tcauseClear _ => []
  | .tvecWrite _ => []
  | .haltcast _ => []
  | .rdvtoWrite _ => []
  | .tsliceWrite _ => []
  | .curatorBaseWrite _ _ => []
  | .snapresWrite _ => []
  | .csrPlainWrite _ _ => []
  | .moduleReset _ _ => []
  | .slotAged _ _ => []
  | .chorusDraw _ _ => []
  | .laneGrant _ _ => []
  | .sceneFetch _ _ => []
  | .headerWaitMet _ _ => []
  | .translationWalk _ _ => []
  | .loadComplete _ _ => []
  | .waitEvaluate _ => []
  | .waitTimeout _ => []
  | .causeDelivery _ => []
  | .rdvTimeout _ => []
  | .matrixOpStart _ => []
  | .matrixOpComplete _ => []
  | .accOpComplete _ => []
  | .slewStep _ => []
  | .fenceComplete _ => []
  | .engineSlotFree _ => []
  | .engineOpComplete _ => []
  | .publishTake _ => []
  | .castEnd _ => []
  | .copyNodeStart _ => []
  | .boxOfficePass _ => []
  | .blockerTimeout _ => []
  | .coreGate _ => []
  | .coreWakeComplete _ => []
  | .powerInterval _ => []
  | .refreshWindowStart _ => []
  | .refreshWindowEnd _ => []
  | .ptsAdvance _ => []
  | .sliceExpiry _ => []
  | .sliceDecision _ => []
  | .haltRequest _ => []
  | .hostCxlMemAccess _ _ _ _ => []
  | .packetTagDrop _ _ => []
  | .regionTestFail _ => []
  | .coreComputeFail _ => []
  | .snapshotComplete _ => []
  | .fabricFlitReceive _ _ => []
  | .fabricPortDown _ => []
  | .stubLaunch _ _ => []
  | .stubGnode _ _ => []
  | .stubGdep _ _ _ => []
  | .createGallery _ _ _ _ _ _ => []
  | .removeGallery _ _ _ _ _ _ => []
  | .growGallery _ _ _ _ _ _ => []
  | .shrinkGallery _ _ _ _ _ _ => []
  | .migratePosition _ _ _ _ _ _ => []
  | .compactGallery _ _ _ _ _ _ => []
  | .retirePosition _ _ _ _ _ _ => []
  | .setCommunicator _ _ _ _ _ _ => []
  | .haltCast _ _ _ _ _ _ => []
  | .readBack _ _ _ _ _ _ => []
  | .readLog _ _ _ _ _ _ => []
  | .stageFirmware _ _ _ _ _ _ => []
  | .identify _ _ _ _ _ _ => []
  | .spdmGetMeasurements _ _ => []
  | .tdispLock _ => []
  | .groupKeyDelivery _ _ _ => []
  | .snapshotStreamPassesLine _ _ => []
  | .managementRequestMalformed _ => []
  | .stubOpMalformed _ _ _ _ => []
  | .spdmSecuredSession _ => []
  | .tdispRunRequest _ => []
  | .ideKeyManagement _ _ _ => []
  | .fabricBringUp _ _ => []

/-- The bytes of words, in storage order (R22). -/
def wordBytes : List Word → List Byte
  | [] => []
  | w :: t => leBytes 4 w.toNat ++ wordBytes t

/-- Some word encodes the instruction. -/
def Instr.isWord (i : Instr) : Bool := !(encode i).isEmpty

/-- Bytes that one instruction takes: 8 for MOVL, else 4 (R22, R35). -/
def Instr.size : Instr → Nat
  | .movl _ _ _ | .movlHi _ _ _ => 8
  | _ => 4

/-- The instruction the decoder reads from bits numbered as the opcode table numbers them, every bit above nbits
zero, up to the eight bytes of the longest instruction. -/
def decodeTableWord (nbits w : Nat) : Option Instr :=
  match decodeBytes (leBytes 8 (w % 2 ^ nbits)) with
  | .ok (i, _) => some i
  | .error _ => none

end Sys2Proof
end

