-- ==== Sys2Proof/Machine/State.lean ====
section
/-! DEFINITION. The state of the module: everything the specification gives it, as plain data (03_thread_execution.md
R58; 09_core.md; 11_cluster_matrix.md to 22_fabric_host.md; INVENTORY.md lists each piece with its rule). -/
namespace Sys2Proof.Machine

/-- Why the machine stops. -/
inductive Fault where
  /-- A physical address that no memory of the gallery holds (R377), or one reached for a cast whose gallery does not
  exist. Raised by every access through Ops.physical. Safe: the machine stops where the device has nothing to reach. -/
  | noSuchAddress
  deriving DecidableEq, Repr

/-- Why a step has no meaning. -/
inductive Refusal where
  /-- The instruction of this mnemonic has no meaning in the model yet. Raised by Dispatch alone. Safe: nothing is
  claimed of it. -/
  | notModelled (mnemonic : String)
  /-- A word or a thread's own event is executed where no resident thread is in focus: no agent of the machine does
  that. Raised by the entry of every word (Ops.issue). Safe: no such step happens on the device. -/
  | noThread
  deriving DecidableEq, Repr

/-- A place in storage (R174, R293): gallery DRAM, a gallery's weight store, a cast's scratchpad, host memory, pool
memory. -/
inductive Loc where
  | dram (g a : Nat)
  | weights (g a : Nat)
  | scratch (ck a : Nat)
  | host (a : Nat)
  | pool (a : Nat)
  deriving DecidableEq, Repr

/-- The key of an access (R298): its timestamp, its agent's name, and the agent's issue sequence, from 1; 0 throughout is
before every access. -/
structure Key where
  t : Nat
  a : Nat
  s : Nat
  deriving DecidableEq, Repr

/-- Where an engine write goes (R308, R320): to a place, or to the understudy of a frame pair at a base, of pages of 2^bits
bytes, at an offset. -/
inductive Dest where
  | plain (l : Loc)
  | understudy (g base bits off : Nat)
  deriving DecidableEq, Repr

/-- The privilege levels that threads run at (R4). -/
inductive Priv where
  | program
  | supervisor
  deriving DecidableEq, Repr

/-- The run states (R62). -/
inductive Run where
  | filed
  | queued
  | member
  | waiting
  | exited
  deriving DecidableEq, Repr

/-- The causes of a trap (R190), in the order of their bits. -/
inductive Cause where
  | illegal | priv | budget | hazard | page | align | target | bound | range | poison | rdv | mismatch | diverge
  | resv | engine | name | trap | bkpt | hwbp | watch | step | halt | slice
  deriving DecidableEq, Repr

/-- The fields of a prefix that waits for its word (R31). -/
structure Pfx where
  /-- Predicate that masks the word; 15 masks no thread. -/
  mask : BitVec 4
  /-- A masked-off thread's destination is zeroed. -/
  zero : Bool
  /-- Rounding mode; 0 is dynamic. -/
  rnd : BitVec 3
  /-- Third source. -/
  vc : BitVec 6
  /-- Saturate. -/
  sat : Bool
  deriving DecidableEq, Repr

/-- The operation key of a signature: the word with E cleared and the values of the s-registers it names (R225). -/
structure OpKey where
  word : Word
  vals : List DWord
  deriving DecidableEq, Repr

/-- Why a thread executes nothing although it is a member (R215, R216, R266, R181, R322, R333, R369). Where the thread goes
on without executing its word again, the word's E bit and what it still needs are kept. -/
inductive Held where
  /-- At a rendezvous, with its member mask and the tick of its arrival. -/
  | rdv (mask : BitVec 32) (since : Nat)
  /-- At a signing of a convergence register, with its key, its E bit and the tick of its signature. -/
  | sign (q : Nat) (key : OpKey) (e : Bool) (since : Nat)
  /-- At BAR, arrived: destination register, record descriptor, E bit. -/
  | bar (d : Nat) (desc : DWord) (e : Bool)
  /-- At GBAR, arrived: destination register, barrier number, phase read, E bit. -/
  | gbar (d num : Nat) (phase : Word) (e : Bool)
  /-- At an ASTORE to unframed pages, until the numbered operation has made its stores. -/
  | astore (op : Nat) (e : Bool)
  /-- At FENCE, until the numbered operations have completed. -/
  | fence (ops : List Nat) (k : BitVec 3) (e : Bool)
  /-- At an engine instruction, for a queue slot; the word. -/
  | slot (word : Word)
  /-- At PUBLISH, for its own engine writes; the word. -/
  | publish (word : Word)
  /-- At CTXSAVE, until its cast is stopped; the word. -/
  | ctxsave (word : Word)
  /-- At a store to a frozen page while the snapshot reserve is full (R395). -/
  | snapshot
  /-- At an MCST that has made some of its stores: the addresses of those that are left, bytes of each, their value (R180,
  R307). -/
  | mcst (rest : List DWord) (n x : Nat)
  deriving DecidableEq, Repr

/-- The operands of a WAIT under way (R87). -/
structure WaitOn where
  pd : Nat
  sa : Nat
  n : Nat
  all : Bool
  st : Nat
  /-- The cues that its conditions name, as the latest evaluation saw them; none before the first (R89). -/
  cues : Option (List Nat)
  deriving DecidableEq, Repr

/-- A load of host or pool memory that later accesses of its thread may overtake (R316): the number of the operation, the
place, its bytes, the form and the key of the load, the host writes before its issue, and once a later access of the thread
bounds it, those that it may have after it. -/
structure LateLoad where
  op : Nat
  place : Loc
  size : Nat
  form : BitVec 3
  key : Key
  since : Nat
  bound : Option Nat
  deriving DecidableEq, Repr

/-- An operation that a thread issued and that has not completed for it (R77, R80). -/
structure Outst where
  /-- Number of the operation. -/
  op : Nat
  /-- Cue that counts it; 15 for none. -/
  cue : Nat
  /-- Destination registers, numbered as R190 numbers them. -/
  regs : List Nat
  /-- What the registers will receive, once known. -/
  vals : List DWord
  /-- The values are known and may be written. -/
  ready : Bool
  /-- Calendar key of the store that serves it, whose refresh windows it waits for (R336), and the address that it names. -/
  store : Option Nat
  addr : DWord
  /-- The key of an atomic, at which what it wrote was written. -/
  wrote : Option Key
  deriving DecidableEq, Repr

/-- The identity registers (R61, R213). -/
structure Ident where
  tid : BitVec 11
  ntid : BitVec 12
  castid : BitVec 2
  seat : BitVec 5
  ensid : BitVec 6
  compid : BitVec 6
  deriving DecidableEq, Repr

/-- Trap status, TSTAT (R195). -/
structure TStat where
  fkind : BitVec 8
  pendHalt : Bool
  pendSlice : Bool
  acc : BitVec 2
  dist : BitVec 5
  skip : Bool
  nest : Bool
  /-- Privilege before entry. -/
  ppriv : Priv
  deriving DecidableEq, Repr

/-- A thread (R58). -/
structure Thread where
  /-- Address of the next word, or of the next scene's header. -/
  pc : DWord
  /-- Lane registers v0 to v63; an unlisted register holds 0. -/
  v : Tab Word
  /-- Uniform registers s0 to s31; an unlisted register holds 0. -/
  u : Tab DWord
  /-- Predicates p0 to p14; p15 is wired true. -/
  p : BitVec 15
  /-- Cues k0 to k11; an unlisted cue is 0. -/
  k : Tab Nat
  priv : Priv
  run : Run
  fflags : BitVec 5
  frm : BitVec 3
  lodc : BitVec 32
  ident : Ident
  pidx : DWord
  tcause : BitVec 23
  tepc : DWord
  tval : DWord
  tstat : TStat
  tscratch : DWord
  /-- TDBG.STEP. -/
  step : Bool
  /-- Address of the header of the scene the thread is in or resumes under. -/
  hdr : DWord
  /-- The thread has started that scene; else pc, where it differs from hdr, is where it resumes. -/
  inScene : Bool
  /-- Cues bound by the header; 15 for none. -/
  cueA : Nat
  cueB : Nat
  /-- A prefix read and waiting for its word. -/
  pfx : Option Pfx
  outst : List Outst
  held : Option Held
  /-- HALT and SLICE due at program privilege (R194). -/
  haltDue : Bool
  sliceDue : Bool
  /-- Owed POISON: the number of the operation that read it, which follows program order, and its TVAL (R194, R437). -/
  poison : Option (Nat × DWord)
  /-- Owed causes that an entry left out, due again after RETT (R194): 0 POISON, 1 + q DIVERGE of q, 17 + n ENGINE of
  operation n. -/
  kept : List Nat
  /-- No breakpoint or watchpoint for the next instruction (R196). -/
  suppress : Bool
  /-- Tick at which the thread was filed or queued, and the tile clock of that moment (R66, R67). -/
  age : Nat
  filedAt : Nat
  /-- The WAIT under way, and the tick at which it began or resumed (R89). -/
  waitOn : Option WaitOn
  waitSince : Nat
  /-- s-registers whose latest writer is a V2S (R75). -/
  v2s : BitVec 32
  /-- SLICE taken and not returned; HALT taken and not returned (R364). -/
  sliceIn : Bool
  haltIn : Bool
  /-- Key of the thread's latest access to each byte, and of its latest FENCE.R (R305); an unlisted byte has none. -/
  seen : Tab Key
  fenceR : Key
  /-- Host writes that came before its latest FENCE.H or satisfied WAIT, and before its latest access to each line of host
  and pool memory (R316); an unlisted line is 0. -/
  hostFrom : Nat
  hostLines : Tab Nat
  /-- Host writes that came before its latest FENCE.R (R305). -/
  repFrom : Nat
  /-- Loads of host and pool memory under way whose values may still become later ones (R316). -/
  late : List LateLoad
  /-- A grid barrier arrival that stands: its number and the phase read (R372). -/
  gbarAt : Option (Nat × Word)
  deriving DecidableEq, Repr

/-- The states of a convergence register (R222). -/
inductive QState where
  | empty
  | opened
  | issued
  | done
  deriving DecidableEq, Repr

/-- What a thread that is off every core keeps of its accesses (R304, R305, R316). -/
structure View where
  seen : Tab Key
  fenceR : Key
  hostFrom : Nat
  hostLines : Tab Nat
  repFrom : Nat
  deriving DecidableEq, Repr

/-- A convergence register (R222, R252). The signatures of a round are the threads held at a signing of it. -/
structure QReg where
  w : DWord
  m : Word
  quartet : Bool
  state : QState
  gen : BitVec 24
  /-- Key of the operation issued. -/
  key : OpKey
  /-- Threads whose cue B falls at completion, with the cue and the privilege at which they signed. -/
  signers : List (Nat × Nat × Priv)
  /-- Progress word of the operation issued or last completed. -/
  progress : DWord
  /-- A declaration that applies once the operation issued completes (R223). -/
  next : Option (DWord × Word × Bool)
  /-- Signers still owed DIVERGE, with their signing privilege, and its TVAL (R282, R437). -/
  owed : List (Nat × Priv)
  owedTval : DWord
  deriving DecidableEq, Repr

/-- A companding curve (R108, R109): its 16 entries of 64 bits and the format it fits; none fits both. -/
structure Curve where
  entries : List DWord
  /-- False TF8, true TF6. -/
  tf6 : Bool
  deriving DecidableEq, Repr

/-- A reservation record of the vitrine (R240, R244). -/
structure VRec where
  base : DWord
  sbase : DWord
  desc : DWord
  /-- The curve copied for the inverse; none is the identity. -/
  curve : Option Curve
  deriving DecidableEq, Repr

/-- A matrix-order entry of a core (R242): an issued cast-level operation or a per-thread accumulator instruction. -/
structure MatOp where
  /-- Number of the operation. -/
  op : Nat
  /-- Cast that issued it, and the thread for a per-thread instruction. -/
  ck : Nat
  tk : Option Nat
  /-- The instruction word with E cleared. -/
  word : Word
  /-- Convergence register of a cast-level operation. -/
  q : Nat
  /-- Privilege that its operand reads use, and the key at its issue. -/
  priv : Priv
  key : Key
  /-- Cue of a per-thread instruction, 15 for none. -/
  cue : Nat
  /-- Host writes before its issue (R247, R316). -/
  hosts : Nat
  /-- On the array, its operands read (R247). -/
  started : Bool
  /-- Groups of the product under way; STEP or PHASE; iterations; LASTRES and GREW (R252, R278, R283). -/
  groups : Nat
  step : Nat
  iter : Nat
  last : Word
  grew : Bool
  /-- OUTCOME of a MITER that has ended; 0 while it runs (R280). -/
  outcome : Nat
  /-- Reservations copied at issue. -/
  ra : Option VRec
  rb : Option VRec
  /-- Coefficients copied at issue; the value of an AWRITE; s[sa], s[sb] of the others. -/
  words : List DWord
  /-- Loaded elements of an ALOAD; G of a MITER. -/
  elems : List DWord
  /-- Operand bytes by space address, as read; the lines of each operand that have been read, and those of them that supply no
  data (R247, R249). -/
  bytesA : List Host.Cell
  bytesB : List Host.Cell
  gotA : List Nat
  gotB : List Nat
  deadA : List Nat
  deadB : List Nat
  /-- The next line that it reads supplies no data: its packet is dropped (R378). -/
  lost : Bool
  /-- Where the elements of an ASTORE go, in ascending address order, and whether their pages are framed. -/
  places : List Dest
  framed : Bool
  deriving DecidableEq, Repr

/-- Where a cast is (R346, R365, R370). -/
inductive Residence where
  /-- Placed on a gated core that is waking (R361). -/
  | waking (c : Nat)
  /-- On a core. -/
  | core (c : Nat)
  /-- Stopped by a quiesce on its core, its state kept there (R366). -/
  | kept (c : Nat)
  /-- Off its core, its image in the save area. -/
  | off
  /-- Off its core, offered to the box office for re-admission. -/
  | available
  | ended
  deriving DecidableEq, Repr

/-- Where the image of a cast is that its next admission restores (R365, R366, R370). -/
inductive ImageAt where
  /-- In memory, at an address. -/
  | area (a : DWord)
  /-- In the gallery's snapshot reserve. -/
  | reserve
  /-- With the curator, since a CTXLOAD accepted it. -/
  | loaded
  deriving DecidableEq, Repr

/-- Why a resident cast is being stopped (R365, R369, R391). -/
inductive Stop where
  | preempt
  | quiesce
  /-- Its company is retired (R393). -/
  | retire
  | ctxsave (tk : Nat)
  deriving DecidableEq, Repr

/-- A cast (R12, R195, R201, R217, R222, R240, R363). -/
structure Cast where
  /-- Production, global cast index and place in the launch. -/
  prod : Nat
  gidx : Nat
  gallery : Nat
  res : Residence
  ntid : Nat
  vbud : Nat
  sbud : Nat
  spsize : Nat
  tvec : DWord
  notify : Bool
  ticks : Nat
  rdvto : Nat
  bpaddr : Tab DWord
  bpctl : Tab DWord
  wpaddr : Tab DWord
  wpctl : Tab DWord
  q : Tab QReg
  vt : Tab VRec
  curves : Tab Curve
  /-- Operations signed under QMMA that this cast sequences (R262). -/
  qmmas : Nat
  /-- Filing queue, oldest first (R66). -/
  fq : List Nat
  /-- Accumulator tiles and coefficient registers that the launch grants (R241, R268). -/
  amask : BitVec 8
  cgrant : Bool
  /-- Playbill: energy, current, refresh charge (R353 to R358). -/
  energy : Nat
  current : Nat
  charge : Int
  /-- Launch priority (R68). -/
  prio : Nat
  sliceStart : Nat
  /-- Threads notified of a slice expiry and the tick of the notice (R364). -/
  notified : Option Nat
  stop : Option Stop
  /-- The image that its next admission restores; none starts it afresh (R365, R370). -/
  image : Option ImageAt
  /-- Wait accumulated in the ready queue, in ticks (R350, R367). -/
  wage : Nat
  /-- Threads not Exited, kept while the cast is off every core (R372). -/
  live : Nat
  /-- A debugger halt was asked for while it was off every core (R203, R391). -/
  haltReq : Bool
  /-- While it is off every core: what its threads keep of their accesses, by TID, and a timestamp above theirs (R304). -/
  views : Tab View
  lastT : Nat
  /-- While it is off every core: its issued operations by register, each with its GEN, as they stood when they stopped, with
  the operand lines that they had read (R239, R247). -/
  fetched : Tab (Nat × MatOp)
  /-- While it is off every core: the TVALs and keys of the engine faults that it is owed, by record (R346). -/
  owedKeys : Tab (DWord × Key)
  deriving DecidableEq, Repr

/-- A wing slot of a core (R64 to R67). -/
structure Slot where
  /-- Cast that owns the slot. -/
  ck : Nat
  /-- Key while the slot holds threads. -/
  pc : DWord
  priv : Priv
  tids : List Nat
  /-- Tile clock at which it emptied. -/
  emptied : Nat
  marked : Bool
  /-- Tile clock since which it is eligible. -/
  since : Option Nat
  deriving DecidableEq, Repr

/-- How far a chorus is on its way into a scene (R27, R68, R79). -/
inductive Phase where
  | fetch
  | header
  | lane
  | running
  deriving DecidableEq, Repr

/-- A chorus or sub-chorus (R70 to R73). -/
structure Chorus where
  ck : Nat
  priv : Priv
  /-- Members in ascending TID order. -/
  members : List Nat
  /-- Header address and the words fetched, the header first. -/
  hdr : DWord
  words : List Word
  /-- Address of the word being passed, and members that have still to pass it. -/
  pc : DWord
  todo : List Nat
  phase : Phase
  lane : Option Nat
  /-- Oldest filing among its threads, and tile clock since which it waits for a lane. -/
  age : Nat
  since : Nat
  /-- Slot that it was drawn from, and whether it is a sub-chorus (R68, R72). -/
  slot : Nat
  sub : Bool
  /-- Number of the free value that says whether the word being passed waits for a V2S, and the s-registers that a V2S
  wrote last in some member (R75). -/
  draw : Nat
  lag : BitVec 32
  deriving DecidableEq, Repr

/-- Words that ASTAT reads of one tile (R269). -/
structure TileStat where
  event : BitVec 9
  report : DWord
  res : Word
  prev : Word
  deriving DecidableEq, Repr

/-- A cached copy of a line of gallery DRAM (R302): the write key, the read lease and the listed cells that it was fetched
with. -/
structure Copy where
  wts : Key
  rts : Nat
  cells : List Host.Cell
  deriving DecidableEq, Repr

/-- A core. -/
structure Core where
  wingage : BitVec 11
  /-- Accumulator tiles: elements by tile number times 4096 plus row times 64 plus column; unlisted is +0. -/
  acc : Tab Word
  stat : Tab TileStat
  coef : Tab Word
  order : List MatOp
  slots : Tab Slot
  chorus : Tab Chorus
  nextChorus : Nat
  /-- Register and scratchpad units of the split (R209). -/
  splitR : Nat
  splitS : Nat
  pts : DWord
  gated : Bool
  /-- Tick since which the core is empty; place of a wake under way among the wakes asked for (R361). -/
  hold : Nat
  waking : Option Nat
  routerOnly : Bool
  /-- Pages that the core's TLB holds: gallery and virtual page (R189). -/
  tlb : List (Nat × Nat)
  /-- Cached copies of lines, by number of the line's first cell over 128 (R212, R302). -/
  copies : Tab Copy
  /-- Column groups that the latest limiter step dealt to it, fillers on it, and groups it released in the fall under way
  (R360, R374). -/
  grants : Nat
  fillers : Nat
  released : Nat
  deriving DecidableEq, Repr

/-- A slew limiter (R359). -/
structure Slew where
  a : Nat
  mu : Nat
  md : Nat
  up : List Nat
  dn : List Nat
  deriving DecidableEq, Repr

/-- A cluster and its vault. -/
structure Cluster where
  temp : Nat
  band : Nat
  slew : Slew
  /-- Column-group cap (R355). -/
  cap : Nat
  /-- Energy spent this interval, and the running charge sums of admission (R353). -/
  spent : Nat
  /-- In a refresh window. -/
  window : Bool
  /-- Limiter steps made in the present tick (R359). -/
  stepsNow : Nat
  deriving DecidableEq, Repr

/-- A segment of a refresh calendar: from a tick on, windows begin at base plus multiples of the period (R336, R337). -/
structure Seg where
  start : Nat
  base : Nat
  period : Nat
  deriving DecidableEq, Repr

/-- A tile. -/
structure Tile where
  /-- Clock in 0.1 GHz; clocks since reset at the tick of its last change, and that tick; throttle state. -/
  freq : Nat
  clocks : Nat
  mark : Nat
  throttled : Bool
  cursor : Nat
  band : Nat
  window : Bool
  deriving DecidableEq, Repr

/-- A snapshot in flight (R395). -/
structure Snap where
  /-- Issuing thread, the number of its operation, its destination and its cue, the area's address and bytes. -/
  tk : Nat
  op : Nat
  reg : Nat
  cue : Nat
  area : DWord
  size : Nat
  /-- Tick and FPGEN at the freeze. -/
  tick : Nat
  fpgen : Nat
  /-- Virtual address, log2 of size and stage frame's physical address of each framed page, ascending. -/
  pages : List (Nat × Nat × Nat)
  /-- Bytes of page data streamed, lines copied to the reserve, bytes as they stood at the freeze. -/
  streamed : Nat
  copied : List Nat
  frozen : List Host.Cell
  status : Nat
  deriving DecidableEq, Repr

/-- A snapshot that has ended while its thread was off every core: the thread, its destination and cue, the status (R391,
R395). -/
structure SnapOwed where
  tk : Nat
  reg : Nat
  cue : Nat
  status : Nat
  deriving DecidableEq, Repr

/-- A waiting ensemble in the ready queue (R350, R351). -/
structure Wait where
  node : Nat
  company : Nat
  ensemble : Nat
  /-- Wait accumulated before, and the tick since which it waits. -/
  wage : Nat
  since : Nat
  blocker : Bool
  deriving DecidableEq, Repr

/-- A grid barrier of a production (R372). -/
structure Grid where
  member : DWord
  arrive : DWord
  phase : Word
  /-- Local arrival count of each company. -/
  locals : Tab Nat
  deriving DecidableEq, Repr

/-- A live launch node: a production made or a node held (R342 to R350). -/
structure Prod where
  gallery : Nat
  /-- Address of the record. -/
  recAddr : DWord
  /-- The 128 record bytes as read at creation. -/
  bytes : List Byte
  /-- Creation key, creator's privilege. -/
  key : Key
  priv : Priv
  /-- It has become ready: STATE 3 (R345). -/
  ready : Bool
  started : Bool
  /-- The key at which it started, and the host writes made by then (R305). -/
  startKey : Key
  startHost : Nat
  /-- Bytes of physical memory as they stood when the production started (R28). -/
  code : List Host.Cell
  casts : Nat
  ended : Nat
  unhandled : Nat
  /-- The unhandled end of the lowest key: global cast index, TID, causes, TEPC; and that key (R346). -/
  first : List DWord
  firstKey : Key
  /-- Engine faults of exited issuers (R325): how many, the address of the one with the lowest key, and that key. -/
  engFaults : Nat
  engFirst : DWord
  engKey : Key
  /-- Position of each company. -/
  bind : Tab Nat
  grids : Tab Grid
  /-- Operation that performs a copy node. -/
  copyOp : Option Nat
  deriving DecidableEq, Repr

/-- A communicator (R428): one entry per rank, module in [11:0], tag in [23:16], name in [47:32] (log 13). -/
structure Comm where
  members : List DWord
  deriving DecidableEq, Repr

/-- The stub page (R421). -/
structure Stub where
  op : DWord
  opa : DWord
  opb : DWord
  result : DWord
  cause : DWord
  status : DWord
  go : DWord
  deriving DecidableEq, Repr

/-- The contributions to one collective that have reached a gallery (R427, R430): control words by rank, and data as
element offset, bytes and whether their source was uncorrectable; and the gallery's own ranks that have completed it. -/
structure CollBox where
  ctls : Tab DWord
  data : List (Nat × List Byte × Bool)
  left : List Nat
  deriving DecidableEq, Repr

/-- The TDI states of a virtual function (R420). -/
inductive Tdi where
  | unlocked
  | locked
  | run
  | error
  deriving DecidableEq, Repr

/-- GSTAT.STATE of a gallery (R384). -/
inductive GState where
  | opened
  | quiescing
  | removing
  deriving DecidableEq, Repr

/-- What waits for the reopening of a gallery (R391, R411): a management request with its CODE and arguments, an operation of
the stub page, a request for measurements. -/
inductive Deferred where
  | request (code : Nat) (args : List DWord)
  | stub (op : Nat) (opa opb : DWord)
  | measure (nonce : List Byte)
  deriving DecidableEq, Repr

/-- A gallery (R377). -/
structure Gallery where
  /-- Physical tile of each position. -/
  tiles : List Nat
  protect : Bool
  debug : Bool
  fpgen : Nat
  /-- Names in force (R382). -/
  names : Nat
  state : GState
  groot : DWord
  ntbase : DWord
  stbase : DWord
  fpbase : DWord
  snapres : DWord
  /-- Written values that wait for the next quiesce (R384). -/
  grootW : DWord
  ntbaseW : DWord
  stbaseW : DWord
  fpbaseW : DWord
  snapresW : DWord
  /-- A base was written since the last quiesce (R384). -/
  pend : Bool
  /-- Engine-written understudy bytes of framed pages. -/
  under : List Host.Cell
  ready : List Wait
  /-- Channel queues: name times 16 plus channel. -/
  channels : Tab (List DWord)
  snap : Option Snap
  /-- Snapshots that ended while their threads were off every core, and bytes of the snapshot reserve that hold images
  (R366). -/
  snapOwed : List SnapOwed
  imaged : Nat
  /-- The floor plan as the last re-attestation wrote it (R411). -/
  plan : List Byte
  /-- Bytes that the curator last returned in the virtual function's DOE mailbox (R410, R419). -/
  mailbox : List Byte
  /-- Save counter, CUR table, page versions (R406, R407). -/
  sc : Nat
  cur : Tab DWord
  vers : Tab DWord
  keyDraw : Nat
  /-- The trusted group: its number, its key and the digests of its members' identity keys (R413). -/
  group : Option (Nat × List Byte × List (List Byte))
  comms : Tab Comm
  /-- COLL sequence of each communicator and rank. -/
  seqs : Tab Nat
  tdi : Tdi
  session : Bool
  ide : Tab (List Byte)
  stub : Stub
  /-- What the ranks of each collective contributed, by communicator times 2^32 plus sequence. -/
  inbox : Tab CollBox
  /-- The management request served under the quiesce in progress: CODE and arguments (R391). -/
  request : Option (Nat × List DWord)
  /-- What waits for the reopening, oldest first (R391). -/
  deferred : List Deferred
  deriving DecidableEq, Repr

/-- An engine operation under way, with its engine record (R322 to R333, R430, R438). -/
structure EngOp where
  /-- Issuing thread, its privilege at issue, its cast, the gallery, the core's cluster. -/
  tk : Nat
  priv : Priv
  ck : Nat
  gallery : Nat
  cluster : Nat
  /-- The copy node that it performs, where it is none of a thread's (R342). -/
  node : Option Nat
  /-- Cue B of the issuing scene, 15 for none. -/
  cue : Nat
  /-- The instruction word with E cleared, and s[sd], s[sa], s[sa+1], s[sb] as read at issue. -/
  word : Word
  sd : DWord
  sa : DWord
  sa1 : DWord
  sb : DWord
  /-- Bytes or elements below this count were done before the operation was last resumed. -/
  base : Nat
  /-- Units read, with their bytes and whether they were uncorrectable; units written (R308). -/
  reads : Tab (List Byte × Bool)
  writes : List Nat
  /-- Record number in the cast. -/
  slot : Nat
  /-- COLL: sequence on its communicator and rank. -/
  seq : Nat
  rank : Nat
  /-- Elements to do: all of them, or those below one that failed (R325). -/
  limit : Nat
  /-- Completed, with an ENGINE still owed, and its TVAL (R437). -/
  owed : Bool
  ftval : DWord
  /-- TVAL of a fault found during the operation (R324), and the key at which it was found. -/
  err : Option DWord
  errKey : Key
  /-- Stopped by pre-emption, quiesce or CTXSAVE (R326). -/
  stopped : Bool
  /-- The next line that it reads is uncorrectable: its packet is dropped (R378). -/
  lost : Bool
  deriving DecidableEq, Repr

/-- An event log of a source (R339, R340). -/
structure Log where
  next : Nat
  records : List (List DWord)
  deriving DecidableEq, Repr

/-- A fabric port (R427). -/
structure Port where
  up : Bool
  retries : Nat
  deriving DecidableEq, Repr

/-- The module as a whole. -/
structure Module where
  gsel : BitVec 8
  recovery : Bool
  fw : BitVec 8
  good : List Nat
  failing : List Nat
  staged : Option (List Byte)
  ports : Tab Port
  number : Nat
  logs : Tab Log
  /-- Management request record and its status (R423). -/
  mreq : List DWord
  mstatus : DWord
  mgo : DWord
  draws : Nat
  /-- Tags of removed galleries whose TDI is in ERROR (R420). -/
  errTags : List Nat
  svn : Nat
  deriving DecidableEq, Repr

/-- Bytes that a write replaced: the cells from one on, those of them that were listed, and the write's key. A replica may
still hold them (R305); where a host agent wrote its own memory, so may a read of it (R316), and the number of host writes
before that one stands in place of a key. -/
structure Past where
  cell : Nat
  size : Nat
  old : List Host.Cell
  key : Key
  host : Option Nat
  deriving DecidableEq, Repr

/-- What acts next, and after how much time (log 1). -/
inductive Turn where
  /-- The next member of a running chorus passes the chorus's word. -/
  | pass (core ch : Nat)
  /-- A step of the opcode table that no word encodes. -/
  | event (i : Instr)
  /-- Ticks of the reference clock pass. -/
  | ticks (n : Nat)
  /-- One read or one write of an engine operation (R308). -/
  | engine (op unit : Nat)
  /-- One group or elementwise pass of the matrix unit of a core. -/
  | matrix (core : Nat)
  /-- A host agent, or another user of the pool, writes bytes of its memory (R293, R316). -/
  | hostWrite (pool : Bool) (a : Nat) (bs : List Byte)
  deriving DecidableEq, Repr

/-- The whole machine. -/
structure State where
  /-- The model's own: what acts next; the thread that a word executes for, by key; free values used; the next number
  of an operation. -/
  agenda : List Turn
  focus : Nat
  free : Nat
  nextOp : Nat
  /-- Reference ticks since reset (R200). -/
  tick : Nat
  /-- Tick at which the power control interval under way ends (R18, R355). -/
  nextInterval : Nat
  /-- Issue sequence of each agent (R298): cores by number, engines by 10000 plus cluster, the host port 20000, the curator
  20001; an unlisted agent has made no access. -/
  issued : Tab Nat
  /-- Timestamps of lines at their homes (R302), by number of the line's first cell over 128: the key of the latest write,
  and the read lease. Frame pairs published: first cell, cells, and the key P (R309). -/
  wts : Tab Key
  rts : Tab Nat
  pubs : List (Nat × Nat × Key)
  /-- What SNAP read at its key F, frames and page tables: first cell, cells, and the timestamp of F (R310, R395). -/
  freezes : List (Nat × Nat × Nat)
  /-- Lines that supply no data, uncorrectable or sealed under a MAC that fails; those of them whose MAC fails; lines with an
  error that is corrected on their way (R194, R304, R404). -/
  bad : List Nat
  forged : List Nat
  worn : List Nat
  /-- Writes that host agents have made to their own memory (R316). -/
  hostCount : Nat
  /-- All memory; Ops.Loc lays the spaces out; an unlisted byte reads 0. -/
  mem : List Host.Cell
  /-- Replaced bytes of global memory, newest first. -/
  past : List Past
  /-- Threads by key: cast key times 2048 plus TID. -/
  threads : Tab Thread
  /-- Casts by key: production times 65536 plus global cast index. -/
  casts : Tab Cast
  prods : Tab Prod
  nextProd : Nat
  cores : Tab Core
  /-- Timestamps of agents other than cores (R302), numbered as in issued. -/
  stamps : Tab Nat
  clusters : Tab Cluster
  tiles : Tab Tile
  /-- Refresh calendars: vaults by cluster number, weight stores by 2240 plus tile; newest segment first. -/
  calendar : Tab (List Seg)
  gals : Tab Gallery
  ops : Tab EngOp
  dev : Module
  deriving DecidableEq, Repr

/-- The management side after reset (R425, R426): the first released firmware and every region good (log 6), ports not
brought up (R427), logs empty (R339). -/
def Module.initial : Module :=
  { gsel := 0
    recovery := false
    fw := 1
    good := List.range 224
    failing := []
    staged := none
    ports := []
    number := 0
    logs := []
    mreq := []
    mstatus := 0
    mgo := 0
    draws := 0
    errTags := []
    svn := 0 }

/-- The machine right after module reset (R426): no gallery, so no cast and no thread; memory reads 0; every core,
cluster and tile at the values that Ops gives for one that is not listed. -/
def State.reset : State :=
  { agenda := []
    focus := 0
    free := 0
    nextOp := 0
    tick := 0
    nextInterval := 400
    issued := []
    wts := []
    rts := []
    pubs := []
    freezes := []
    bad := []
    forged := []
    worn := []
    hostCount := 0
    mem := []
    past := []
    threads := []
    casts := []
    prods := []
    nextProd := 0
    cores := []
    stamps := []
    clusters := []
    tiles := []
    calendar := []
    gals := []
    ops := []
    dev := Module.initial }

end Sys2Proof.Machine
end

