-- ==== Sys2Proof/Machine/Tab.lean ====
section
/-! DEFINITION. Sparse tables: lists of numbered entries in rising order, no number twice. A table read with a default
never lists the default, so equal tables are equal lists. Memory is one of them (00_scope.md R5). -/
namespace Sys2Proof

/-- The entry of number i, where there is one. -/
def tfind {α : Type} : Tab α → Nat → Option α
  | [], _ => none
  | (k, x) :: t, i => if k = i then some x else tfind t i

/-- The table without entries of number i. -/
def tdel {α : Type} : Tab α → Nat → Tab α
  | [], _ => []
  | (k, x) :: t, i => if k = i then tdel t i else (k, x) :: tdel t i

/-- The entry placed before the first larger number. -/
def tins {α : Type} : Tab α → Nat → α → Tab α
  | [], i, y => [(i, y)]
  | (k, x) :: t, i, y => if i < k then (i, y) :: (k, x) :: t else (k, x) :: tins t i y

/-- The table with entry i being y. -/
def tput {α : Type} (t : Tab α) (i : Nat) (y : α) : Tab α := tins (tdel t i) i y

/-- Entry i of a table that reads d where nothing is listed. -/
def tget {α : Type} (t : Tab α) (i : Nat) (d : α) : α := (tfind t i).getD d

/-- Entry i becomes y in a table that reads d where nothing is listed. -/
def tset {α : Type} [DecidableEq α] (t : Tab α) (i : Nat) (y d : α) : Tab α :=
  if y = d then tdel t i else tput t i y

/-- The numbers of a table. -/
def tkeys {α : Type} (t : Tab α) : List Nat := t.map (·.1)

/-- The entries of a table. -/
def tvals {α : Type} (t : Tab α) : List α := t.map (·.2)

/-- Every entry changed by f, which sees its number. -/
def tmap {α β : Type} (t : Tab α) (f : Nat → α → β) : Tab β := t.map (fun p => (p.1, f p.1 p.2))

/-- Entry i, where there is one, changed by f. -/
def tmod {α : Type} (t : Tab α) (i : Nat) (f : α → α) : Tab α :=
  match tfind t i with
  | some x => tput t i (f x)
  | none => t

/-- Numbers rise strictly. -/
def tsorted {α : Type} : Tab α → Bool
  | [] => true
  | [_] => true
  | (k, _) :: (j, y) :: t => decide (k < j) && tsorted ((j, y) :: t)

/-- The canonical form of a table that reads d where nothing is listed. -/
def tcanon {α : Type} [DecidableEq α] (t : Tab α) (d : α) : Bool :=
  tsorted t && t.all (fun p => !decide (p.2 = d))

end Sys2Proof
end

