-- ==== Sys2Proof/Machine/Operands.lean ====
section
/-! DEFINITION. A thread's registers and every operand form: lane registers, pairs and quads (R21, R93), uniform
registers, predicates (R21), the prefix's mask and third source (R31), register numbers of traps (R190), and the
address forms of memory words (R37). -/
namespace Sys2Proof.Machine

/-- Lane register n (R21). -/
def Thread.lane (t : Thread) (n : Nat) : Word := tget t.v n 0
/-- Lane register n receives x. -/
def Thread.setLane (t : Thread) (n : Nat) (x : Word) : Thread := { t with v := tset t.v n x 0 }
/-- The pair concat(v[n+1], v[n]) (R93). -/
def Thread.pair (t : Thread) (n : Nat) : DWord := t.lane (n + 1) ++ t.lane n
/-- The pair n receives x, its low half in the even register. -/
def Thread.setPair (t : Thread) (n : Nat) (x : DWord) : Thread :=
  (t.setLane n (x.setWidth 32)).setLane (n + 1) ((x >>> 32).setWidth 32)
/-- Uniform register n (R21). -/
def Thread.uni (t : Thread) (n : Nat) : DWord := tget t.u n 0
/-- Uniform register n receives x. -/
def Thread.setUni (t : Thread) (n : Nat) (x : DWord) : Thread := { t with u := tset t.u n x 0 }

/-- x with bit i being b. -/
def putBit {w : Nat} (x : BitVec w) (i : Nat) (b : Bool) : BitVec w :=
  if b then x ||| (1#w <<< i) else x &&& ~~~(1#w <<< i)

/-- Predicate n; p15 reads true (R21). -/
def Thread.pred (t : Thread) (n : Nat) : Bool := if n = 15 then true else t.p.getLsbD n
/-- Predicate n receives b; a write to p15 is discarded (R21). -/
def Thread.setPred (t : Thread) (n : Nat) (b : Bool) : Thread :=
  if n = 15 then t else { t with p := putBit t.p n b }
/-- The predicates as bits [15:0], bit 15 set (R132). -/
def Thread.predSet (t : Thread) : BitVec 16 := BitVec.cons true t.p

/-- The truth of a combine code: 00 result, 01 AND, 10 OR, 11 XOR (R38). -/
def combine (c : BitVec 2) (old r : Bool) : Bool :=
  match c.toNat with
  | 0 => r
  | 1 => old && r
  | 2 => old || r
  | _ => old ^^ r

/-- A compare result combined into p[pd]; pd = 15 discards it (R38). -/
def Thread.setCompare (t : Thread) (pd : BitVec 4) (c : BitVec 2) (r : Bool) : Thread :=
  t.setPred pd.toNat (combine c (t.pred pd.toNat) r)

/-- A prefix masks the thread off for the word (R31). -/
def Thread.masked (t : Thread) : Bool :=
  match t.pfx with
  | some x => !t.pred x.mask.toNat
  | none => false
/-- The prefix zeroes the destination of a masked-off thread (R31). -/
def Thread.zeroing (t : Thread) : Bool :=
  match t.pfx with
  | some x => x.zero
  | none => false
/-- The prefix saturates (R31). -/
def Thread.sat (t : Thread) : Bool :=
  match t.pfx with
  | some x => x.sat
  | none => false
/-- The addend register of an accumulate form: vc of a prefix, else vd (R31). -/
def Thread.third (t : Thread) (d : BitVec 6) : Nat :=
  match t.pfx with
  | some x => x.vc.toNat
  | none => d.toNat
/-- The rounding mode: rnd of a prefix where it is not 0, else FRM (R103, R148). -/
def Thread.mode (t : Thread) : BitVec 3 :=
  match t.pfx with
  | some x => if x.rnd = 0 then t.frm else x.rnd
  | none => t.frm

/-- Number of lane register n in a TVAL (R190). -/
def vReg (n : Nat) : Nat := n
/-- Number of uniform register n in a TVAL (R190). -/
def sReg (n : Nat) : Nat := 64 + n
/-- A pair's registers, lowest first. -/
def vPair (n : Nat) : List Nat := [n, n + 1]
/-- Registers n to n+k-1. -/
def vRange (n k : Nat) : List Nat := (List.range k).map (n + ·)

/-- Access size in bytes of a size code (R37). -/
def sizeOf3 (z : BitVec 3) : Nat :=
  match z.toNat with
  | 0 => 1
  | 1 => 2
  | 2 => 4
  | 3 => 8
  | 4 => 16
  | 5 => 1
  | 6 => 2
  | _ => 1

/-- The address of a memory word: s[sb] + sext(v[va], 64) times the size, or the pair va (R37). -/
def Thread.address (t : Thread) (a : Nat) (b : Nat) (pairForm : Bool) (n : Nat) : DWord :=
  if pairForm then t.pair a else t.uni b + (t.lane a).signExtend 64 * BitVec.ofNat 64 n

/-- The registers that form the address, in field order (R37). -/
def addrRegs (a b : Nat) (pairForm : Bool) : List Nat :=
  if pairForm then vPair a else [vReg a, sReg b]

/-- Signed clamp of an exact integer to [lo, hi] (R118). -/
def clampInt (x lo hi : Int) : Int := if x < lo then lo else if hi < x then hi else x

end Sys2Proof.Machine
end

