-- ==== Sys2Proof/Machine/Flags.lean ====
section
/-! DEFINITION. The exception flags and the integer results that saturate (R96, R107, R118). -/
namespace Sys2Proof.Machine

/-- Flags that an operation raises (R107). -/
structure Fl where
  nv : Bool
  dz : Bool
  of : Bool
  uf : Bool
  nx : Bool
  deriving DecidableEq, Repr

/-- No flag. -/
def Fl.none : Fl := ⟨false, false, false, false, false⟩
/-- Invalid alone. -/
def Fl.invalid : Fl := ⟨true, false, false, false, false⟩
/-- Division by zero alone. -/
def Fl.divZero : Fl := ⟨false, true, false, false, false⟩
/-- Overflow with inexact (R104). -/
def Fl.over : Fl := ⟨false, false, true, false, true⟩
/-- Inexact alone. -/
def Fl.inexact : Fl := ⟨false, false, false, false, true⟩
/-- The union of two sets of flags. -/
def Fl.or (a b : Fl) : Fl := ⟨a.nv || b.nv, a.dz || b.dz, a.of || b.of, a.uf || b.uf, a.nx || b.nx⟩
/-- The flags as the bits of FFLAGS (R107). -/
def Fl.bits (f : Fl) : BitVec 5 :=
  BitVec.ofNat 5 (f.nv.toNat * 16 + f.dz.toNat * 8 + f.of.toNat * 4 + f.uf.toNat * 2 + f.nx.toNat)

/-- FFLAGS keeps its bits and takes those that are raised (R107). -/
def Thread.raise (t : Thread) (f : Fl) : Thread := { t with fflags := t.fflags ||| f.bits }

/-- An exact integer reduced to w bits, clamped to the signed range first where sat asks for it (R96, R118). -/
def fitSigned (w : Nat) (sat : Bool) (x : Int) : BitVec w :=
  BitVec.ofInt w (if sat then clampInt x (-(2 ^ (w - 1))) (2 ^ (w - 1) - 1) else x)

end Sys2Proof.Machine
end

