-- ==== Sys2Proof/Machine/Logs.lean ====
section
/-! DEFINITION. Event logs (15_die_engines_refresh.md R339, R340). -/
namespace Sys2Proof.Machine

/-- Classes of sources (R339). -/
def logRouter : Nat := 0
def logCore : Nat := 1
def logVault : Nat := 2
def logCurator : Nat := 3
def logThermal : Nat := 4
def logEngine : Nat := 5

/-- GALLERY of a record that concerns no gallery (R339). -/
def noGallery : Nat := 0xFFFF

/-- The four doublewords of a record (R339). -/
def logRecord (seq time cls unit kind gal : Nat) (detail : BitVec 64) : List DWord :=
  [BitVec.ofNat 64 seq, BitVec.ofNat 64 time,
    BitVec.ofNat 64 (gal * 2 ^ 48 + kind * 2 ^ 32 + cls * 2 ^ 28 + unit), detail]

/-- A source appends a record and keeps its latest 256 (R339, R340). -/
def State.log (s : State) (cls unit kind gal : Nat) (detail : DWord) : State :=
  let src := cls * 2 ^ 28 + unit
  let l := tget s.dev.logs src ⟨1, []⟩
  let rs := l.records ++ [logRecord l.next s.tick cls unit kind gal detail]
  { s with dev := { s.dev with
      logs := tput s.dev.logs src ⟨l.next + 1, rs.drop (rs.length - 256)⟩ } }

/-- DETAIL of the curator's record of a failed write or of a halt refused: the launch record and the cast (R339). -/
def recordDetail (a : DWord) (gidx : Nat) : DWord := BitVec.ofNat 64 (a.toNat % 2 ^ 56 / 2 ^ 7 + gidx * 2 ^ 49)

end Sys2Proof.Machine
end

