-- ==== Sys2Proof/Machine/Mem.lean ====
section
/-! DEFINITION. Memory: where each space lies in the one list of cells, bytes and little-endian words of it (R5, R174,
R293), and translation of global addresses (R185 to R188, R318, R319). -/
namespace Sys2Proof.Machine

/-- The number of a place's cell: each space has 2^64 cells of its own. -/
def Loc.cell : Loc → Nat
  | .dram g a => (8 * g) * 2 ^ 64 + a
  | .weights g a => (8 * g + 1) * 2 ^ 64 + a
  | .scratch ck a => (8 * ck + 2) * 2 ^ 64 + a
  | .host a => 3 * 2 ^ 64 + a
  | .pool a => 4 * 2 ^ 64 + a

/-- The place n bytes further on. -/
def Loc.plus (l : Loc) (n : Nat) : Loc :=
  match l with
  | .dram g a => .dram g (a + n)
  | .weights g a => .weights g (a + n)
  | .scratch c a => .scratch c (a + n)
  | .host a => .host (a + n)
  | .pool a => .pool (a + n)

/-- The canonical form of memory: cells strictly rising, none holding the 0 that an unlisted byte reads as. -/
def Memory.wf (m : List Host.Cell) : Bool := tcanon m 0

/-- The byte of cell a. -/
def byteAt (m : List Host.Cell) (a : Nat) : Byte := tget m a 0
/-- Cell a receives b. -/
def setByte (m : List Host.Cell) (a : Nat) (b : Byte) : List Host.Cell := tset m a b 0
/-- The n bytes from cell a on, lowest first. -/
def bytesAt (m : List Host.Cell) : Nat → Nat → List Byte
  | _, 0 => []
  | a, n + 1 => byteAt m a :: bytesAt m (a + 1) n
/-- Bytes stored from cell a on. -/
def setBytes (m : List Host.Cell) : Nat → List Byte → List Host.Cell
  | _, [] => m
  | a, b :: t => setBytes (setByte m a b) (a + 1) t
/-- The little-endian number in n bytes from cell a on. -/
def numAt (m : List Host.Cell) (a n : Nat) : Nat := leNat (bytesAt m a n)
/-- The n low bytes of x stored from cell a on. -/
def setNum (m : List Host.Cell) (a n x : Nat) : List Host.Cell := setBytes m a (leBytes n x)
/-- n cells from a on read 0. -/
def clearCells (m : List Host.Cell) (a n : Nat) : List Host.Cell :=
  m.filter (fun c => !(decide (a ≤ c.1) && decide (c.1 < a + n)))
/-- The listed cells in [a, a+n). -/
def cellsIn (m : List Host.Cell) (a n : Nat) : List Host.Cell :=
  m.filter (fun c => decide (a ≤ c.1) && decide (c.1 < a + n))

/-! ## Galleries -/

/-- Bytes of a gallery's DRAM (R377). -/
def Gallery.memSize (g : Gallery) : Nat := g.tiles.length * Config.dramPerTile
/-- Bytes of a gallery's weight store (R331). -/
def Gallery.wsSize (g : Gallery) : Nat := g.tiles.length * Config.weightsPerTile

/-! ## Translation -/

/-- Memory as a walk reads it: a line that supplies no data reads zero, so that an entry in it is not valid and a stage word in
it names the first frame (R194, R404; log 35). -/
def State.readable (s : State) : List Host.Cell :=
  if s.bad.isEmpty then s.mem else s.mem.filter (fun c => !s.bad.contains (c.1 / 128))

/-- The kinds of access (R187, R195): the code is TSTAT.ACC. -/
inductive Acc where
  | fetch
  | read
  | write
  | rmw
  deriving DecidableEq, Repr

/-- TSTAT.ACC of a kind. -/
def Acc.code : Acc → Nat
  | .fetch => 0
  | .read => 1
  | .write => 2
  | .rmw => 3
/-- The kind reads. -/
def Acc.reads : Acc → Bool
  | .read | .rmw => true
  | _ => false
/-- The kind reads through the leaf: it loads or fetches. -/
def Acc.readsThrough : Acc → Bool
  | .fetch | .read | .rmw => true
  | .write => false
/-- The kind writes. -/
def Acc.writes : Acc → Bool
  | .write | .rmw => true
  | _ => false

/-- log2 of the page size of a leaf at a level (R185). -/
def pageBits (level : Nat) : Nat := 56 - 10 * level

/-- An entry is malformed at a level (R186, R318, R403). -/
def pteMalformed (e level : Nat) : Bool :=
  let leaf := bit e 1
  let bits := pageBits level
  fld e 56 8 != 0 || fld e 12 2 != 0 || bit e 6 || fld e 14 2 == 3
  || (leaf && level == 1) || (!leaf && level == 4) || (!leaf && fld e 14 2 != 0)
  || (leaf && fld e 16 (bits - 16) != 0)
  || (leaf && bit e 11 && (fld e 14 2 != 0 || fld e 16 (bits - 15) != 0))
  || (leaf && bit e 10 && fld e 14 2 != 0)

/-- How a walk ends. -/
inductive Walk where
  /-- At a leaf: the entry, its gallery physical address, log2 of the page size, and the addresses of the entries read. -/
  | leaf (e ea bits : Nat) (trail : List Nat)
  /-- At a failing check, with its FKIND. -/
  | fail (fk : Nat)
  /-- At a table that no memory of the gallery holds. -/
  | off
  deriving DecidableEq, Repr

/-- The walk from a table at a level, with the number of levels left, the entries read and whether one of them is malformed:
V of every entry is checked before any is found malformed, and the walk goes on through a malformed pointer (R185, R187
steps 2 and 3; log 35). -/
def walkFrom (m : List Host.Cell) (g bound : Nat) : Nat → Nat → Nat → Nat → Bool → List Nat → Walk
  | 0, _, _, _, _, _ => .fail 1
  | n + 1, level, table, va, bad, trail =>
    let ea := table + 8 * (va / 2 ^ (pageBits level) % 1024)
    if bound < ea + 8 then (if bad then .fail 1 else .off)
    else
      let e := numAt m (Loc.dram g ea).cell 8
      let bad' := bad || pteMalformed e level
      if !bit e 0 then .fail 0
      else if bit e 1 then (if bad' then .fail 1 else .leaf e ea (pageBits level) (trail ++ [ea]))
      else walkFrom m g bound n (level + 1) (fld e 16 40 * 2 ^ 16) va bad' (trail ++ [ea])

/-- The addresses of the entries that a walk reads, however it ends. -/
def walkEntries (m : List Host.Cell) (g bound : Nat) : Nat → Nat → Nat → Nat → List Nat
  | 0, _, _, _ => []
  | n + 1, level, table, va =>
    let ea := table + 8 * (va / 2 ^ (pageBits level) % 1024)
    if bound < ea + 8 then []
    else
      let e := numAt m (Loc.dram g ea).cell 8
      ea :: (if !bit e 0 || bit e 1 then [] else walkEntries m g bound n (level + 1) (fld e 16 40 * 2 ^ 16) va)

/-- The walk of a virtual address in a gallery. -/
def walk (m : List Host.Cell) (g : Nat) (gal : Gallery) (va : Nat) : Walk :=
  walkFrom m g gal.memSize 4 1 gal.groot.toNat va false []

/-- A translated address. -/
structure Xlat where
  /-- Where the byte lies; for a framed page, on the frame on stage (R176). -/
  loc : Loc
  /-- The leaf, its address, log2 of its page size. -/
  pte : Nat
  ea : Nat
  bits : Nat
  /-- Gallery physical addresses that the walk read: the entries, and for a framed page the stage word. -/
  trail : List Nat
  deriving DecidableEq, Repr

/-- The physical address of the page's first byte. -/
def Xlat.page (x : Xlat) : Nat := fld x.pte 16 40 * 2 ^ 16
/-- The page is framed. -/
def Xlat.framed (x : Xlat) : Bool := bit x.pte 11
/-- Replicas are allowed. -/
def Xlat.replicas (x : Xlat) : Bool := bit x.pte 9

/-- Gallery physical address of the stage word of a frame pair (R386). -/
def stageAddr (gal : Gallery) (pair : Nat) : Nat := gal.stbase.toNat + 8 * (pair / 2 ^ 17)
/-- The stage word of a frame pair (R319). -/
def stageWord (m : List Host.Cell) (g : Nat) (gal : Gallery) (pair : Nat) : Nat :=
  numAt m (Loc.dram g (stageAddr gal pair)).cell 8

/-- The outcome of translation: a place, a page fault's FKIND, or nothing there. -/
inductive XRes where
  | ok (x : Xlat)
  | fail (fk : Nat)
  | off
  deriving DecidableEq, Repr

/-- The place of a target code: gallery DRAM, host memory, pool memory (R186). -/
def placeOf (g tgt a : Nat) : Loc :=
  match tgt with
  | 1 => .host a
  | 2 => .pool a
  | _ => .dram g a

/-- The permissions of a leaf for an access (R187 step 5). -/
def permitted (e : Nat) (k : Acc) : Bool :=
  match k with
  | .fetch => bit e 4
  | .read => bit e 2
  | .write => bit e 3
  | .rmw => bit e 2 && bit e 3

/-- Translation with the checks of R187, in order. -/
def translate (m : List Host.Cell) (g : Nat) (gal : Gallery) (va : DWord) (priv : Priv) (k : Acc) : XRes :=
  let a := va.toNat
  if a / 2 ^ 56 ≠ 0 then .fail 4
  else
    match walk m g gal a with
    | .fail fk => .fail fk
    | .off => .off
    | .leaf e ea bits trail =>
      if priv = .program && bit e 5 then .fail 3
      else if !permitted e k then .fail 2
      else
        let base := fld e 16 40 * 2 ^ 16
        let frame := if bit e 11 && bit (stageWord m g gal base) 0 then base + 2 ^ bits else base
        let pa := frame + a % 2 ^ bits
        if fld e 14 2 = 0 && decide (gal.memSize ≤ pa) then .off
        else .ok ⟨placeOf g (fld e 14 2) pa, e, ea, bits, if bit e 11 then trail ++ [stageAddr gal base] else trail⟩

end Sys2Proof.Machine
end

