-- ==== Sys2Proof/Machine/Order.lean ====
section
/-! DEFINITION. Threads, casts, cores, tiles and galleries by key, the clocks of tiles, logical names (R381, R382), and the
logical order (14_die_memory_order.md R297 to R305): agents, keys, timestamps and leases, the read and the write of a place,
and the accesses of a walk. -/
namespace Sys2Proof.Machine

/-! ## Threads, casts, cores, tiles, galleries -/

/-- The cast of a thread. -/
def castOf (tk : Nat) : Nat := tk / 2048
/-- The TID of a thread. -/
def tidOf (tk : Nat) : Nat := tk % 2048
/-- The key of a thread. -/
def thrKey (ck tid : Nat) : Nat := ck * 2048 + tid
/-- The key of a cast. -/
def castKey (prod gidx : Nat) : Nat := prod * 65536 + gidx
/-- The cluster, and the tile, of a core. -/
def clusterOf (core : Nat) : Nat := core / 4
def tileOf (core : Nat) : Nat := core / 160

def State.putT (s : State) (tk : Nat) (t : Thread) : State := { s with threads := tput s.threads tk t }
def State.putC (s : State) (ck : Nat) (c : Cast) : State := { s with casts := tput s.casts ck c }
def State.thread (s : State) (tk : Nat) : Option Thread := tfind s.threads tk
def State.cast (s : State) (ck : Nat) : Option Cast := tfind s.casts ck
def State.gal (s : State) (g : Nat) : Option Gallery := tfind s.gals g
def State.putG (s : State) (g : Nat) (x : Gallery) : State := { s with gals := tput s.gals g x }

/-- A core after reset: the WINGAGE of R69, empty tiles, power-gated (R361). -/
def Core.initial : Core :=
  { wingage := 64, acc := [], stat := [], coef := [], order := [], slots := [], chorus := [], nextChorus := 0,
    splitR := 0, splitS := 0, pts := 0, gated := true, hold := 0, waking := none, routerOnly := false, tlb := [],
    copies := [], grants := 0, fillers := 0, released := 0 }
/-- Core n; every core exists from reset. -/
def State.core (s : State) (n : Nat) : Core := tget s.cores n Core.initial
def State.putCore (s : State) (n : Nat) (c : Core) : State := { s with cores := tset s.cores n c Core.initial }

/-- The tables that the curator loads into a slew limiter (R360). -/
def slewUp : List Nat := 4 :: List.replicate 15 2
def slewDn : List Nat := [1, 1, 2, 2, 3, 3, 4, 4] ++ List.replicate 8 4

/-- A cluster after reset (R354, R359; log 6). -/
def Cluster.initial : Cluster :=
  { temp := 40, band := 0, slew := ⟨0, 0, 0, slewUp, slewDn⟩, cap := 16, spent := 0, window := false,
    stepsNow := 0 }
def State.cluster (s : State) (n : Nat) : Cluster := tget s.clusters n Cluster.initial
def State.putCluster (s : State) (n : Nat) (c : Cluster) : State :=
  { s with clusters := tset s.clusters n c Cluster.initial }

/-- A tile after reset (R352; log 6). -/
def Tile.initial : Tile := { freq := 20, clocks := 0, mark := 0, throttled := false, cursor := 39, band := 0, window := false }
def State.tile (s : State) (n : Nat) : Tile := tget s.tiles n Tile.initial
def State.putTile (s : State) (n : Nat) (t : Tile) : State := { s with tiles := tset s.tiles n t Tile.initial }

/-- Clocks of a tile since reset: a tick is 10 ns, so a clock of 0.1 GHz times n makes n clocks in it (R18, R200). -/
def State.clock (s : State) (tile : Nat) : Nat :=
  let t := s.tile tile
  t.clocks + (s.tick - t.mark) * t.freq
/-- The clock of a tile changes now. -/
def State.setFreq (s : State) (tile freq : Nat) : State :=
  s.putTile tile { s.tile tile with freq := freq, clocks := s.clock tile, mark := s.tick }

/-- The core that holds a cast. -/
def Cast.coreNo (c : Cast) : Option Nat :=
  match c.res with
  | .core k => some k
  | _ => none

/-- The threads of a cast: TID and thread, ascending. -/
def State.castThreads (s : State) (ck : Nat) : List (Nat × Thread) :=
  (s.threads.filter (fun p => castOf p.1 == ck)).map (fun p => (tidOf p.1, p.2))

/-! ## Logical names (R381, R382) -/

/-- The entry of a core in use (R381). -/
def nameEntry (k : Nat) : Nat := 2 ^ 63 + k / 160 * 2 ^ 8 + k % 160
/-- The core of an entry. -/
def entryCore (e : Nat) : Nat := fld e 8 6 * 160 + fld e 0 8

/-- Entry n of a gallery's name table in its memory. -/
def State.entryAt (s : State) (gi : Nat) (g : Gallery) (n : Nat) : Nat :=
  numAt s.mem (Loc.dram gi (g.ntbase.toNat + 8 * n)).cell 8

/-- The core that a name in use denotes. -/
def State.coreNamed (s : State) (gi : Nat) (n : Nat) : Option Nat :=
  match s.gal gi with
  | none => none
  | some g =>
    let e := s.entryAt gi g n
    if n < g.names ∧ bit e 63 = true then some (entryCore e) else none

/-- The name that a core bears. -/
def State.nameOf (s : State) (gi k : Nat) : Option Nat :=
  match s.gal gi with
  | none => none
  | some g => (List.range g.names).find? (fun n => s.entryAt gi g n == nameEntry k)

/-! ## Keys (R298) -/

/-- Before every access. -/
def Key.zero : Key := ⟨0, 0, 0⟩
/-- The order of keys: by timestamp, then by agent, then by issue. -/
def Key.before (x y : Key) : Bool :=
  decide (x.t < y.t) || (x.t == y.t && (decide (x.a < y.a) || (x.a == y.a && decide (x.s < y.s))))
/-- The later of two keys. -/
def Key.later (x y : Key) : Key := if x.before y then y else x

/-! ## Agents (R297, R298) -/

/-- The agents beside the cores: the engine of a cluster, the host port, the curator. -/
def engineAgent (cluster : Nat) : Nat := 10000 + cluster
def hostAgent : Nat := 20000
def curatorAgent : Nat := 20001
/-- The agent of a cast's threads, of their walks and of their matrix unit: the core; of a cast that is on none, the
curator. -/
def Cast.agent (c : Cast) : Nat := c.coreNo.getD curatorAgent
/-- The tile of an agent; the host port and the curator are on none. -/
def agentTile (k : Nat) : Nat :=
  if k < 10000 then tileOf k else if k < 20000 then (k - 10000) / 40 else Config.tilesPerWafer
/-- The name of an agent in a key: a core's logical name in the gallery that holds its tile; an agent without one sorts
after every core (R298). -/
def State.agentName (s : State) (k : Nat) : Nat :=
  if k < 10000 then
    match s.gals.find? (fun p => p.2.tiles.contains (tileOf k)) with
    | some p => (s.nameOf p.1 k).getD (30000 + k)
    | none => 30000 + k
  else k
/-- The timestamp of an agent (R302). -/
def State.pts (s : State) (k : Nat) : Nat := if k < 10000 then (s.core k).pts.toNat else tget s.stamps k 0
def State.putPts (s : State) (k x : Nat) : State :=
  if k < 10000 then s.putCore k { s.core k with pts := BitVec.ofNat 64 x } else { s with stamps := tset s.stamps k x 0 }
/-- An agent's timestamp passes a key, so that its later accesses come after it. -/
def State.ptsAfter (s : State) (agent : Nat) (k : Key) : State := s.putPts agent (Nat.max (s.pts agent) (k.t + 1))
/-- The key of the agent's latest access: its timestamp, name and issue sequence as they stand. -/
def State.nowKey (s : State) (agent : Nat) : Key := ⟨s.pts agent, s.agentName agent, tget s.issued agent 0⟩
/-- The next key of an agent, at a timestamp T or its own where that is higher; its timestamp moves there. -/
def State.nextKey (s : State) (agent T : Nat) : State × Key :=
  let t := Nat.max T (s.pts agent)
  let n := tget s.issued agent 0 + 1
  (({ s with issued := tput s.issued agent n } : State).putPts agent t, ⟨t, s.agentName agent, n⟩)

/-! ## Lines (R302) -/

/-- The number of a place's line: its first cell over 128. -/
def Loc.line (l : Loc) : Nat := l.cell / 128
/-- The place is reached through translation: gallery DRAM, host or pool memory. -/
def Loc.global : Loc → Bool
  | .dram _ _ | .host _ | .pool _ => true
  | _ => false
/-- The write key of a line at its home: its latest write, or the latest PUBLISH of a frame that it lies in (R302, R309). -/
def State.lineWts (s : State) (line : Nat) : Key :=
  s.pubs.foldl (fun k p => if p.1 ≤ line * 128 ∧ line * 128 < p.1 + p.2.1 then k.later p.2.2 else k)
    (tget s.wts line Key.zero)
/-- The timestamp of the latest SNAP that read a line (R310). -/
def State.frozenAt (s : State) (line : Nat) : Nat :=
  s.freezes.foldl (fun t p => if p.1 ≤ line * 128 ∧ line * 128 < p.1 + p.2.1 then Nat.max t p.2.2 else t) 0
/-- The read lease of a line at its home. -/
def State.lineRts (s : State) (line : Nat) : Nat :=
  Nat.max (Nat.max (tget s.rts line 0) (s.lineWts line).t) (s.frozenAt line)
/-- The tile of a place's home: of gallery DRAM the tile of the vault, of host and pool memory the tile that owns the port
(R237, log 9). -/
def State.homeTile (s : State) (l : Loc) : Option Nat :=
  match l with
  | .dram gi a => (s.gal gi).bind (fun g => g.tiles[a / Config.dramPerTile]?)
  | .host a => some (Config.portTile false a % Config.tilesPerWafer)
  | .pool a => some (Config.portTile true a % Config.tilesPerWafer)
  | _ => none
/-- LEASE of a requester (R302). -/
def State.lease (s : State) (agent : Nat) (l : Loc) : Nat := if s.homeTile l = some (agentTile agent) then 64 else 4096
/-- The home slice drops the copies that the cores of its tile hold of a line that is written (R302). -/
def State.dropCopies (s : State) (l : Loc) : State :=
  match s.homeTile l with
  | none => s
  | some tile =>
    { s with cores := tmap s.cores (fun k c => if tileOf k = tile then { c with copies := tdel c.copies l.line } else c) }

/-- The key of a read whose value a write of key w made: at the agent's timestamp or the write's, the higher (R302); where
the agents' names would put that before the write, one timestamp later (R299, log 35). -/
def State.readKey (s : State) (agent : Nat) (w : Key) : State × Key :=
  let r := s.nextKey agent w.t
  if w.before r.2 then r else s.nextKey agent (w.t + 1)

/-- A read at the home of a line: its lease is renewed and the agent's timestamp moves (R302). A scratchpad has no home;
weight-store accesses take no place in the order (R294). -/
def State.noteRead (s : State) (agent : Nat) (l : Loc) : State × Key :=
  match l with
  | .weights _ _ => (s, Key.zero)
  | .scratch _ _ => s.nextKey agent 0
  | _ =>
    let lent := Nat.max (s.lineRts l.line) (s.pts agent + s.lease agent l)
    let r := s.readKey agent (s.lineWts l.line)
    ({ r.1 with rts := tset r.1.rts l.line (Nat.max lent r.2.t) 0 }, r.2)

/-- The home of a line takes a write of a key (R302). -/
def State.homeWrite (s : State) (l : Loc) (k : Key) : State :=
  ({ s with wts := tset s.wts l.line k Key.zero, rts := tset s.rts l.line k.t 0 } : State).dropCopies l

/-- A write, or a read-modify-write, at the home of a line: past its lease (R302). -/
def State.noteWrite (s : State) (agent : Nat) (l : Loc) : State × Key :=
  match l with
  | .weights _ _ => (s, Key.zero)
  | .scratch _ _ => s.nextKey agent 0
  | _ =>
    let r := s.nextKey agent (s.lineRts l.line + 1)
    (r.1.homeWrite l r.2, r.2)

/-! ## Lines with errors (R194, R304, R404) -/

/-- The place lies in a line that supplies no data. -/
def State.poisoned (s : State) (l : Loc) : Bool := s.bad.contains l.line

/-- The vault of a gallery physical address: physical tile times 40 plus cluster (R296). -/
def vaultOf (g : Gallery) (a : Nat) : Nat :=
  (g.tiles.getD (a / Config.dramPerTile) 0) * 40 + a % Config.dramPerTile / 2 ^ 16 % 40

/-- What is logged of a line that is read, in order: a corrected error, and that it is uncorrectable, or, in a protected
gallery, that its MAC fails once it is corrected (R304, R339, R404). -/
def State.errorKinds (s : State) (protect : Bool) (line : Nat) : List Nat :=
  if s.bad.contains line then
    if protect && s.forged.contains line then (if s.worn.contains line then [2, 4] else [4]) else [3]
  else if s.worn.contains line then [2]
  else []

/-- A vault logs records of some kinds. -/
def State.logKinds (s : State) (vault gi : Nat) (d : DWord) : List Nat → State
  | [] => s
  | k :: rest => (s.log logVault vault k gi d).logKinds vault gi d rest

/-- The vault logs a read of a line with an error (R339); of a line of the weight store, the first vault of the tile that
holds it (R403, log 26). -/
def State.notePoison (s : State) (l : Loc) : State :=
  match l with
  | .dram gi a =>
    match s.gal gi with
    | some g => s.logKinds (vaultOf g a) gi (BitVec.ofNat 64 (a / 128 * 128)) (s.errorKinds g.protect l.line)
    | none => s
  | .weights gi a =>
    match s.gal gi with
    | some g =>
      s.logKinds (g.tiles.getD (a / Config.weightsPerTile) 0 * 40) gi (BitVec.ofNat 64 (a / 128 * 128))
        (s.errorKinds g.protect l.line)
    | none => s
  | _ => s

/-! ## Reading and writing a place -/

/-- What a read finds: the state after it, the little-endian value, which is 0 in a line that supplies no data (R194), whether
it lay in one, and its key. -/
structure Got where
  s : State
  x : Nat
  bad : Bool
  key : Key

/-- The value of n bytes at a place as it stands, 0 where the line is uncorrectable (R194). -/
def State.value (s : State) (l : Loc) (n : Nat) : Nat := if s.poisoned l then 0 else numAt s.mem l.cell n

/-- A core's copy of a line of gallery DRAM, its lease not passed (R302). -/
def State.copyOf (s : State) (agent : Nat) (l : Loc) : Option Copy :=
  match l with
  | .dram _ _ =>
    if agent < 10000 then
      match tfind (s.core agent).copies l.line with
      | some c => if s.pts agent ≤ c.rts then some c else none
      | none => none
    else none
  | _ => none

/-- A core that reads a line of gallery DRAM at its home keeps a copy of it (R302). -/
def State.keepCopy (s : State) (agent : Nat) (l : Loc) : State :=
  match l with
  | .dram _ _ =>
    if agent < 10000 && !s.poisoned l then
      s.putCore agent { s.core agent with
        copies := tput (s.core agent).copies l.line
          ⟨s.lineWts l.line, s.lineRts l.line, cellsIn s.mem (l.line * 128) 128⟩ }
    else s
  | _ => s

/-- The read of n bytes by an agent at one key: from the core's copy where it holds one, or at the home; a copy may be gone
at any time, so which is free (R302, log 35). -/
def State.get (s : State) (agent : Nat) (l : Loc) (n : Nat) : Got :=
  match s.copyOf agent l with
  | some c =>
    let s0 : State := { s with free := s.free + 1 }
    if Config.freeChoice s.free % 2 = 0 then
      let r := s0.readKey agent c.wts
      ⟨r.1, numAt c.cells l.cell n, false, r.2⟩
    else
      let r := s0.noteRead agent l
      ⟨(r.1.keepCopy agent l).notePoison l, s.value l n, s.poisoned l, r.2⟩
  | none =>
    let r := s.noteRead agent l
    ⟨(r.1.keepCopy agent l).notePoison l, s.value l n, s.poisoned l, r.2⟩

/-- Bytes written at a place at a key; what they replace is kept for replicas (R305), and with it the place of a host
agent's write among those of host agents (R316). -/
def State.writeBytes (s : State) (l : Loc) (bs : List Byte) (k : Key) (host : Option Nat) : State :=
  { s with
    mem := setBytes s.mem l.cell bs
    past := if l.global then ⟨l.cell, bs.length, cellsIn s.mem l.cell bs.length, k, host⟩ :: s.past else s.past }

/-- Bytes written at a place by an agent at its next key (R175, R299). -/
def State.put (s : State) (agent : Nat) (l : Loc) (bs : List Byte) : State × Key :=
  let r := s.noteWrite agent l
  (r.1.writeBytes l bs r.2 none, r.2)

/-- Places of gallery DRAM written by an agent at one key, past the leases of all their lines (R349). -/
def State.putAll (s : State) (agent : Nat) (ws : List (Loc × List Byte)) : State × Key :=
  let r := s.nextKey agent (ws.foldl (fun a w => Nat.max a (s.lineRts w.1.line + 1)) 0)
  (ws.foldl (fun (z : State) w => (z.homeWrite w.1 r.2).writeBytes w.1 w.2 r.2 none) r.1, r.2)

/-! ## The accesses of a walk (R187, R188, R297) -/

/-- The reads of a walk: each entry, and for a framed page the stage word, at the agent's next keys; a vault logs those of
lines with errors (R339, R404). -/
def State.walkReads (s : State) (agent gi : Nat) : List Nat → State
  | [] => s
  | a :: rest => ((s.noteRead agent (.dram gi a)).1.notePoison (.dram gi a)).walkReads agent gi rest

/-- The vaults log the entries of lines with errors that the walk of an address reads, where it fails (R187, R339, R404). -/
def State.noteWalk (s : State) (gi : Nat) (va : DWord) : State :=
  match s.gal gi with
  | some g =>
    if va.toNat / 2 ^ 56 = 0 then
      (walkEntries s.readable gi g.memSize 4 1 g.groot.toNat va.toNat).foldl
        (fun (z : State) a => z.notePoison (.dram gi a)) s
    else s
  | none => s

/-- Every line of memory supplies its data without correction. -/
def State.noErrors (s : State) : Bool := s.bad.isEmpty && s.worn.isEmpty

/-- The leases of the entries that a walk read reach past the key of the access that follows it at once, so that a store to
one of them that comes later in the order is one that the access need not see (R188). -/
def State.leaseWalk (s : State) (agent gi : Nat) (x : Xlat) : State :=
  let T := Nat.max (s.pts agent) (s.lineRts x.loc.line) + 2
  { s with
    rts := x.trail.foldl (fun r a =>
      tset r (Loc.dram gi a).line (Nat.max T (s.lineRts (Loc.dram gi a).line)) 0) s.rts }

/-- AC set before an access that reads through the leaf and D before a write, by one indivisible OR (R187). -/
def State.markLeaf (s : State) (agent gi : Nat) (x : Xlat) (k : Acc) : State :=
  let e := numAt s.mem (Loc.dram gi x.ea).cell 8
  let e1 := if k.readsThrough && !bit e 7 then e + 2 ^ 7 else e
  let e2 := if k.writes && !bit e1 8 then e1 + 2 ^ 8 else e1
  if e2 = e then s else (s.put agent (.dram gi x.ea) (leBytes 8 e2)).1

/-- The accesses that a translation makes before the access that it serves. -/
def State.walked (s : State) (agent gi : Nat) (x : Xlat) (k : Acc) : State :=
  ((s.walkReads agent gi x.trail).markLeaf agent gi x k).leaseWalk agent gi x

end Sys2Proof.Machine
end

