-- ==== Sys2Proof/Machine/Ops.lean ====
section
/-! DEFINITION. The shared operations: keys of threads, casts, cores and tiles; cues (R77, R78); what a check can answer
(R192); taking a trap (R193, R194, R197, R437) and returning from it (R196); the accesses of a thread (R174 to R192);
and the entry of every word, with the checks of R192. -/
namespace Sys2Proof.Machine

abbrev Out := Host.Outcome State Fault Refusal

/-! ## Cues (R77, R78) -/

/-- Cue k; a number of 12 or more names no cue. -/
def Thread.cue (t : Thread) (k : Nat) : Nat := tget t.k k 0
/-- A class operation adds 1 to its cue. -/
def Thread.incCue (t : Thread) (k : Nat) : Thread :=
  if k < 12 then { t with k := tset t.k k (t.cue k + 1) 0 } else t
/-- A completion subtracts 1; a cue at zero stays there. -/
def Thread.decCue (t : Thread) (k : Nat) : Thread :=
  if k < 12 then { t with k := tset t.k k (t.cue k - 1) 0 } else t
/-- The cue has no room for one more operation. -/
def Thread.cueFull (t : Thread) (k : Nat) : Bool := decide (k < 12) && decide (7 ≤ t.cue k)

/-! ## What a check or an access can answer -/

/-- A trap to be taken at the instruction: its cause, TVAL, and a page fault's detail and access kind. -/
structure TrapInfo where
  cause : Cause
  tval : DWord
  fkind : Nat
  acc : Nat
  deriving DecidableEq, Repr

/-- A cause with its TVAL. -/
def trapOf (c : Cause) (v : DWord) : TrapInfo := ⟨c, v, 0, 0⟩

/-- The outcome of a part of an instruction: it goes on, it traps (R192), it does not issue yet and its chorus keeps
its lane (R78, R322), its thread is held at the word (R215), or nothing is there to reach. -/
inductive Res (α : Type) where
  | ok (a : α)
  | trap (x : TrapInfo)
  /-- A trap after accesses of the instruction that stand: the state and the thread as they left them. -/
  | late (s : State) (t : Thread) (x : TrapInfo)
  | wait
  | hold (h : Held)
  | fault (f : Fault)

/-- Sequencing: the first answer that is not ok is the answer. -/
def Res.bind {α β : Type} (r : Res α) (f : α → Res β) : Res β :=
  match r with
  | .ok a => f a
  | .trap x => .trap x
  | .late s t x => .late s t x
  | .wait => .wait
  | .hold h => .hold h
  | .fault e => .fault e

/-- A trap after accesses that stand: the POISON they owe and the marks they made are kept (R187, R194). -/
def Res.after {α : Type} (r : Res α) (s : State) (t : Thread) : Res α :=
  match r with
  | .trap x => .late s t x
  | y => y

/-- ok where the condition holds, else the trap. -/
def Res.check (b : Bool) (c : Cause) (v : DWord) : Res Unit := if b then .ok () else .trap (trapOf c v)

/-! ## Taking a trap (R190, R193, R197) -/

/-- The bit of a cause in TCAUSE (R190). -/
def Cause.num : Cause → Nat
  | .illegal => 0 | .priv => 1 | .budget => 2 | .hazard => 3 | .page => 4 | .align => 5 | .target => 6 | .bound => 7
  | .range => 8 | .poison => 9 | .rdv => 10 | .mismatch => 11 | .diverge => 12 | .resv => 13 | .engine => 14
  | .name => 15 | .trap => 16 | .bkpt => 17 | .hwbp => 18 | .watch => 19 | .step => 20 | .halt => 21 | .slice => 22

/-- Causes as bits of TCAUSE. -/
def causeBits : List Cause → BitVec 23
  | [] => 0
  | c :: t => (1#23 <<< c.num) ||| causeBits t

/-- Bits [55:2] of an address: what TEPC, TVEC.BASE and BPADDR hold (R195). -/
def pcBits (x : DWord) : DWord := x &&& 0x00FF_FFFF_FFFF_FFFC

/-- TVEC.BASE and TVEC.EN of a cast (R195). -/
def Cast.tvecBase (c : Cast) : DWord := pcBits c.tvec
def Cast.tvecEn (c : Cast) : Bool := c.tvec.getLsbD 0

/-- HALT is due at this privilege: requested, or held in PEND (R193, R194). -/
def Thread.dueHalt (t : Thread) : Bool := decide (t.priv = .program) && (t.haltDue || t.tstat.pendHalt)
def Thread.dueSlice (t : Thread) : Bool := decide (t.priv = .program) && (t.sliceDue || t.tstat.pendSlice)

/-- The causes of an entry: those given, and HALT and SLICE where they are due, which always fold (R194). -/
def Thread.entryCauses (t : Thread) (cs : List Cause) : List Cause :=
  cs ++ (if t.dueHalt then [.halt] else []) ++ (if t.dueSlice then [.slice] else [])

/-- A signature that is withdrawn restores cue B (R216, R225). -/
def Thread.withdraw (t : Thread) : Thread :=
  match t.held with
  | some (.sign _ _ _ _) => { t.decCue t.cueB with held := none }
  | _ => { t with held := none }

/-- Ticks of waiting that PIDX records for a WAIT (R90). -/
def Thread.elapsed (t : Thread) (tick : Nat) : Nat :=
  Nat.min (fld t.pidx.toNat 35 25 + (tick - t.waitSince)) (2 ^ 25 - 1)

/-- A Waiting thread stops at its WAIT, the time spent kept in PIDX (R90). -/
def Thread.pauseWait (t : Thread) (tick : Nat) : Thread :=
  if t.run = .waiting then
    { t with
      pidx := BitVec.ofNat 64 (2 ^ 60 + t.elapsed tick * 2 ^ 35 + fld t.pidx.toNat 0 32)
      waitOn := none }
  else t

/-- The thread's own part of trap entry (R193); a suppression that no instruction has used yet is dropped (log 34). -/
def Thread.enter (t0 : Thread) (base : DWord) (cs : List Cause) (tval : DWord) (fk acc : Nat) (pc hdr : DWord)
    (tick : Nat) : Thread :=
  let t := (t0.pauseWait tick).withdraw
  let all := t.entryCauses cs
  let prog := decide (t.priv = .program)
  { t with
    tcause := t.tcause ||| causeBits all
    tepc := pcBits pc
    tval := tval
    tstat :=
      { fkind := BitVec.ofNat 8 fk
        pendHalt := !prog && t.tstat.pendHalt
        pendSlice := !prog && t.tstat.pendSlice
        acc := BitVec.ofNat 2 acc
        dist := BitVec.ofNat 5 ((pc - hdr).toNat / 4)
        skip := all.contains .hwbp || all.contains .watch
        nest := !prog
        ppriv := t.priv }
    haltDue := !prog && t.haltDue
    sliceDue := !prog && t.sliceDue
    haltIn := t.haltIn || all.contains .halt
    sliceIn := t.sliceIn || all.contains .slice
    priv := .supervisor
    pc := base
    hdr := base
    inScene := false
    cueA := 15
    cueB := 15
    pfx := none
    suppress := false
    run := .filed
    age := tick }

/-- A thread that ends: EXIT, or an unhandled trap (R85, R197). Owed POISON is dropped (R437). -/
def Thread.ended (t : Thread) : Thread :=
  { t.withdraw with run := .exited, pfx := none, inScene := false, poison := none, haltDue := false, sliceDue := false }

/-- An unhandled end of a key: the count, and of the end with the lowest key its cast, TID, causes and TEPC (R346). -/
def Prod.noteEnd (p : Prod) (x : List DWord) (k : Key) : Prod :=
  let first := p.first.isEmpty || k.before p.firstKey
  { p with
    unhandled := p.unhandled + 1
    first := if first then x else p.first
    firstKey := if first then k else p.firstKey }

/-- An unhandled end in the completion status of its production (R197, R346); the core logs it (R339). -/
def State.recordUnhandled (s : State) (c : Cast) (tk : Nat) (causes : BitVec 23) (tepc : DWord) : State :=
  let s1 := s.log logCore (c.coreNo.getD 0) 1 c.gallery (causes.setWidth 64)
  { s1 with prods := tmod s1.prods c.prod (fun p =>
      p.noteEnd [BitVec.ofNat 64 c.gidx, BitVec.ofNat 64 (tidOf tk), causes.setWidth 64, tepc] (s.nowKey c.agent)) }

/-- The DIVERGE of the lowest q that a thread is owed at its privilege and that no entry left out (R437). -/
def Thread.divergeOwed (t : Thread) (tk : Nat) (c : Cast) : Option (Nat × QReg) :=
  c.q.find? (fun p => p.2.owed.contains (tidOf tk, t.priv) && !t.kept.contains (1 + p.1))

/-- The owed ENGINEs of a thread at its privilege, by operation. -/
def State.enginesOwed (s : State) (tk : Nat) (t : Thread) : List (Nat × EngOp) :=
  s.ops.filter (fun p => p.2.owed && p.2.tk == tk && decide (p.2.priv = t.priv))

/-- What an entry leaves owed of what is due: it waits for the thread's return by RETT (R194). -/
def State.leftOwed (s : State) (tk : Nat) (t : Thread) (c : Cast) : List Nat :=
  (if t.poison.isSome then [0] else []) ++
    (c.q.filter (fun p => p.2.owed.contains (tidOf tk, t.priv))).map (fun p => 1 + p.1) ++
    (s.enginesOwed tk t).map (fun p => 17 + p.1)

/-- Trap entry of a thread (R193): the causes cs with what folds into them, the value of the synchronous or deferred
one, the page fault's detail, and the resume address with its scene's header. -/
def State.enterTrap (s : State) (tk : Nat) (t : Thread) (c : Cast) (cs : List Cause) (tval : DWord) (fk acc : Nat)
    (pc hdr : DWord) : State :=
  let t' := { t.enter c.tvecBase cs tval fk acc pc hdr s.tick with kept := t.kept ++ s.leftOwed tk t c }
  if !c.tvecEn || (t'.tstat.nest && t'.tepc == c.tvecBase) then
    (s.putT tk t'.ended).recordUnhandled c tk (causeBits (t.entryCauses cs)) t'.tepc
  else s.putT tk t'

/-- The resume address of a synchronous cause: the instruction, which begins at its prefix (R193, R202). -/
def Thread.instrPc (t : Thread) : DWord :=
  match t.pfx with
  | some _ => t.pc - 4
  | none => t.pc

/-- A synchronous trap at the thread's instruction. -/
def State.trapAt (s : State) (tk : Nat) (t : Thread) (c : Cast) (x : TrapInfo) : State :=
  s.enterTrap tk t c [x.cause] x.tval x.fkind x.acc t.instrPc t.hdr

/-! ## Owed and asynchronous causes (R194, R216, R437) -/

/-- The owed cause that an entry without a value of its own takes first: DIVERGE of the lowest q, ENGINE of the lowest
record, POISON; with its TVAL and the state and thread in which it is owed no more. -/
def State.takeOwed (s : State) (tk : Nat) (t : Thread) (c : Cast) : Option (Cause × DWord × State × Thread × Cast) :=
  match t.divergeOwed tk c with
  | some (n, r) =>
    let r' := { r with owed := r.owed.filter (fun o => o != (tidOf tk, t.priv)) }
    let c' := { c with q := tput c.q n r' }
    some (.diverge, r.owedTval, s.putC (castOf tk) c', t, c')
  | none =>
    let mine := (s.enginesOwed tk t).filter (fun p => !t.kept.contains (17 + p.1))
    let lowest := mine.foldl (fun (a : Option (Nat × EngOp)) p =>
      match a with
      | none => some p
      | some q => if p.2.slot < q.2.slot then some p else a) none
    match lowest with
    | some (n, o) => some (.engine, o.ftval, { s with ops := tdel s.ops n }, t, c)
    | none =>
      match t.poison with
      | some p => if t.kept.contains 0 then none else some (.poison, p.2, s, { t with poison := none }, c)
      | none => none

/-- A hold at a boundary point (R216). -/
def Held.boundary : Held → Bool
  | .rdv _ _ | .sign _ _ _ _ | .bar _ _ _ | .gbar _ _ _ _ => true
  | .astore _ _ | .fence _ _ _ | .slot _ | .publish _ | .ctxsave _ | .snapshot | .mcst _ _ _ => false

/-- The thread stands where HALT, SLICE and POISON are delivered: not yet drawn, waiting, between scenes, or at a word
that R216 makes a boundary point (R194). -/
def Thread.atBoundary (t : Thread) : Bool :=
  match t.run with
  | .filed | .queued | .waiting => true
  | .exited => false
  | .member =>
    match t.held with
    | some h => h.boundary
    | none => !t.inScene

/-- The thread stands where an owed DIVERGE or ENGINE is delivered: waiting, held at a boundary point, or before the next
word of the scene that it is in; a header is no word (R83, R282, R325). -/
def Thread.atWord (t : Thread) : Bool :=
  match t.run with
  | .waiting => true
  | .filed | .queued | .exited => false
  | .member =>
    match t.held with
    | some h => h.boundary
    | none => t.inScene

/-- POISON is owed and no entry has left it out since the thread's last RETT (R194). -/
def Thread.poisonDue (t : Thread) : Bool := t.poison.isSome && !t.kept.contains 0

/-- DIVERGE or ENGINE is owed at the thread's privilege, and no entry has left it out since its last RETT. -/
def State.wordOwed (s : State) (tk : Nat) (t : Thread) (c : Cast) : Bool :=
  (t.divergeOwed tk c).isSome || (s.enginesOwed tk t).any (fun p => !t.kept.contains (17 + p.1))

/-- Entry for causes without a value, taking an owed cause with it where one is owed (R194); the thread resumes at its
instruction, which begins at its prefix. -/
def State.enterAsync (s : State) (tk : Nat) (t : Thread) (c0 : Cast) (cs : List Cause) : State :=
  let c := (s.cast (castOf tk)).getD c0
  match s.takeOwed tk t c with
  | some (k, v, s', t', c') => s'.enterTrap tk t' c' (cs ++ [k]) v 0 0 t.instrPc t.hdr
  | none => s.enterTrap tk t c cs 0 0 0 t.instrPc t.hdr

/-- The gallery of a cast is in a quiesce, after which HALT and SLICE are delivered (R391). -/
def State.quiescing (s : State) (c : Cast) : Bool :=
  match s.gal c.gallery with
  | some g => decide (g.state = .quiescing)
  | none => false

/-- Causes of a thread that are due where it stands are delivered, one entry (R194, R282, R437); HALT and SLICE by themselves
wait for the end of a quiesce (R391, log 24). -/
def State.deliver (s : State) (tk : Nat) : State :=
  match s.thread tk, s.cast (castOf tk) with
  | some t, some c =>
    if (t.atBoundary && (((t.dueHalt || t.dueSlice) && !s.quiescing c) || t.poisonDue)) || (t.atWord && s.wordOwed tk t c) then
      s.enterAsync tk t c []
    else s
  | _, _ => s

/-- A debugger halt is requested of a thread (R194, R203). -/
def Thread.requestHalt (t : Thread) : Thread :=
  if t.run = .exited then t
  else if t.priv = .program then { t with haltDue := true }
  else { t with tstat := { t.tstat with pendHalt := true } }
/-- A slice expiry is notified to a thread (R194, R364). -/
def Thread.requestSlice (t : Thread) : Thread :=
  if t.run = .exited then t
  else if t.priv = .program then { t with sliceDue := true }
  else { t with tstat := { t.tstat with pendSlice := true } }

/-! ## The end of an instruction -/

/-- Program order goes on past the instruction: n bytes further, the prefix used, and after the E word at the next
scene's header. -/
def Thread.advance (t : Thread) (e : Bool) (n : Nat) : Thread :=
  let pc := t.pc + BitVec.ofNat 64 n
  if e then { t with pc := pc, hdr := pc, inScene := false, pfx := none, suppress := false }
  else { t with pc := pc, pfx := none, suppress := false }

/-- A thread that has completed an instruction: a single-stepped one takes STEP at its next instruction (R202). -/
def State.complete (s : State) (tk : Nat) (t : Thread) (c : Cast) : State :=
  if t.step && decide (t.priv = .program) then s.enterAsync tk t c [.step] else s.putT tk t

/-- The instruction is complete and the thread goes on at the next word, or at the next scene where e ends this one. -/
def State.finish (s : State) (tk : Nat) (t : Thread) (c : Cast) (e : Bool) (n : Nat) : State :=
  s.complete tk (t.advance e n) c

/-! ## Returning from a trap (R196) -/

/-- RETT: to TEPC under the header DIST words back, at the privilege saved; a HALT or SLICE held in PEND enters again
at once, or stays held while the gallery is in a quiesce (R391). The handler of a HALT or SLICE is left when the thread
returns to program privilege; a return from a trap nested in it goes on in it (R194, R364). -/
def State.returnTrap (s : State) (tk : Nat) (t : Thread) (c : Cast) : State :=
  let target := t.tepc
  let hdr := target - BitVec.ofNat 64 (4 * t.tstat.dist.toNat)
  let back := { t with
    priv := t.tstat.ppriv
    haltIn := t.haltIn && decide (t.tstat.ppriv = .supervisor)
    sliceIn := t.sliceIn && decide (t.tstat.ppriv = .supervisor)
    kept := []
    pfx := none }
  if t.tstat.ppriv = .program && (t.tstat.pendHalt || t.tstat.pendSlice) && !s.quiescing c then
    s.enterTrap tk back c [] 0 0 0 target hdr
  else
    s.putT tk { back with
      suppress := t.tstat.skip
      tstat := { t.tstat with skip := false }
      pc := target
      hdr := hdr
      inScene := false
      run := .filed
      age := s.tick }

/-! ## Checks of R192 before an instruction executes -/

/-- Budget (R60): the first register, in the order given, at or above the thread's budget. -/
def budgetFails (c : Cast) (regs : List Nat) : Option Nat :=
  regs.find? (fun r => if r < 64 then decide (c.vbud ≤ r) else decide (c.sbud ≤ r - 64))

/-- Cue hazard (R80): the first register, in the order given, that is outstanding. -/
def Thread.hazardOn (t : Thread) (regs : List Nat) : Option Nat :=
  regs.find? (fun r => t.outst.any (fun o => o.regs.contains r))

/-- A breakpoint or watchpoint filter matches the thread: TID and privilege (R201). -/
def filterMatches (ctl : DWord) (t : Thread) (tid : Nat) : Bool :=
  let m := (ctl >>> 33).setWidth 11
  let v := (ctl >>> 22).setWidth 11
  ctl.getLsbD 0 && decide (((BitVec.ofNat 11 tid ^^^ v) &&& m) = 0#11) &&
    (ctl.getLsbD 2 || (ctl.getLsbD 1 == decide (t.priv = .supervisor)))

/-- The lowest breakpoint that hits at an address (R201). -/
def breakpointAt (c : Cast) (t : Thread) (tid : Nat) (a : DWord) : Option Nat :=
  if t.suppress then none
  else (List.range 8).find? (fun n =>
    filterMatches (tget c.bpctl n 0) t tid && decide (pcBits (tget c.bpaddr n 0) = a))

/-- Budget, hazard and breakpoint: steps 2 to 4 of R192. -/
def preChecks (t : Thread) (c : Cast) (tid : Nat) (regs : List Nat) : Option TrapInfo :=
  match budgetFails c regs with
  | some r => some (trapOf .budget (BitVec.ofNat 64 r))
  | none =>
    match t.hazardOn regs with
    | some r => some (trapOf .hazard (BitVec.ofNat 64 r))
    | none =>
      match breakpointAt c t tid t.pc with
      | some n => some (trapOf .hwbp (BitVec.ofNat 64 n))
      | none => none

/-- The chorus that a thread is a member of. -/
def State.chorusOf (s : State) (tk : Nat) : Option Chorus :=
  match (s.cast (castOf tk)).bind Cast.coreNo with
  | none => none
  | some k => ((s.core k).chorus.find? (fun p => p.2.ck == castOf tk && p.2.members.contains (tidOf tk))).map (·.2)

/-- The s-registers that a uniform word of the thread in focus may wait for: those that a V2S wrote last in some member of
its chorus (R75). -/
def State.lag (s : State) (t : Thread) : BitVec 32 :=
  t.v2s ||| (match s.chorusOf s.focus with
    | some x => x.lag
    | none => 0)

/-- A uniform read of an s-register last written by a V2S may wait, which charges LODC of every member of the chorus; whether
it waits is free, and one choice for the chorus (R75, R76, log 9). -/
def State.charge (s : State) (t : Thread) (ss : List Nat) : State × Thread :=
  if ss.any (fun n => (s.lag t).getLsbD n) then
    match s.chorusOf s.focus with
    | some x => (s, { t with lodc := t.lodc + (if Config.freeCharge x.draw then 1 else 0) })
    | none => ({ s with free := s.free + 1 }, { t with lodc := t.lodc + (if Config.freeCharge s.free then 1 else 0) })
  else (s, t)

/-- The outcome of an instruction of thread t. -/
def State.settle (s : State) (tk : Nat) (t : Thread) (c : Cast) (r : Res State) : Out :=
  match r with
  | .ok s' => .next s'
  | .trap x => .next (s.trapAt tk t c x)
  | .late s' t' x => .next (s'.trapAt tk t' c x)
  | .wait => .next s
  | .hold h => .next (s.putT tk { t with held := some h })
  | .fault f => .fault f

/-- The entry of every word: the thread in focus, the checks of R192 in order (first the privilege checks of pre, then
budget, hazard and breakpoint on the registers the word uses, in field order), then the word's own effect. -/
def issue (pre : Thread → Option TrapInfo) (regs : Thread → List Nat) (body : Thread → Cast → Res State)
    (s : State) : Out :=
  match s.thread s.focus, s.cast (castOf s.focus) with
  | some t, some c =>
    match pre t with
    | some x => .next (s.trapAt s.focus t c x)
    | none =>
      match preChecks t c (tidOf s.focus) (regs t) with
      | some x => .next (s.trapAt s.focus t c x)
      | none => s.settle s.focus t c (body t c)
  | _, _ => .refused .noThread

/-- No privilege check. -/
def anyPriv (_ : Thread) : Option TrapInfo := none
/-- Supervisor only: PRIV with TVAL 0 at program privilege (R4, R190). -/
def supervisorOnly (t : Thread) : Option TrapInfo :=
  if t.priv = .program then some (trapOf .priv 0) else none

/-- A lane word that changes only its own thread's registers. dst are the registers it writes and src those it reads, in
field order; a masked-off thread zeroes dst where Z asks for it, and then only dst is checked (R31, log 7). -/
def laneWord (e : Bool) (dst src : Thread → List Nat) (f : Thread → Res Thread) (s : State) : Out :=
  issue anyPriv
    (fun t => if t.masked then (if t.zeroing then dst t else []) else dst t ++ src t)
    (fun t c =>
      if t.masked then
        .ok (s.finish s.focus
          (if t.zeroing then (dst t).foldl (fun x r => x.setLane r 0) t else t) c e 4)
      else (f t).bind (fun t' => .ok (s.finish s.focus t' c e 4)))
    s

/-- A uniform word that changes only its own thread's registers: src are the s-registers it reads. -/
def uniWord (e : Bool) (n : Nat) (regs : List Nat) (src : List Nat) (f : Thread → Thread) (s : State) : Out :=
  issue anyPriv (fun _ => regs)
    (fun t c =>
      let p := s.charge t src
      .ok (p.1.finish s.focus (f p.2) c e n))
    s

/-- A uniform register written by a uniform word is no longer last written by a V2S (R75). -/
def Thread.putUni (t : Thread) (n : Nat) (x : DWord) : Thread :=
  { t.setUni n x with v2s := putBit t.v2s n false }

/-! ## The accesses of a thread -/

/-- The spaces of an access (R174). -/
inductive Space where
  | global
  | scratch
  | weights
  deriving DecidableEq, Repr

/-- The lowest watchpoint that an access hits (R201). Weight-store accesses hit none. -/
def watchpointAt (c : Cast) (t : Thread) (tid : Nat) (sp : Space) (a : DWord) (n : Nat) (k : Acc) : Option Nat :=
  if t.suppress || decide (sp = .weights) then none
  else (List.range 4).find? (fun i =>
    let ctl := tget c.wpctl i 0
    let len := Nat.min (fld ctl.toNat 17 5) 24
    let lo := (tget c.wpaddr i 0).toNat % 2 ^ 56 / 2 ^ len * 2 ^ len
    filterMatches ctl t tid && (ctl.getLsbD 5 == decide (sp = .scratch)) &&
      ((k.reads && ctl.getLsbD 3) || (k.writes && ctl.getLsbD 4)) &&
      decide (lo < a.toNat + n) && decide (a.toNat < lo + 2 ^ len))

/-- A page fault at an address. -/
def pageFault (a : DWord) (fk : Nat) (k : Acc) : TrapInfo := ⟨.page, a, fk, k.code⟩

/-- Where an address of a space lies: range (R174) or translation (R187), steps 6 and 7 of R192, with the accesses of its
walk. -/
def State.locate (s : State) (t : Thread) (c : Cast) (ck : Nat) (sp : Space) (a : DWord) (n : Nat) (k : Acc) :
    Res (State × Loc) :=
  if a.toNat % n ≠ 0 then .trap (trapOf .align a)
  else
    match s.gal c.gallery with
    | none => .fault .noSuchAddress
    | some g =>
      match sp with
      | .scratch =>
        if c.spsize < a.toNat + n then .trap (trapOf .range a) else .ok (s, .scratch ck a.toNat)
      | .weights =>
        if g.wsSize < a.toNat + n then .trap (trapOf .range a) else .ok (s, .weights c.gallery a.toNat)
      | .global =>
        match translate s.readable c.gallery g a t.priv k with
        | .fail fk =>
          if s.noErrors then .trap (pageFault a fk k) else .late (s.noteWalk c.gallery a) t (pageFault a fk k)
        | .off => .fault .noSuchAddress
        | .ok x => .ok (s.walked c.agent c.gallery x k, x.loc)

/-- The checks of R192 steps 6 to 8 for one access of a thread: alignment, range or translation, watchpoint. -/
def State.checked (s : State) (t : Thread) (c : Cast) (tk : Nat) (sp : Space) (a : DWord) (n : Nat) (k : Acc) :
    Res (State × Loc) :=
  (s.locate t c (castOf tk) sp a n k).bind (fun p =>
    match watchpointAt c t (tidOf tk) sp a n k with
    | some i => .trap (trapOf .watch (BitVec.ofNat 64 (i * 2 ^ 56 + a.toNat % 2 ^ 56)))
    | none => .ok p)

/-- The position in a snapshot's stream of a physical address on a frozen page (R395). -/
def streamPos : List (Nat × Nat × Nat) → Nat → Nat → Option Nat
  | [], _, _ => none
  | (_, b, p) :: t, a, acc =>
    if decide (p ≤ a) && decide (a < p + 2 ^ b) then some (acc + (a - p)) else streamPos t a (acc + 2 ^ b)

/-- The first write to a frozen line that is not streamed copies the old line to the reserve; a full reserve holds the
writer (R395). -/
def State.snapGuard (s : State) (l : Loc) : Res State :=
  match l with
  | .dram gi a =>
    match s.gal gi with
    | none => .ok s
    | some g =>
      match g.snap with
      | none => .ok s
      | some n =>
        match streamPos n.pages a 0 with
        | none => .ok s
        | some pos =>
          if pos / 128 * 128 < n.streamed || n.copied.contains (a / 128) then .ok s
          else if (n.copied.length + 1) * 128 + g.imaged ≤ g.snapres.toNat then
            .ok (s.putG gi { g with snap := some { n with copied := n.copied ++ [a / 128] } })
          else .hold .snapshot
  | _ => .ok s

/-- The store of the n low bytes of x at a place, at one key (R175, R299). -/
def State.store (s : State) (agent : Nat) (l : Loc) (n x : Nat) : Res (State × Key) :=
  (s.snapGuard l).bind (fun s1 => .ok (s1.put agent l (leBytes n x)))

/-- The key of a thread's access to n cells from one on (R305). -/
def seeCells (m : Tab Key) (a : Nat) (key : Key) : Nat → Tab Key
  | 0 => m
  | n + 1 => seeCells (tput m (a + n) key) a key n
/-- The thread has made an access to a place at a key. -/
def Thread.see (t : Thread) (l : Loc) (n : Nat) (key : Key) : Thread :=
  if l.global then { t with seen := seeCells t.seen l.cell key n } else t

/-- Poison read by the access of a numbered operation is owed with its address; the earliest in program order stands
(R194). -/
def Thread.owePoison (t : Thread) (bad : Bool) (op : Nat) (a : DWord) : Thread :=
  if bad then
    match t.poison with
    | some p => if p.1 ≤ op then t else { t with poison := some (op, a) }
    | none => { t with poison := some (op, a) }
  else t

/-! ## Reads of host and pool memory (R316) -/

/-- The place is in host or pool memory. -/
def Loc.isHost : Loc → Bool
  | .host _ | .pool _ => true
  | _ => false

/-- The bytes from cell a on as they stood before a write. -/
def undo (a : Nat) (p : Past) (bs : List Byte) : List Byte :=
  (bs.zipIdx).map (fun (b, i) => if p.cell ≤ a + i ∧ a + i < p.cell + p.size then byteAt p.old (a + i) else b)

/-- The write touched some of n cells from a on. -/
def Past.touches (p : Past) (a n : Nat) : Bool := decide (p.cell < a + n) && decide (a < p.cell + p.size)

/-- A value that bytes have held: the key of the device write that made it, the host writes that it is sure to have after it,
and those that it may have after it. -/
structure OldValue where
  x : Nat
  key : Key
  lo : Nat
  hi : Nat
  deriving DecidableEq, Repr

/-- The key of the latest device write to n cells from a on; k where none is known. -/
def lastWrite (a n : Nat) (k : Key) (ps : List Past) : Key :=
  match ps.find? (fun p => p.touches a n && p.host.isNone) with
  | some p => p.key
  | none => k

/-- What bytes from cell a on, the present ones given, may still read as, the present value first: back to the first H host
writes, and behind device writes whose keys older tells; k is the key of the first value where no device write made it, and n
the host writes made so far (R305, R312, R316). -/
def oldValues (a : Nat) (older : Key → Bool) (H : Nat) (k : Key) : List Past → List Byte → Nat → List OldValue
  | [], bs, n => [⟨leNat bs, k, H, n⟩]
  | p :: t, bs, n =>
    if p.touches a bs.length then
      match p.host with
      | some i =>
        if H ≤ i then ⟨leNat bs, lastWrite a bs.length k t, i + 1, n⟩ :: oldValues a older H k t (undo a p bs) i
        else [⟨leNat bs, lastWrite a bs.length k t, H, n⟩]
      | none =>
        if older p.key then ⟨leNat bs, p.key, H, n⟩ :: oldValues a older H k t (undo a p bs) n
        else [⟨leNat bs, p.key, H, n⟩]
    else oldValues a older H k t bs n

/-- A load under way of a line may have no host write after the first n from now on. -/
def LateLoad.capped (x : LateLoad) (n : Nat) : LateLoad :=
  { x with bound := some (match x.bound with
    | some b => Nat.min b n
    | none => n) }

/-- The thread's accesses to a line of host memory are kept in order: it has seen lo host writes, and its loads of the line
under way have none after hi (R316). -/
def Thread.seeHost (t : Thread) (l : Loc) (lo hi : Nat) : Thread :=
  if l.isHost then
    { t with
      hostLines := tput t.hostLines l.line (Nat.max lo (tget t.hostLines l.line 0))
      late := t.late.map (fun x => if x.place.line = l.line then x.capped hi else x) }
  else t

/-- What a read of n bytes of host or pool memory by a thread may give: the present value or one that a host agent has since
overwritten, back to the thread's latest FENCE.H, satisfied WAIT and access to the line (R316, log 36). -/
def State.hostValues (s : State) (t : Thread) (l : Loc) (n : Nat) : List OldValue :=
  oldValues l.cell (fun _ => false) (Nat.max t.hostFrom (tget t.hostLines l.line 0)) Key.zero s.past
    (bytesAt s.mem l.cell n) s.hostCount

/-- A read of host or pool memory: one of the values that it may give; which is free (R316, log 36). -/
def State.getHost (s : State) (t : Thread) (agent : Nat) (l : Loc) (n : Nat) : Got × Thread :=
  let vs := s.hostValues t l n
  let v := vs.getD (Config.freeChoice s.free % vs.length) ⟨0, Key.zero, 0, 0⟩
  let r := ({ s with free := s.free + 1 } : State).noteRead agent l
  (⟨r.1.notePoison l, if s.poisoned l then 0 else v.x, s.poisoned l, r.2⟩, t.seeHost l v.lo v.hi)

/-- The values that LD writes, one for each of its registers (R178). -/
def loadVals (z : BitVec 3) (x : Nat) : List DWord :=
  match z.toNat with
  | 3 => [BitVec.ofNat 64 (fld x 0 32), BitVec.ofNat 64 (fld x 32 32)]
  | 4 => [BitVec.ofNat 64 (fld x 0 32), BitVec.ofNat 64 (fld x 32 32), BitVec.ofNat 64 (fld x 64 32),
      BitVec.ofNat 64 (fld x 96 32)]
  | 5 => [((BitVec.ofNat 8 x).signExtend 32).setWidth 64]
  | 6 => [((BitVec.ofNat 16 x).signExtend 32).setWidth 64]
  | _ => [BitVec.ofNat 64 x]

/-- What bytes from cell a on have become by host writes numbered from L on, while no device had written them after a key:
each value with the host writes that made it; vs are those found so far (R299, R316). -/
def lateValues (a L : Nat) (key : Key) : List Past → List Byte → List (Nat × Nat) → List (Nat × Nat)
  | [], _, vs => vs
  | p :: t, bs, vs =>
    if p.touches a bs.length then
      match p.host with
      | some k => if L ≤ k then lateValues a L key t (undo a p bs) (vs ++ [(leNat bs, k + 1)]) else vs
      | none => if key.before p.key then lateValues a L key t (undo a p bs) [] else vs
    else lateValues a L key t bs vs

/-- The values that a load under way may still take in place of that of its issue, each with the host writes that made it. -/
def State.lateChoices (s : State) (x : LateLoad) : List (Nat × Nat) :=
  (lateValues x.place.cell x.since x.key s.past (bytesAt s.mem x.place.cell x.size) []).filter (fun v =>
    match x.bound with
    | some b => decide (v.2 ≤ b)
    | none => true)

/-- An operation completes with the values of its issue; a load of host or pool memory may take a later one, which is free, and
its thread has then seen what made it (R316, log 36). -/
def State.landed (s : State) (t : Thread) (o : Outst) : State × Thread × List DWord :=
  let t1 := { t with late := t.late.filter (fun x => x.op != o.op) }
  match t.late.find? (fun x => x.op == o.op) with
  | none => (s, t, o.vals)
  | some x =>
    let vs := s.lateChoices x
    match vs[Config.freeChoice s.free % (vs.length + 1)]? with
    | some v => ({ s with free := s.free + 1 }, t1.seeHost x.place v.2 s.hostCount, loadVals x.form v.1)
    | none => ({ s with free := s.free + 1 }, t1, o.vals)

/-- What a place of the weight store held when the cast's production started (R294). -/
def State.weightValue (s : State) (prod : Nat) (l : Loc) (n : Nat) : Nat :=
  if s.poisoned l then 0
  else
    match tfind s.prods prod with
    | some p => numAt p.code l.cell n
    | none => 0

/-- A read of n bytes by a thread at one key: the state, the thread and the value (R178, R194, R294, R305, R316). -/
def State.readBy (s : State) (t : Thread) (c : Cast) (a : DWord) (l : Loc) (n : Nat) : State × Thread × Nat :=
  match l with
  | .weights _ _ => (s.notePoison l, t.owePoison (s.poisoned l) s.nextOp a, s.weightValue c.prod l n)
  | .host _ | .pool _ =>
    let r := s.getHost t c.agent l n
    (r.1.s, (r.2.see l n r.1.key).owePoison r.1.bad s.nextOp a, r.1.x)
  | .dram _ _ | .scratch _ _ =>
    let r := s.get c.agent l n
    (r.s, (t.see l n r.key).owePoison r.bad s.nextOp a, r.x)

/-- The access of ST: one store at one key, seen by its thread (R178). -/
def State.storeBy (s : State) (t : Thread) (c : Cast) (l : Loc) (n x : Nat) : Res (State × Thread) :=
  (s.store c.agent l n x).bind (fun r => .ok (r.1, (t.see l n r.2).seeHost l r.1.hostCount r.1.hostCount))

/-- One indivisible read and write of n bytes at one key: the new value of the old one, where there is one; a place that
supplies no data is not written (R183, R194, R299). -/
def State.modify (s : State) (agent : Nat) (l : Loc) (n : Nat) (f : Nat → Option Nat) : Res (State × Key) :=
  match if s.poisoned l then none else f (s.value l n) with
  | some y => (s.notePoison l).store agent l n y
  | none => .ok ((s.noteWrite agent l).1.notePoison l, (s.noteWrite agent l).2)

/-- One indivisible read and write by a thread at an address. -/
def State.modifyBy (s : State) (t : Thread) (c : Cast) (a : DWord) (l : Loc) (n : Nat) (f : Nat → Option Nat) :
    Res (State × Thread) :=
  (s.modify c.agent l n f).bind (fun r =>
    .ok (r.1, ((t.see l n r.2).seeHost l r.1.hostCount r.1.hostCount).owePoison (s.poisoned l) s.nextOp a))

end Sys2Proof.Machine
end

