-- ==== Sys2Proof/Machine/Csr.lean ====
section
/-! DEFINITION. Control and status registers (R43, R44, R199, and the register maps of R61, R69, R76, R106, R107, R190,
R195, R201, R202, R213, R217, R251, R363, R384, R425), time, software traps and RETT (R196 to R200), and the register
writes that the opcode table lists by themselves. -/
namespace Sys2Proof.Machine

/-- A register number that R43 and R384 assign. -/
def csrAssigned (n : Nat) : Bool :=
  (decide (1 ≤ n) && decide (n ≤ 3)) || (decide (0x200 ≤ n) && decide (n ≤ 0x205)) ||
  (decide (0x400 ≤ n) && decide (n ≤ 0x406)) || (decide (0x410 ≤ n) && decide (n ≤ 0x413)) ||
  (decide (0x420 ≤ n) && decide (n ≤ 0x437)) || (decide (0x600 ≤ n) && decide (n ≤ 0x604)) ||
  n == 0xC00 || (decide (0xC02 ≤ n) && decide (n ≤ 0xC06)) || n == 0xE00

/-- The checks of R44 for a thread; writes tells CSRW, CSRS and CSRC from CSRR. -/
def csrCheck (n : Nat) (writes : Bool) (t : Thread) : Option TrapInfo :=
  let v : DWord := BitVec.ofNat 64 n
  if !csrAssigned n then some (trapOf .illegal v)
  else if 0xC00 ≤ n then some (trapOf .priv v)
  else if decide (0x400 ≤ n) && decide (t.priv = .program) then some (trapOf .priv v)
  else if writes && bit n 9 then some (trapOf .illegal v)
  else none

/-! ## Fields -/

/-- TSTAT as a doubleword (R195). -/
def TStat.bits (x : TStat) : DWord :=
  BitVec.ofNat 64 (x.fkind.toNat * 2 ^ 32 + x.pendHalt.toNat * 2 ^ 31 + x.pendSlice.toNat * 2 ^ 30
    + x.acc.toNat * 2 ^ 28 + x.dist.toNat * 2 ^ 8 + x.skip.toNat * 4 + x.nest.toNat * 2
    + (decide (x.ppriv = .supervisor)).toNat)
/-- The fields of a doubleword written to TSTAT; reserved bits are dropped (R8). -/
def TStat.ofBits (x : DWord) : TStat :=
  { fkind := (x >>> 32).setWidth 8
    pendHalt := x.getLsbD 31
    pendSlice := x.getLsbD 30
    acc := (x >>> 28).setWidth 2
    dist := (x >>> 8).setWidth 5
    skip := x.getLsbD 2
    nest := x.getLsbD 1
    ppriv := if x.getLsbD 0 then .supervisor else .program }

/-- Bits of BPCTL and WPCTL that hold a field (R201). -/
def bpctlMask : DWord := 0x0000_0FFF_FFC0_0007
def wpctlMask : DWord := 0x0000_0FFF_FFFE_003F
/-- Bits [55:0]. -/
def addr56 : DWord := 0x00FF_FFFF_FFFF_FFFF

/-- Good power regions of the module (R425). -/
def Module.goodCount (m : Module) : Nat := m.good.length

/-- The value of an assigned register for a thread of a cast (R199). IDREV.STEP, which the fuses give, reads 0 (log 6). -/
def csrRead (s : State) (t : Thread) (c : Cast) (n : Nat) : DWord :=
  let g := s.gal c.gallery
  if n == 0x001 then t.fflags.setWidth 64
  else if n == 0x002 then t.frm.setWidth 64
  else if n == 0x003 then t.lodc.setWidth 64
  else if n == 0x200 then t.ident.tid.setWidth 64
  else if n == 0x201 then t.ident.ntid.setWidth 64
  else if n == 0x202 then t.ident.castid.setWidth 64
  else if n == 0x203 then t.ident.seat.setWidth 64
  else if n == 0x204 then t.ident.ensid.setWidth 64
  else if n == 0x205 then t.ident.compid.setWidth 64
  else if n == 0x400 then t.tcause.setWidth 64
  else if n == 0x401 then t.tepc
  else if n == 0x402 then c.tvec
  else if n == 0x403 then t.tval
  else if n == 0x404 then t.tstat.bits
  else if n == 0x405 then t.tscratch
  else if n == 0x406 then BitVec.ofNat 64 t.step.toNat
  else if n == 0x410 then t.pidx
  else if n == 0x411 then
    (match c.coreNo with
    | some k => (s.core k).wingage.setWidth 64
    | none => 0)
  else if n == 0x412 then BitVec.ofNat 64 (c.notify.toNat * 2 ^ 32 + c.ticks)
  else if n == 0x413 then BitVec.ofNat 64 c.rdvto
  else if n < 0x428 then tget c.bpaddr (n - 0x420) 0
  else if n < 0x430 then tget c.bpctl (n - 0x428) 0
  else if n < 0x434 then tget c.wpaddr (n - 0x430) 0
  else if n < 0x438 then tget c.wpctl (n - 0x434) 0
  else if n == 0x600 then 0x4E52_564F
  else if n == 0x601 then 0x0053_3536
  else if n == 0x602 then BitVec.ofNat 64 (s.dev.fw.toNat * 2 ^ 16 + 2)
  else if n == 0x603 then
    BitVec.ofNat 64 (s.dev.goodCount % 256 +
      (match g with
      | some x => x.tiles.length % 256 * 2 ^ 8 + x.names % 2 ^ 14 * 2 ^ 16
      | none => 0))
  else if n == 0x604 then
    BitVec.ofNat 64 (2048 + 64 * 2 ^ 12 + 34 * 2 ^ 19 + 8 * 2 ^ 25 + 16 * 2 ^ 29)
  else 0

/-- A debugger halt is requested of every thread of a cast but one (R202, R203). -/
def State.haltCast (s : State) (ck : Nat) (but : Option Nat) : State :=
  { s with threads := tmap s.threads (fun tk t =>
      if castOf tk == ck && but != some tk then t.requestHalt else t) }

/-- WINGAGE after a write: bits [10:0] clamped to 16 to 1024 (R69). -/
def clampAge (x : DWord) : BitVec 11 :=
  let v := fld x.toNat 0 11
  BitVec.ofNat 11 (if v < 16 then 16 else if 1024 < v then 1024 else v)

/-- What a register write leaves: the state, with the thread and the cast of the writer put back. -/
structure CsrRes where
  s : State
  t : Thread
  c : Cast

/-- A value written to an assigned register: each field by its access code (R7, R8). TCAUSE takes the bits to clear
(R190). -/
def csrPut (s : State) (tk : Nat) (t : Thread) (c : Cast) (n : Nat) (x : DWord) : CsrRes :=
  if n == 0x001 then ⟨s, { t with fflags := x.setWidth 5 }, c⟩
  else if n == 0x002 then
    let m := fld x.toNat 0 3
    ⟨s, if m == 0 || m == 6 || m == 7 then t else { t with frm := x.setWidth 3 }, c⟩
  else if n == 0x003 then ⟨s, { t with lodc := x.setWidth 32 }, c⟩
  else if n == 0x400 then ⟨s, { t with tcause := t.tcause &&& ~~~(x.setWidth 23) }, c⟩
  else if n == 0x401 then ⟨s, { t with tepc := pcBits x }, c⟩
  else if n == 0x402 then ⟨s, t, { c with tvec := x &&& 0x00FF_FFFF_FFFF_FFFD }⟩
  else if n == 0x403 then ⟨s, { t with tval := x }, c⟩
  else if n == 0x404 then ⟨s, { t with tstat := .ofBits x }, c⟩
  else if n == 0x405 then ⟨s, { t with tscratch := x }, c⟩
  else if n == 0x406 then
    ⟨if x.getLsbD 1 then s.haltCast (castOf tk) (some tk) else s, { t with step := x.getLsbD 0 }, c⟩
  else if n == 0x410 then ⟨s, { t with pidx := x }, c⟩
  else if n == 0x411 then
    (match c.coreNo with
    | some k => ⟨s.putCore k { s.core k with wingage := clampAge x }, t, c⟩
    | none => ⟨s, t, c⟩)
  else if n == 0x412 then
    ⟨s, t, { c with notify := x.getLsbD 32, ticks := Nat.max 1000 (fld x.toNat 0 32) }⟩
  else if n == 0x413 then ⟨s, t, { c with rdvto := Nat.min (fld x.toNat 0 25) (2 ^ 24) }⟩
  else if 0x420 ≤ n ∧ n < 0x428 then ⟨s, t, { c with bpaddr := tset c.bpaddr (n - 0x420) (pcBits x) 0 }⟩
  else if 0x428 ≤ n ∧ n < 0x430 then ⟨s, t, { c with bpctl := tset c.bpctl (n - 0x428) (x &&& bpctlMask) 0 }⟩
  else if 0x430 ≤ n ∧ n < 0x434 then ⟨s, t, { c with wpaddr := tset c.wpaddr (n - 0x430) (x &&& addr56) 0 }⟩
  else if 0x434 ≤ n ∧ n < 0x438 then ⟨s, t, { c with wpctl := tset c.wpctl (n - 0x434) (x &&& wpctlMask) 0 }⟩
  else ⟨s, t, c⟩

/-- The write puts the cast back and leaves the thread to its caller. -/
def CsrRes.state (r : CsrRes) (tk : Nat) : State := r.s.putC (castOf tk) r.c

/-- The kinds of CSR write (R199). -/
inductive CsrOp where
  | write
  | set
  | clear
  deriving DecidableEq, Repr

/-- The value that the access code of each field sees (R199): TCAUSE is W1C, so CSRW and CSRS clear the bits of x and
CSRC clears none; TDBG.HALTCAST reads zero. -/
def csrValue (op : CsrOp) (n : Nat) (old x : DWord) : DWord :=
  if n == 0x400 then (match op with
    | .clear => 0
    | _ => x)
  else match op with
    | .write => x
    | .set => old ||| x
    | .clear => old &&& ~~~x

/-- CSRW, CSRS and CSRC. -/
def csrWord (op : CsrOp) (e : Bool) (n : BitVec 12) (r : BitVec 5) (s : State) : Out :=
  issue (csrCheck n.toNat true) (fun _ => [sReg r.toNat])
    (fun t0 c =>
      let p := s.charge t0 [r.toNat]
      let t := p.2
      let v := csrValue op n.toNat (csrRead p.1 t c n.toNat) (t.uni r.toNat)
      let w := csrPut p.1 s.focus t c n.toNat v
      .ok ((w.state s.focus).finish s.focus w.t w.c e 4))
    s

def execCsrr (e : Bool) (n : BitVec 12) (r : BitVec 5) (s : State) : Out :=
  issue (csrCheck n.toNat false) (fun _ => [sReg r.toNat])
    (fun t c => .ok (s.finish s.focus (t.putUni r.toNat (csrRead s t c n.toNat)) c e 4))
    s
def execCsrw (e : Bool) (n : BitVec 12) (r : BitVec 5) : State → Out := csrWord .write e n r
def execCsrs (e : Bool) (n : BitVec 12) (r : BitVec 5) : State → Out := csrWord .set e n r
def execCsrc (e : Bool) (n : BitVec 12) (r : BitVec 5) : State → Out := csrWord .clear e n r

/-- RDTIME (R200). -/
def execRdtime (e : Bool) (r : BitVec 5) (s : State) : Out :=
  issue anyPriv (fun _ => [sReg r.toNat])
    (fun t c => .ok (s.finish s.focus (t.putUni r.toNat (BitVec.ofNat 64 s.tick)) c e 4))
    s

/-- TRAP and BKPT: their cause, with TEPC past the instruction (R198). -/
def softTrap (k : Cause) (e : Bool) (code : BitVec 16) (s : State) : Out :=
  issue anyPriv (fun _ => [])
    (fun t c =>
      let t' := t.advance e 4
      .ok (s.enterTrap s.focus t' c [k] (code.setWidth 64) 0 0 t'.pc t'.hdr))
    s

def execTrap (e : Bool) (code : BitVec 16) : State → Out := softTrap .trap e code
def execBkpt (e : Bool) (code : BitVec 16) : State → Out := softTrap .bkpt e code

/-- RETT (R196). -/
def execRett (s : State) : Out :=
  issue supervisorOnly (fun _ => []) (fun t c => .ok (s.returnTrap s.focus t c)) s

/-! ## Register writes by themselves: the effect of a write by the thread in focus, whose checks have passed -/

/-- The effect of writing x to register n. -/
def csrEffect (n : Nat) (x : DWord) (s : State) : Out :=
  match s.thread s.focus, s.cast (castOf s.focus) with
  | some t, some c =>
    let w := csrPut s s.focus t c n x
    .next ((w.state s.focus).putT s.focus w.t)
  | _, _ => .refused .noThread

def execWingageWrite (x : BitVec 64) : State → Out := csrEffect 0x411 x
def execFrmWrite (x : BitVec 64) : State → Out := csrEffect 0x002 x
def execTcauseClear (x : BitVec 64) : State → Out := csrEffect 0x400 x
def execTvecWrite (x : BitVec 64) : State → Out := csrEffect 0x402 x
def execHaltcast (x : BitVec 64) : State → Out := csrEffect 0x406 x
def execRdvtoWrite (x : BitVec 64) : State → Out := csrEffect 0x413 x
def execTsliceWrite (x : BitVec 64) : State → Out := csrEffect 0x412 x

/-- A curator write to GROOT, NTBASE, STBASE or FPBASE of the gallery that GSEL names: held until creation or the next
quiesce; ignored while no gallery bears the tag (R384). -/
def execCuratorBaseWrite (csr : BitVec 12) (x : BitVec 64) (s : State) : Out :=
  match s.gal s.dev.gsel.toNat with
  | none => .next s
  | some g =>
    let g' :=
      if csr == 0xC02 then { g with grootW := x, pend := true }
      else if csr == 0xC03 then { g with ntbaseW := x, pend := true }
      else if csr == 0xC04 then { g with stbaseW := x, pend := true }
      else if csr == 0xC05 then { g with fpbaseW := x, pend := true }
      else g
    .next (s.putG s.dev.gsel.toNat g')

/-- A curator write to SNAPRES: in force at once where no snapshot is in flight (R384). -/
def execSnapresWrite (x : BitVec 64) (s : State) : Out :=
  match s.gal s.dev.gsel.toNat with
  | none => .next s
  | some g =>
    .next (s.putG s.dev.gsel.toNat
      { g with snapresW := x, snapres := if g.snap.isNone then x else g.snapres })

/-- Registers whose writes have rows of their own. -/
def csrSpecial (n : Nat) : Bool :=
  n == 0x002 || n == 0x400 || n == 0x402 || n == 0x406 || n == 0x411 || n == 0x412 || n == 0x413 ||
  (decide (0xC02 ≤ n) && decide (n ≤ 0xC06))

/-- A write to any other register applies each field's access code; the curator's GSEL is one of them (R7, R384). -/
def execCsrPlainWrite (csr : BitVec 12) (x : BitVec 64) (s : State) : Out :=
  if csr == 0xC00 then .next { s with dev := { s.dev with gsel := x.setWidth 8 } }
  else if csrSpecial csr.toNat || bit csr.toNat 9 || !csrAssigned csr.toNat then .next s
  else csrEffect csr.toNat x s

end Sys2Proof.Machine
end

