-- ==== Sys2Proof/Machine/Control.lean ====
section
/-! DEFINITION. Instruction fetch (R28, R187), transfers with the checks of R140 (R139 to R147), and the words that move
a thread between run states: REFORM, EXIT (R84, R85). -/
namespace Sys2Proof.Machine

/-- A word is a scene header: uniform major 0x00 (R23, R83). -/
def isHeader (w : Word) : Bool := w.getLsbD 31 && decide (fld w.toNat 24 6 = 0)
/-- The header marks a landing scene (R24). -/
def isLanding (w : Word) : Bool := w.getLsbD 3

/-- What a fetch answers: a word, a page fault's FKIND, or nothing there. -/
inductive FRes where
  | ok (w : Word)
  | fail (fk : Nat)
  | off
  deriving DecidableEq, Repr

/-- The word at a code address for a thread of a cast: translated now, the bytes those the place held when the
production started (R28). -/
def State.fetch (s : State) (c : Cast) (priv : Priv) (a : DWord) : FRes :=
  match s.gal c.gallery, tfind s.prods c.prod with
  | some g, some p =>
    match translate s.readable c.gallery g a priv .fetch with
    | .fail fk => .fail fk
    | .off => .off
    | .ok x => .ok (BitVec.ofNat 32 (numAt p.code x.loc.cell 4))
  | _, _ => .off

/-- The thread goes to a scene's header. -/
def Thread.goto (t : Thread) (target : DWord) : Thread :=
  { t with pc := target, hdr := target, inScene := false, pfx := none, suppress := false }

/-- Step 6 of R140: the landing descriptor's budgets fit the thread's. -/
def budgetsFit (c : Cast) (d : Word) : Bool :=
  decide (fld d.toNat 0 7 ≤ c.vbud) && decide (fld d.toNat 8 6 ≤ c.sbud)

/-- Steps 3 to 6 of R140 for a taken transfer: whether the target comes from a register, and whether it must land. A landing
descriptor whose fetch fails raises PAGE at the transfer with the target in TVAL; the reads of steps 5 and 6 mark no leaf
(log 34). -/
def State.checkTarget (s : State) (t : Thread) (c : Cast) (target : DWord) (register landing : Bool) : Res Unit :=
  if register && target.toNat % 4 ≠ 0 then .trap (trapOf .target target)
  else
    match s.fetch c t.priv target with
    | .off => .fault .noSuchAddress
    | .fail fk => .trap (pageFault target fk .fetch)
    | .ok w =>
      if !isHeader w then (if register then .trap (trapOf .target target) else .ok ())
      else if landing && !isLanding w then .trap (trapOf .target target)
      else if !isLanding w then .ok ()
      else
        match s.fetch c t.priv (target + 4) with
        | .off => .fault .noSuchAddress
        | .fail fk => .trap (pageFault target fk .fetch)
        | .ok d => if budgetsFit c d then .ok () else .trap (trapOf .budget target)

/-- A transfer that is checked and then made, after g has written the link. -/
def State.transfer (s : State) (tk : Nat) (t : Thread) (c : Cast) (target : DWord) (register landing : Bool)
    (g : Thread → Thread) : Res State :=
  (s.checkTarget t c target register landing).bind (fun _ => .ok (s.complete tk ((g t).goto target) c))

/-- A word offset from the thread's word (R29). -/
def Thread.relative {n : Nat} (t : Thread) (o : BitVec n) : DWord := t.pc + o.signExtend 64 * 4

def execBra (p : BitVec 4) (i : BitVec 1) (o : BitVec 19) (s : State) : Out :=
  issue anyPriv (fun _ => [])
    (fun t c =>
      if t.pred p.toNat ^^ (i == 1) then s.transfer s.focus t c (t.relative o) false false id
      else .ok (s.complete s.focus (t.goto (t.pc + 4)) c))
    s

def execCall (d : BitVec 6) (o : BitVec 18) (s : State) : Out :=
  issue anyPriv (fun _ => vPair d.toNat)
    (fun t c => s.transfer s.focus t c (t.relative o) false false (fun x => x.setPair d.toNat (t.pc + 4)))
    s

def execJmpi (a : BitVec 6) (s : State) : Out :=
  issue anyPriv (fun _ => vPair a.toNat)
    (fun t c => s.transfer s.focus t c (t.pair a.toNat) true true id)
    s

def execCalli (d a : BitVec 6) (s : State) : Out :=
  issue anyPriv (fun _ => vPair d.toNat ++ vPair a.toNat)
    (fun t c => s.transfer s.focus t c (t.pair a.toNat) true true (fun x => x.setPair d.toNat (t.pc + 4)))
    s

def execRet (a : BitVec 6) (s : State) : Out :=
  issue anyPriv (fun _ => vPair a.toNat)
    (fun t c => s.transfer s.focus t c (t.pair a.toNat) true false id)
    s

/-- JTAB: the bound, the table word read as LD.W reads it, then the checks of the target (R144). -/
def execJtab (n a : BitVec 6) (b : BitVec 5) (s : State) : Out :=
  issue anyPriv (fun _ => [vReg a.toNat, sReg b.toNat])
    (fun t c =>
      let idx := (t.lane a.toNat).toNat
      if n.toNat + 1 ≤ idx then .trap (trapOf .bound (BitVec.ofNat 64 idx))
      else
        let at_ := t.uni b.toNat + BitVec.ofNat 64 (4 * idx)
        (s.checked t c s.focus .global at_ 4 .read).bind (fun (s1, l) =>
          let r := s1.readBy t c at_ l 4
          let entry : Word := BitVec.ofNat 32 r.2.2
          (r.1.transfer s.focus r.2.1 c (t.uni b.toNat + entry.signExtend 64) true true id).after r.1 r.2.1))
    s

/-- The condition of UBRA (R145). -/
def uniCond (k : Nat) (x : DWord) : Bool :=
  match k with
  | 0 => true
  | 1 => x == 0
  | 2 => x != 0
  | 3 => x.msb
  | 4 => !x.msb
  | 5 => !x.msb && x != 0
  | _ => x.msb || x == 0

def execUbra (a : BitVec 5) (k : BitVec 3) (o : BitVec 16) (s : State) : Out :=
  issue anyPriv (fun _ => if k = 0 then [] else [sReg a.toNat])
    (fun t0 c =>
      let p := s.charge t0 (if k = 0 then [] else [a.toNat])
      let t := p.2
      if uniCond k.toNat (t.uni a.toNat) then p.1.transfer s.focus t c (t.relative o) false false id
      else .ok (p.1.complete s.focus (t.goto (t.pc + 4)) c))
    s

def execUcall (a : BitVec 5) (o : BitVec 16) (s : State) : Out :=
  issue anyPriv (fun _ => [sReg a.toNat])
    (fun t c => s.transfer s.focus t c (t.relative o) false false (fun x => x.putUni a.toNat (t.pc + 4)))
    s

def execUret (a : BitVec 5) (s : State) : Out :=
  issue anyPriv (fun _ => [sReg a.toNat])
    (fun t0 c =>
      let p := s.charge t0 [a.toNat]
      p.1.transfer s.focus p.2 c (p.2.uni a.toNat) true false id)
    s

/-- REFORM: filed at the next scene (R84). -/
def execReform (s : State) : Out :=
  issue anyPriv (fun _ => [])
    (fun t c => .ok (s.complete s.focus { t.goto (t.pc + 4) with run := .filed, age := s.tick } c))
    s

/-- EXIT: the thread ends; R81 governs its outstanding work (R85). -/
def execExit (s : State) : Out :=
  issue anyPriv (fun _ => []) (fun t _ => .ok (s.putT s.focus t.ended)) s

end Sys2Proof.Machine
end

