-- ==== Sys2Proof/Machine/Scene.lean ====
section
/-! DEFINITION. Scenes: what a fetch of a whole scene finds (02_encoding.md R22 to R33, R137), the fetch of a chorus (R27,
R196), the header's wait (03_thread_execution.md R79), its bindings (R83) and the words of a chorus. -/
namespace Sys2Proof.Machine

/-! ## PFX and its word (R31 to R33) -/

/-- Whether a word may carry a rounding mode, a third source and saturation; none where it takes no prefix (R32). -/
def pfxAllows (w : Nat) : Option (Bool × Bool × Bool) :=
  let m := fld w 24 6
  let fn := fld w 0 6
  if bit w 31 then none
  else if m = 0x01 then
    (if fn ≤ 18 then some (false, false, fn == 0 || fn == 1 || fn == 4 || fn == 5) else none)
  else if m = 0x08 then
    some (false, fn == 3 || fn == 8 || fn == 9 || fn == 10, fn == 0 || fn == 3 || fn == 10)
  else if m = 0x10 then some (true, fn == 3, false)
  else if m = 0x12 then some (true, fn == 2 || fn == 10, false)
  else if m = 0x18 then some (true, fn == 3, false)
  else if m = 0x1C then some (true, false, false)
  else if m = 0x1D then some (true, false, fn == 4 || fn == 5 || decide (8 ≤ fn))
  else if m = 0x34 then some (false, false, false)
  else none

/-- A prefix fits the word after it (R32, R33); a third source of FP64 is even (R30, R157). -/
def pfxFits (p w : Nat) : Bool :=
  match pfxAllows w with
  | none => false
  | some (rnd, vc, sat) =>
    (rnd || fld p 16 3 == 0) && (vc || fld p 10 6 == fld w 18 6) && (sat || !bit p 9) &&
      !(fld w 24 6 == 0x18 && bit p 10)

/-! ## Fetching a scene (R27) -/

/-- What the fetch of a scene finds. -/
inductive SceneRes where
  /-- Its words from the header on, and the places of them where an instruction begins. -/
  | ok (words : List Word) (starts : List Nat)
  /-- The scene is illegal: the place of the first offending word. -/
  | illegal (i : Nat)
  /-- No header stands where the scene must begin. -/
  | noHeader
  /-- A fetch fails translation, with its FKIND. -/
  | page (fk : Nat)
  | off
  deriving DecidableEq, Repr

/-- The decoder accepts a word, with the word after it where it is a MOVL. -/
def decodes (w : Nat) : Bool :=
  match decodeWord w 0 with
  | .ok _ => true
  | .error _ => false

/-- A word of a major and minor code that the opcode map assigns. -/
def isAssigned (w : Nat) : Bool :=
  match decodeWord w 0 with
  | .error .unusedMajor | .error .unusedMinor => false
  | _ => true

/-- The prefix just read and the word after it do not go together (R32, R33): the word takes none, another one, or is of a
minor code that the opcode map leaves unused; the prefix is then the word that offends (log 19). -/
def misprefixed (pfx : Option Nat) (w : Nat) : Bool :=
  match pfx with
  | some p => !pfxFits p w || !isAssigned w
  | none => false

/-- The counted words from place i on, count of them read, n more at most; pfx is a prefix just read. The first word in
scene order that breaks a rule is the offending one (log 19): a prefix before a word that takes none or another one, be that
the twenty-fifth, else the word itself; a MOVL that is the twenty-fourth makes its literal the offending twenty-fifth,
whatever its own E (log 19). -/
def scanWords (s : State) (c : Cast) (priv : Priv) (hdr : DWord) :
    Nat → Nat → Nat → Option Nat → List Word → List Nat → SceneRes
  | 0, i, _, _, _, _ => .illegal i
  | n + 1, i, count, pfx, words, starts =>
    if 24 ≤ count then
      match pfx.isSome, s.fetch c priv (hdr + BitVec.ofNat 64 (4 * i)) with
      | true, .off => .off
      | true, .ok w => if misprefixed pfx w.toNat then .illegal (i - 1) else .illegal i
      | _, _ => .illegal i
    else
      match s.fetch c priv (hdr + BitVec.ofNat 64 (4 * i)) with
      | .off => .off
      | .fail fk => .page fk
      | .ok w =>
        if misprefixed pfx w.toNat then .illegal (i - 1)
        else if !decodes w.toNat || isHeader w then .illegal i
        else
          let starts' := starts ++ [i]
          if isMovlWord w.toNat then
            if 24 ≤ count + 1 then .illegal (i + 1)
            else
              match s.fetch c priv (hdr + BitVec.ofNat 64 (4 * (i + 1))) with
              | .off => .off
              | .fail fk => .page fk
              | .ok lit =>
                let words' := words ++ [w, lit]
                if w.getLsbD 30 then .ok words' starts'
                else scanWords s c priv hdr n (i + 2) (count + 2) none words' starts'
          else
            let words' := words ++ [w]
            if w.getLsbD 30 then .ok words' starts'
            else
              scanWords s c priv hdr n (i + 1) (count + 1)
                (if !w.getLsbD 31 && fld w.toNat 24 6 == 0x3F then some w.toNat else none) words' starts'

/-- A landing descriptor that R140 makes illegal. -/
def badDescriptor (d : Nat) : Bool :=
  fld d 14 18 != 0 || bit d 7 || decide (64 < fld d 0 7) || decide (32 < fld d 8 6)

/-- The scene at a header, for a thread of a cast at a privilege. -/
def State.fetchScene (s : State) (c : Cast) (priv : Priv) (hdr : DWord) : SceneRes :=
  match s.fetch c priv hdr with
  | .off => .off
  | .fail fk => .page fk
  | .ok h =>
    if !isHeader h then .noHeader
    else if !decodes h.toNat then .illegal 0
    else if isLanding h then
      match s.fetch c priv (hdr + 4) with
      | .off => .off
      | .fail fk => .page fk
      | .ok d =>
        if badDescriptor d.toNat then .illegal 1
        else scanWords s c priv hdr 26 2 0 none [h, d] [0]
    else scanWords s c priv hdr 26 1 0 none [h] [0]

/-! ## The chorus and its words -/

/-- The words of a chorus from an address on: the instruction there. -/
def Chorus.instrAt (x : Chorus) (pc : DWord) : Option Instr :=
  let i := (pc - x.hdr).toNat / 4
  match x.words[i]? with
  | none => none
  | some w =>
    match decodeWord w.toNat ((x.words.getD (i + 1) 0).toNat) with
    | .ok j => some j
    | .error _ => none

/-- Chorus n of a core. -/
def Core.chorusNo (c : Core) (n : Nat) : Option Chorus := tfind c.chorus n
def State.putChorus (s : State) (k n : Nat) (x : Chorus) : State :=
  s.putCore k { s.core k with chorus := tput (s.core k).chorus n x }

/-- A thread starts a scene: cues bound, and the first counted word after the header and any descriptor (R83, R25). -/
def Thread.startScene (t : Thread) (a b : Nat) (landing : Bool) : Thread :=
  { t with
    hdr := t.pc
    pc := t.pc + (if landing then 8 else 4)
    inScene := true
    cueA := a
    cueB := b }

/-- Every cue of a wait mask reads zero (R79). -/
def Thread.headerMet (t : Thread) (mask : Nat) : Bool := (List.range 12).all (fun k => !bit mask k || t.cue k == 0)

/-- SCENE: the thread in focus starts the scene once its cues are zero (R79, R83); a breakpoint on the header is taken
first (R201). -/
def execScene (w : BitVec 12) (a b : BitVec 4) (l : BitVec 1) (s : State) : Out :=
  issue anyPriv (fun _ => [])
    (fun t _ =>
      if t.headerMet w.toNat then .ok (s.putT s.focus (t.startScene a.toNat b.toNat (l == 1))) else .wait)
    s

/-- Members with their threads, in the order listed. -/
def State.membersOf (s : State) (ck : Nat) (ms : List Nat) : List (Nat × Thread) :=
  ms.filterMap (fun m => (s.thread (thrKey ck m)).map (fun t => (thrKey ck m, t)))

/-- Every member takes a trap at its resume address as x gives it. -/
def State.trapMembers (s : State) (c : Cast) (x : Thread → TrapInfo × DWord × DWord) : List (Nat × Thread) → State
  | [] => s
  | (tk, t) :: rest =>
    let y := x t
    (s.enterTrap tk t c [y.1.cause] y.1.tval y.1.fkind y.1.acc y.2.1 y.2.2).trapMembers c x rest

/-- The walk of a fetched word, whose leaf is marked accessed (R187, R297). -/
def State.markFetched (s : State) (c : Cast) (priv : Priv) (a : DWord) : State :=
  match s.gal c.gallery with
  | none => s
  | some g =>
    match translate s.readable c.gallery g a priv .fetch with
    | .ok x => s.walked c.agent c.gallery x .fetch
    | _ => s

/-- The pages of the header and of the last word fetched of a scene are marked accessed. -/
def State.markScene (s : State) (c : Cast) (priv : Priv) (hdr : DWord) (last : Nat) : State :=
  let s1 := s.markFetched c priv hdr
  let a := hdr + BitVec.ofNat 64 (4 * last)
  if a.toNat / 2 ^ 16 = hdr.toNat / 2 ^ 16 then s1 else s1.markFetched c priv a

/-- The fetch of a chorus's scene: it is legal and its header's wait follows, or every member traps (R27, R192, R196). A
chorus that resumes within it traps at its own address where no header stands, or where no instruction of the scene begins
there: beyond the scene, and also on a landing descriptor or the literal of a MOVL (log 34). -/
def State.sceneFetched (s : State) (k n : Nat) (x : Chorus) (c : Cast) : Out :=
  let ms := s.membersOf x.ck x.members
  let resumed := decide (x.pc ≠ x.hdr)
  match s.fetchScene c x.priv x.hdr with
  | .off => .fault .noSuchAddress
  | .page fk => .next ((s.noteWalk c.gallery x.hdr).trapMembers c (fun _ => (⟨.page, x.hdr, fk, 0⟩, x.hdr, x.hdr)) ms)
  | .noHeader => .next ((s.markScene c x.priv x.hdr 0).trapMembers c (fun _ => (trapOf .illegal x.pc, x.pc, x.hdr)) ms)
  | .illegal i =>
    .next ((s.markScene c x.priv x.hdr i).trapMembers c
      (fun _ => (trapOf .illegal (x.hdr + BitVec.ofNat 64 (4 * i)), x.hdr, x.hdr)) ms)
  | .ok words starts =>
    let s1 := s.markScene c x.priv x.hdr (words.length - 1)
    if resumed && !starts.contains ((x.pc - x.hdr).toNat / 4) then
      .next (s1.trapMembers c (fun _ => (trapOf .illegal x.pc, x.pc, x.hdr)) ms)
    else .next (s1.putChorus k n { x with words := words, phase := .header })

/-- A cast that is being stopped starts no scene (R365). -/
def Cast.stopping (c : Cast) : Bool := c.stop.isSome

/-- A scene fetched whole is decoded and checked (R27). -/
def execSceneFetch (core ch : Nat) (s : State) : Out :=
  match (s.core core).chorusNo ch with
  | none => .next s
  | some x =>
    match s.cast x.ck with
    | none => .next s
    | some c => if x.phase = .fetch ∧ !c.stopping then s.sceneFetched core ch x c else .next s

/-- The header of a fetched scene. -/
def Chorus.header (x : Chorus) : Nat := (x.words.getD 0 0).toNat

/-- The header's wait of a chorus ends once every cue it names reads zero for every member (R79). -/
def execHeaderWaitMet (core ch : Nat) (s : State) : Out :=
  match (s.core core).chorusNo ch with
  | none => .next s
  | some x =>
    if x.phase = .header ∧
        (s.membersOf x.ck x.members).all (fun p => p.2.headerMet (fld x.header 12 12)) then
      .next (s.putChorus core ch { x with phase := .lane, since := s.clock (tileOf core) })
    else .next s

/-- The walk of a virtual address completes: the core's TLB holds the page; it is coherent, so no access sees it
otherwise (R187 to R189). -/
def execTranslationWalk (core : Nat) (va : BitVec 64) (s : State) : Out :=
  match s.casts.find? (fun p => p.2.coreNo == some core) with
  | none => .next s
  | some (_, c) =>
    match s.gal c.gallery with
    | none => .next s
    | some g =>
      match walk s.readable c.gallery g va.toNat with
      | .leaf _ _ bits _ =>
        let e := (c.gallery, va.toNat / 2 ^ bits * 2 ^ bits)
        let old := (s.core core).tlb.filter (fun x => x != e)
        .next (s.putCore core { s.core core with tlb := (e :: old).take 256 })
      | _ => .next s

end Sys2Proof.Machine
end

