-- ==== Sys2Proof/Machine/Frames.lean ====
section
/-! DEFINITION. Framed pages (15_die_engines_refresh.md R318 to R321): where an engine write goes, what it leaves, and
the merge that brings an understudy on stage at one key. -/
namespace Sys2Proof.Machine

/-- Gallery physical addresses of the frame on stage and of the understudy of a pair (R318, R319). -/
def stageBase (m : List Host.Cell) (gi : Nat) (g : Gallery) (base bits : Nat) : Nat :=
  if bit (stageWord m gi g base) 0 then base + 2 ^ bits else base
def understudyBase (m : List Host.Cell) (gi : Nat) (g : Gallery) (base bits : Nat) : Nat :=
  if bit (stageWord m gi g base) 0 then base else base + 2 ^ bits

/-- Where an engine write to a translated address of a gallery goes (R320). -/
def Xlat.dest (x : Xlat) (gi a : Nat) : Dest :=
  if x.framed then .understudy gi x.page x.bits (a % 2 ^ x.bits) else .plain x.loc

/-- The physical place of an engine write as things stand. -/
def State.destPlace (s : State) (d : Dest) : Option Loc :=
  match d with
  | .plain l => some l
  | .understudy gi base bits off =>
    (s.gal gi).map (fun g => .dram gi (understudyBase s.mem gi g base bits + off))

/-- Bytes marked as engine-written (R320). -/
def markBytes (m : List Host.Cell) : Nat → List Byte → List Host.Cell
  | _, [] => m
  | a, b :: t => markBytes (tput m a b) (a + 1) t

/-- The lines with an error after a write: one from a poisoned source makes its line uncorrectable, and a write of a whole
line makes it good (R325, R404). -/
def linesAfter (bad : List Nat) (line : Nat) (whole poisoned : Bool) : List Nat :=
  if poisoned then (if bad.contains line then bad else line :: bad)
  else if whole then bad.filter (· != line) else bad

/-- The lines with errors after a write of n bytes at a place. -/
def State.lineState (s : State) (l : Loc) (n : Nat) (poisoned : Bool) : State :=
  let whole := decide (n = 128) && l.cell % 128 == 0
  { s with
    bad := linesAfter s.bad l.line whole poisoned
    forged := linesAfter s.forged l.line whole false
    worn := linesAfter s.worn l.line whole false }

/-- The lines of n cells from one on have no error: what they held is gone. -/
def State.cleanLines (s : State) (cell n : Nat) : State :=
  let out (x : Nat) : Bool := !(decide (cell / 128 ≤ x) && decide (x * 128 < cell + n))
  { s with bad := s.bad.filter out, forged := s.forged.filter out, worn := s.worn.filter out }

/-- Bytes of one line written by an engine (R308, R320); from a poisoned source the line becomes uncorrectable (R325). A
write to an understudy, which no access reads, takes no key (R309). -/
def State.enginePut (s : State) (agent : Nat) (d : Dest) (bs : List Byte) (poisoned : Bool) : Res State :=
  match s.destPlace d with
  | none => .ok s
  | some l =>
    (s.snapGuard l).bind (fun s1 =>
      .ok (match d with
        | .plain _ => ((s1.put agent l bs).1).lineState l bs.length poisoned
        | .understudy gi base bits off =>
          let s2 := ({ s1 with mem := setBytes s1.mem l.cell bs } : State).lineState l bs.length poisoned
          match s2.gal gi with
          | some g =>
            s2.putG gi { g with under := markBytes g.under (understudyBase s2.mem gi g base bits + off) bs }
          | none => s2))

/-- Pieces of a line written one by one: to understudies, whose writes take no key, or as the only one of its line. -/
def State.enginePieces (s : State) (agent : Nat) (poisoned : Bool) : List (Dest × List Byte) → Res State
  | [] => .ok s
  | p :: rest => (s.enginePut agent p.1 p.2 poisoned).bind (fun s1 => s1.enginePieces agent poisoned rest)

/-- The pieces that are written to memory itself. -/
def plainPieces (ps : List (Dest × List Byte)) : List (Loc × List Byte) :=
  ps.filterMap (fun p => match p.1 with
    | .plain l => some (l, p.2)
    | .understudy _ _ _ _ => none)

/-- The piece of a line that the pieces of it, a later one over an earlier one, and the bytes between them make. -/
def joinedPiece (m : List Host.Cell) (first : Loc × List Byte) (rest : List (Loc × List Byte)) : Loc × List Byte :=
  let low := rest.foldl (fun (a : Loc) p => if p.1.cell < a.cell then p.1 else a) first.1
  let top := rest.foldl (fun a p => Nat.max a (p.1.cell + p.2.length)) (first.1.cell + first.2.length)
  let after := (first :: rest).foldl (fun x p => setBytes x p.1.cell p.2) m
  (low, bytesAt after low.cell (top - low.cell))

/-- The bytes of a line that some of its pieces write. -/
def piecesSize (ps : List (Loc × List Byte)) : Nat :=
  (ps.flatMap (fun p => (List.range p.2.length).map (p.1.cell + ·))).eraseDups.length

/-- One engine write of a line, in pieces of that line, at one key by an agent (R308). -/
def State.engineWrite (s : State) (agent : Nat) (poisoned : Bool) (ps : List (Dest × List Byte)) : Res State :=
  match plainPieces ps with
  | first :: q :: rest =>
    (s.snapGuard first.1).bind (fun s1 =>
      let j := joinedPiece s1.mem first (q :: rest)
      .ok (((s1.put agent j.1 j.2).1).lineState j.1 (piecesSize (first :: q :: rest)) poisoned))
  | _ => s.enginePieces agent poisoned ps

/-- Memory in which n cells from b on become copies of the n cells from a on. -/
def copyCells (m : List Host.Cell) (a b n : Nat) : List Host.Cell :=
  m.filter (fun c => decide (c.1 < b)) ++ (cellsIn m a n).map (fun c => (c.1 - a + b, c.2)) ++
    m.filter (fun c => decide (b + n ≤ c.1))

/-- The uncorrectable lines after the merge of a frame pair, its frames n cells from sb and ub on: the new stage frame has
those of the old one that engines did not write whole, and those that engines wrote poisoned. under lists the cells that
engines wrote. -/
def mergedBad (bad : List Nat) (under : List Nat) (sb ub n : Nat) : List Nat :=
  let inside (a x : Nat) : Bool := decide (a / 128 ≤ x) && decide (x < (a + n) / 128)
  let own := bad.filter (fun x => inside ub x && under.any (fun c => c / 128 == x))
  let old := (bad.filter (inside sb)).map (fun x => x - sb / 128 + ub / 128)
  bad.filter (fun x => !inside ub x) ++ own ++
    old.filter (fun x => !own.contains x && (under.filter (fun c => c / 128 == x)).length != 128)

/-- A stage word after a PUBLISH: ON inverted, GEN one more (R319). -/
def stageNext (w : Nat) : Nat := ((fld w 16 16 + 1) % 2 ^ 16) * 2 ^ 16 + (if bit w 0 then 0 else 1)

/-- What replicas may still hold of a page after a PUBLISH: its earlier contents, which lay on the frame that was on stage,
under the frame that is now (R305, R309). -/
def pastAfter (m : List Host.Cell) (past : List Past) (sb ub n : Nat) (k : Key) : List Past :=
  let inside (a : Nat) (p : Past) : Bool := decide (a ≤ p.cell) && decide (p.cell < a + n)
  let move (xs : List Host.Cell) : List Host.Cell := xs.map (fun c => (c.1 - sb + ub, c.2))
  ⟨ub, n, move (cellsIn m sb n), k, none⟩ ::
    (past.filter (fun p => !inside ub p)).map (fun p =>
      if inside sb p then { p with cell := p.cell - sb + ub, old := move p.old } else p)

/-- The merge of R320 for one frame pair at a key: the understudy takes the stage's bytes except where engines wrote, and goes
on stage. -/
def State.publishPair (s : State) (gi base bits : Nat) (k : Key) : State :=
  match s.gal gi with
  | none => s
  | some g =>
    let n := 2 ^ bits
    let ua := understudyBase s.mem gi g base bits
    let sb := (Loc.dram gi (stageBase s.mem gi g base bits)).cell
    let ub := (Loc.dram gi ua).cell
    let st := Loc.dram gi (stageAddr g base)
    let here (c : Host.Cell) : Bool := decide (ua ≤ c.1) && decide (c.1 < ua + n)
    let mine := g.under.filter here
    let m1 := mine.foldl (fun m c => setByte m (Loc.dram gi c.1).cell c.2) (copyCells s.mem sb ub n)
    let bad := mergedBad s.bad (mine.map (fun c => (Loc.dram gi c.1).cell)) sb ub n
    { s.cleanLines ub n with
      mem := setNum m1 st.cell 8 (stageNext (stageWord s.mem gi g base))
      bad := bad
      past := pastAfter s.mem s.past sb ub n k
      wts := tput s.wts st.line k
      rts := tset s.rts st.line k.t 0
      pubs := (ub, n, k) :: s.pubs.filter (fun p => p.1 != ub) }.putG gi
        { g with under := g.under.filter (fun c => !here c) }

/-- The highest timestamp at which a frame of a pair, or its stage word, was read or written (R302). -/
def State.pairLease (s : State) (gi : Nat) (g : Gallery) (base bits : Nat) : Nat :=
  let a := (Loc.dram gi base).cell
  let inside (x : Nat) : Bool := decide (a / 128 ≤ x) && decide (x * 128 < a + 2 * 2 ^ bits)
  let lines := ((s.rts.filter (fun p => inside p.1)).map (·.2)) ++ ((s.wts.filter (fun p => inside p.1)).map (·.2.t)) ++
    ((s.pubs.filter (fun p => inside (p.1 / 128))).map (·.2.2.t)) ++
    ((s.freezes.filter (fun p => inside (p.1 / 128))).map (·.2.2))
  lines.foldl Nat.max (s.lineRts (Loc.dram gi (stageAddr g base)).line)

/-- The highest timestamp at which any frame of a set of pairs was read or written. -/
def State.pairsLease (s : State) (gi : Nat) (g : Gallery) (pairs : List (Nat × Nat)) : Nat :=
  pairs.foldl (fun a p => Nat.max a (s.pairLease gi g p.1 p.2)) 0

/-- The walks of the pages of a PUBLISH, whose entries are leased past its key P (R187, R188). -/
def State.walkPages (s : State) (agent gi : Nat) (pairs : List (Nat × Nat)) (ps : List (Nat × Xlat)) : State :=
  let s1 := ps.foldl (fun (z : State) p => z.walked agent gi p.2 .write) s
  match s1.gal gi with
  | none => s1
  | some g =>
    ps.foldl (fun (z : State) p => z.leaseWalk agent gi p.2)
      (s1.putPts agent (Nat.max (s1.pts agent) (s1.pairsLease gi g pairs)))

/-- Every pair of a set goes on stage at one key P of an engine, past every access to it (R309, R333). -/
def State.publishPairs (s : State) (agent gi : Nat) (pairs : List (Nat × Nat)) : State × Key :=
  match s.gal gi with
  | none => (s, Key.zero)
  | some g =>
    let r := s.nextKey agent (s.pairsLease gi g pairs + 1)
    (pairs.foldl (fun (x : State) p => x.publishPair gi p.1 p.2 r.2) r.1, r.2)

end Sys2Proof.Machine
end

