-- ==== Sys2Proof/Machine/Float.lean ====
section
/-! DEFINITION. Number formats, exact values and their one rounding (04_number_formats.md R92 to R107, R149), the
arithmetic operations, roots and quotients (R151 to R160), the tapered formats (R97 to R104) and the transcendental
functions (R159, R160). Bit patterns are numbers here. -/
namespace Sys2Proof.Machine

/-- A binary format: exponent bits and fraction bits (R92). -/
structure Fmt where
  eb : Nat
  mb : Nat
  deriving DecidableEq, Repr

def fp64 : Fmt := ⟨11, 52⟩
def fp32 : Fmt := ⟨8, 23⟩
def fp16 : Fmt := ⟨5, 10⟩
def bf16 : Fmt := ⟨8, 7⟩
/-- The decoded float of R102: 8 exponent and 10 fraction bits. -/
def decodedFloat : Fmt := ⟨8, 10⟩

def Fmt.bias (f : Fmt) : Nat := 2 ^ (f.eb - 1) - 1
def Fmt.width (f : Fmt) : Nat := 1 + f.eb + f.mb
/-- The bit pattern of a sign, an exponent field and a fraction. -/
def Fmt.pattern (f : Fmt) (neg : Bool) (ex fr : Nat) : Nat := neg.toNat * 2 ^ (f.eb + f.mb) + ex * 2 ^ f.mb + fr
/-- The canonical NaN (R92). -/
def Fmt.nan (f : Fmt) : Nat := f.pattern false (2 ^ f.eb - 1) (2 ^ (f.mb - 1))
def Fmt.inf (f : Fmt) (neg : Bool) : Nat := f.pattern neg (2 ^ f.eb - 1) 0
def Fmt.zero (f : Fmt) (neg : Bool) : Nat := f.pattern neg 0 0
/-- The largest finite value (R92). -/
def Fmt.largest (f : Fmt) (neg : Bool) : Nat := f.pattern neg (2 ^ f.eb - 2) (2 ^ f.mb - 1)
/-- 1.0. -/
def Fmt.one (f : Fmt) (neg : Bool) : Nat := f.pattern neg f.bias 0

/-- A value: NaN (signalling or not), infinity, or the number m × 2^e with its sign; m = 0 is a signed zero. -/
inductive FVal where
  | nan (signalling : Bool)
  | inf (neg : Bool)
  | num (neg : Bool) (m : Nat) (e : Int)
  deriving DecidableEq, Repr

/-- The value of a bit pattern (R92). -/
def Fmt.value (f : Fmt) (x : Nat) : FVal :=
  let neg := bit x (f.eb + f.mb)
  let ex := fld x f.mb f.eb
  let fr := fld x 0 f.mb
  if ex = 2 ^ f.eb - 1 then
    (if fr = 0 then .inf neg else .nan (!bit fr (f.mb - 1)))
  else if ex = 0 then .num neg fr (1 - (f.bias : Int) - f.mb)
  else .num neg (2 ^ f.mb + fr) ((ex : Int) - f.bias - f.mb)

def FVal.isNan : FVal → Bool
  | .nan _ => true
  | _ => false
def FVal.isSnan : FVal → Bool
  | .nan s => s
  | _ => false
def FVal.isInf : FVal → Bool
  | .inf _ => true
  | _ => false
def FVal.isZero : FVal → Bool
  | .num _ m _ => m == 0
  | _ => false
def FVal.neg : FVal → Bool
  | .nan _ => false
  | .inf n => n
  | .num n _ _ => n
/-- The value with the other sign. -/
def FVal.flip : FVal → FVal
  | .nan s => .nan s
  | .inf n => .inf (!n)
  | .num n m e => .num (!n) m e

/-- The number of bits of m. -/
def bitLen (m : Nat) : Nat := if m = 0 then 0 else Nat.log2 m + 1

/-- Rounding codes (R103). -/
def rne : BitVec 3 := 1
def rtz : BitVec 3 := 2
def rup : BitVec 3 := 3
def rdn : BitVec 3 := 4
def rna : BitVec 3 := 5

/-- A magnitude kept + rest / 2^sh, with something below where sticky, goes up to kept + 1 under a mode. -/
def roundsUp (mode : BitVec 3) (neg : Bool) (kept rest sh : Nat) (sticky : Bool) : Bool :=
  let inexact := rest != 0 || sticky
  let twice := 2 * rest
  let whole := 2 ^ sh
  match mode.toNat with
  | 1 => decide (whole < twice) || (decide (twice = whole) && (sticky || kept % 2 == 1))
  | 3 => inexact && !neg
  | 4 => inexact && neg
  | 5 => decide (whole ≤ twice)
  | _ => false

/-- m × 2^e (and something below where sticky) as kept × 2^q, rounded: the kept part and whether it is inexact. -/
def roundAt (mode : BitVec 3) (neg : Bool) (m : Nat) (e q : Int) (sticky : Bool) : Nat × Bool :=
  if q ≤ e then (m * 2 ^ (e - q).toNat, sticky)
  else
    let sh := (q - e).toNat
    let kept := m / 2 ^ sh
    let rest := m % 2 ^ sh
    (if roundsUp mode neg kept rest sh sticky then kept + 1 else kept, rest != 0 || sticky)

/-- The result of an overflow (R104). -/
def Fmt.overflow (f : Fmt) (mode : BitVec 3) (neg : Bool) : Nat :=
  match mode.toNat with
  | 2 => f.largest neg
  | 3 => if neg then f.largest neg else f.inf neg
  | 4 => if neg then f.inf neg else f.largest neg
  | _ => f.inf neg

/-- One rounding of the non-zero magnitude m × 2^e (and something below where sticky) to a format, with its flags
(R103 to R105). Where sticky, m has at least two bits more than the format. -/
def Fmt.round (f : Fmt) (mode : BitVec 3) (neg : Bool) (m : Nat) (e : Int) (sticky : Bool) : Nat × Fl :=
  let emin : Int := 1 - (f.bias : Int)
  let lead : Int := e + bitLen m - 1
  let free := roundAt mode neg m e (lead - f.mb) sticky
  let tiny : Bool :=
    if free.1 = 2 ^ (f.mb + 1) then decide (lead + 1 < emin) else decide (lead < emin)
  let q : Int := if lead < emin then emin - f.mb else lead - f.mb
  let r := roundAt mode neg m e q sticky
  let q1 : Int := if r.1 = 2 ^ (f.mb + 1) then q + 1 else q
  let k := if r.1 = 2 ^ (f.mb + 1) then 2 ^ f.mb else r.1
  if 2 ^ f.mb ≤ k && decide ((f.bias : Int) < q1 + f.mb) then (f.overflow mode neg, .over)
  else
    let pat := if k < 2 ^ f.mb then f.pattern neg 0 k else f.pattern neg (q1 + f.mb + f.bias).toNat (k - 2 ^ f.mb)
    (pat, ⟨false, false, false, tiny && r.2, r.2⟩)

/-- An exact signed integer times 2^e, rounded; a zero takes the sign given. -/
def Fmt.roundInt (f : Fmt) (mode : BitVec 3) (x : Int) (e : Int) (zeroNeg : Bool) : Nat × Fl :=
  if x = 0 then (f.zero zeroNeg, .none) else f.round mode (decide (x < 0)) x.natAbs e false

/-- A number as a signed integer at exponent e, where e is no larger than its own. -/
def alignTo (neg : Bool) (m : Nat) (e0 e : Int) : Int :=
  let v : Int := ((m * 2 ^ (e0 - e).toNat : Nat) : Int)
  if neg then -v else v

/-- NV for a signalling operand. -/
def nvIf (b : Bool) : Fl := if b then .invalid else .none

/-- The sign of an exact zero sum of terms of signs n1 and n2 (R149). -/
def zeroSign (mode : BitVec 3) (n1 n2 : Bool) : Bool := if n1 = n2 then n1 else decide (mode = rdn)

/-- The sum of two values, rounded once (R149, R151). -/
def Fmt.add (f : Fmt) (mode : BitVec 3) (x y : FVal) : Nat × Fl :=
  match x, y with
  | .nan s, .nan t => (f.nan, nvIf (s || t))
  | .nan s, _ => (f.nan, nvIf s)
  | _, .nan t => (f.nan, nvIf t)
  | .inf a, .inf b => if a = b then (f.inf a, .none) else (f.nan, .invalid)
  | .inf a, _ => (f.inf a, .none)
  | _, .inf b => (f.inf b, .none)
  | .num n1 m1 e1, .num n2 m2 e2 =>
    let e := if e1 < e2 then e1 else e2
    f.roundInt mode (alignTo n1 m1 e1 e + alignTo n2 m2 e2 e) e (zeroSign mode n1 n2)

/-- The product, rounded once. -/
def Fmt.mul (f : Fmt) (mode : BitVec 3) (x y : FVal) : Nat × Fl :=
  match x, y with
  | .nan s, .nan t => (f.nan, nvIf (s || t))
  | .nan s, _ => (f.nan, nvIf s)
  | _, .nan t => (f.nan, nvIf t)
  | .inf a, .inf b => (f.inf (a ^^ b), .none)
  | .inf a, .num b m _ => if m = 0 then (f.nan, .invalid) else (f.inf (a ^^ b), .none)
  | .num a m _, .inf b => if m = 0 then (f.nan, .invalid) else (f.inf (a ^^ b), .none)
  | .num n1 m1 e1, .num n2 m2 e2 =>
    if m1 * m2 = 0 then (f.zero (n1 ^^ n2), .none)
    else f.round mode (n1 ^^ n2) (m1 * m2) (e1 + e2) false

/-- The fused x × y + z, rounded once; 0 × ∞ raises NV even beside a quiet NaN (R149). -/
def Fmt.fma (f : Fmt) (mode : BitVec 3) (x y z : FVal) : Nat × Fl :=
  let snan := x.isSnan || y.isSnan || z.isSnan
  let zeroInf := (x.isZero && y.isInf) || (x.isInf && y.isZero)
  if x.isNan || y.isNan then (f.nan, nvIf snan)
  else if zeroInf then (f.nan, .invalid)
  else if z.isNan then (f.nan, nvIf snan)
  else
    let pn := x.neg ^^ y.neg
    if x.isInf || y.isInf then
      (if z.isInf && (z.neg ^^ pn) then (f.nan, .invalid) else (f.inf pn, .none))
    else
      match x, y, z with
      | .num _ m1 e1, .num _ m2 e2, .num n3 m3 e3 =>
        let ep := e1 + e2
        let e := if ep < e3 then ep else e3
        f.roundInt mode (alignTo pn (m1 * m2) ep e + alignTo n3 m3 e3 e) e (zeroSign mode pn n3)
      | _, _, .inf b => (f.inf b, .none)
      | _, _, _ => (f.nan, .none)

/-- The quotient of two non-zero magnitudes, to more than p bits: m, e, sticky. -/
def divMag (p m1 : Nat) (e1 : Int) (m2 : Nat) (e2 : Int) : Nat × Int × Bool :=
  let k := p + 4 + bitLen m2
  let n := m1 * 2 ^ k
  (n / m2, e1 - e2 - k, n % m2 != 0)

/-- The quotient, rounded once (R159, R160). -/
def Fmt.div (f : Fmt) (mode : BitVec 3) (x y : FVal) : Nat × Fl :=
  match x, y with
  | .nan s, .nan t => (f.nan, nvIf (s || t))
  | .nan s, _ => (f.nan, nvIf s)
  | _, .nan t => (f.nan, nvIf t)
  | .inf _, .inf _ => (f.nan, .invalid)
  | .inf a, .num b _ _ => (f.inf (a ^^ b), .none)
  | .num a _ _, .inf b => (f.zero (a ^^ b), .none)
  | .num n1 m1 e1, .num n2 m2 e2 =>
    if m2 = 0 then (if m1 = 0 then (f.nan, .invalid) else (f.inf (n1 ^^ n2), .divZero))
    else if m1 = 0 then (f.zero (n1 ^^ n2), .none)
    else
      let q := divMag f.mb m1 e1 m2 e2
      f.round mode (n1 ^^ n2) q.1 q.2.1 q.2.2

/-- The largest r with r² ≤ n, found bit by bit from bit k down. -/
def isqrtFrom (n : Nat) : Nat → Nat → Nat
  | 0, r => r
  | k + 1, r => if (r + 2 ^ k) * (r + 2 ^ k) ≤ n then isqrtFrom n k (r + 2 ^ k) else isqrtFrom n k r
/-- The integer square root. -/
def isqrt (n : Nat) : Nat := isqrtFrom n (bitLen n / 2 + 1) 0

/-- √x, rounded once (R159, R160). -/
def Fmt.sqrt (f : Fmt) (mode : BitVec 3) (x : FVal) : Nat × Fl :=
  match x with
  | .nan s => (f.nan, nvIf s)
  | .inf n => if n then (f.nan, .invalid) else (f.inf false, .none)
  | .num n m e =>
    if m = 0 then (f.zero n, .none)
    else if n then (f.nan, .invalid)
    else
      let k0 := 2 * (f.mb + 4)
      let k := if (e - k0) % 2 = 0 then k0 else k0 + 1
      let r := isqrt (m * 2 ^ k)
      f.round mode false r ((e - k) / 2) (r * r != m * 2 ^ k)

/-- 1 / √x, rounded once (R159, R160). -/
def Fmt.rsqrt (f : Fmt) (mode : BitVec 3) (x : FVal) : Nat × Fl :=
  match x with
  | .nan s => (f.nan, nvIf s)
  | .inf n => if n then (f.nan, .invalid) else (f.zero false, .none)
  | .num n m e =>
    if m = 0 then (f.inf n, .divZero)
    else if n then (f.nan, .invalid)
    else
      let m1 := if e % 2 = 0 then m else 2 * m
      let e1 := if e % 2 = 0 then e else e - 1
      let k := f.mb + 4 + bitLen m1
      let y := 2 ^ (2 * k) / m1
      let r := isqrt y
      f.round mode false r (-(e1 / 2) - k) (r * r != y || 2 ^ (2 * k) % m1 != 0)

/-- 1 / x, rounded once (R159, R160). -/
def Fmt.recip (f : Fmt) (mode : BitVec 3) (x : FVal) : Nat × Fl := f.div mode (.num false 1 0) x

/-- x < y of two numbers, the zeros equal. -/
def numLt (n1 : Bool) (m1 : Nat) (e1 : Int) (n2 : Bool) (m2 : Nat) (e2 : Int) : Bool :=
  let e := if e1 < e2 then e1 else e2
  decide (alignTo n1 m1 e1 e < alignTo n2 m2 e2 e)

/-- x < y of two values, neither a NaN. -/
def FVal.lt (x y : FVal) : Bool :=
  match x, y with
  | .inf a, .inf b => a && !b
  | .inf a, _ => a
  | _, .inf b => !b
  | .num n1 m1 e1, .num n2 m2 e2 => numLt n1 m1 e1 n2 m2 e2
  | _, _ => false

/-- x stands before y, with −0 before +0 (R152). -/
def FVal.before (x y : FVal) : Bool := x.lt y || (x.isZero && y.isZero && x.neg && !y.neg)

/-- minimumNumber and maximumNumber on bit patterns (R152). -/
def Fmt.minMax (f : Fmt) (isMax : Bool) (a b : Nat) : Nat × Fl :=
  let x := f.value a
  let y := f.value b
  let fl := nvIf (x.isSnan || y.isSnan)
  if x.isNan && y.isNan then (f.nan, fl)
  else if x.isNan then (b, fl)
  else if y.isNan then (a, fl)
  else if x.before y then (if isMax then b else a, fl)
  else if y.before x then (if isMax then a else b, fl)
  else (a, fl)

/-- The compare conditions EQ to ORD, with the flag of each (R38, R155). -/
def Fmt.compare (f : Fmt) (k a b : Nat) : Bool × Fl :=
  let x := f.value a
  let y := f.value b
  let un := x.isNan || y.isNan
  let quiet := nvIf (x.isSnan || y.isSnan)
  let loud := nvIf un
  let eq := !un && !x.lt y && !y.lt x
  match k with
  | 0 => (eq, quiet)
  | 1 => (!eq, quiet)
  | 2 => (!un && x.lt y, loud)
  | 3 => (!un && (x.lt y || eq), loud)
  | 4 => (!un && y.lt x, loud)
  | 5 => (!un && (y.lt x || eq), loud)
  | 6 => (un, quiet)
  | _ => (!un, quiet)

/-- The class bit of a value (R153). -/
def Fmt.classOf (f : Fmt) (a : Nat) : Nat :=
  match f.value a with
  | .nan s => if s then 8 else 9
  | .inf n => if n then 0 else 7
  | .num n m _ =>
    if m = 0 then (if n then 3 else 4)
    else if m < 2 ^ f.mb then (if n then 2 else 5)
    else (if n then 1 else 6)

/-- A number rounded to an integer under a mode: the magnitude and whether it changed. -/
def roundMagInt (mode : BitVec 3) (neg : Bool) (m : Nat) (e : Int) : Nat × Bool := roundAt mode neg m e 0 false

/-- An integral value of the same format; NX is never raised (R154). -/
def Fmt.integral (f : Fmt) (mode : BitVec 3) (a : Nat) : Nat × Fl :=
  match f.value a with
  | .nan s => (f.nan, nvIf s)
  | .inf _ => (a, .none)
  | .num n m e =>
    if m = 0 || decide (0 ≤ e) then (a, .none)
    else
      let r := (roundMagInt mode n m e).1
      if r = 0 then (f.zero n, .none) else ((f.round mode n r 0 false).1, .none)

/-! ## Tapered formats (R97 to R100, R104, R105) -/

/-- A tapered format: TF8 or TF6. -/
inductive Taper where
  | tf8
  | tf6
  deriving DecidableEq, Repr

/-- Magnitude bits. -/
def Taper.bits : Taper → Nat
  | .tf8 => 7
  | .tf6 => 5
/-- Every magnitude is a multiple of 2^(-unit). -/
def Taper.unit : Taper → Nat
  | .tf8 => 12
  | .tf6 => 4
/-- MAXT. -/
def Taper.maxT : Taper → Nat
  | .tf8 => 4096
  | .tf6 => 16
def Taper.largestCode (t : Taper) : Nat := 2 ^ t.bits - 1
/-- The code with only the sign set. -/
def Taper.nanCode (t : Taper) : Nat := 2 ^ t.bits

/-- Length of the run of bits equal to b from bit i-1 down. -/
def runLength (m : Nat) (b : Bool) : Nat → Nat
  | 0 => 0
  | i + 1 => if bit m i = b then runLength m b i + 1 else 0

/-- The magnitude of a non-zero magnitude field in units of 2^(-unit) (R97). -/
def Taper.units (t : Taper) (m : Nat) : Nat :=
  let n := t.bits
  let b := bit m (n - 1)
  let run := runLength m b n
  let left := n - run - 1
  let k : Int := if b then (run : Int) - 1 else -(run : Int)
  let hasE := decide (t = .tf8) && decide (0 < left)
  let ebit := if hasE then (bit m (left - 1)).toNat else 0
  let fbits := if hasE then left - 1 else left
  let scale : Int := match t with
    | .tf8 => 2 * k + ebit
    | .tf6 => k
  if m = 0 then 0 else (2 ^ fbits + fld m 0 fbits) * 2 ^ (scale + t.unit - fbits).toNat

/-- The value of a code. -/
def Taper.value (t : Taper) (code : Nat) : FVal :=
  let s := bit code t.bits
  let m := fld code 0 t.bits
  if m = 0 then (if s then .nan false else .num false 0 0) else .num s (t.units m) (-(t.unit : Int))

/-- The largest magnitude field, at most n, whose units are at most x. -/
def Taper.floorCode (t : Taper) (x : Nat) : Nat → Nat
  | 0 => 0
  | n + 1 => if t.units (n + 1) ≤ x then n + 1 else Taper.floorCode t x n

/-- One rounding of the non-zero magnitude m × 2^e to a tapered code, with its flags (R103 to R105). -/
def Taper.round (t : Taper) (mode : BitVec 3) (neg : Bool) (m : Nat) (e : Int) (sticky : Bool) : Nat × Fl :=
  let sh : Int := e + t.unit
  -- the magnitude in units, its rest, and the denominator of the rest
  let whole := if 0 ≤ sh then m * 2 ^ sh.toNat else m / 2 ^ (-sh).toNat
  let den := if 0 ≤ sh then 1 else 2 ^ (-sh).toNat
  let num := if 0 ≤ sh then m * 2 ^ sh.toNat else m
  let rest := (if 0 ≤ sh then 0 else m % 2 ^ (-sh).toNat) != 0 || sticky
  let top := t.maxT * 2 ^ t.unit
  let sgn := if neg then 2 ^ t.bits else 0
  if top < whole || (decide (whole = top) && rest) then (sgn + t.largestCode, .over)
  else
    let c := t.floorCode whole t.largestCode
    let lo := t.units c
    let hi := t.units (c + 1)
    if decide (whole = lo) && !rest then (if c = 0 then 0 else sgn + c, .none)
    else
      let twice := 2 * num
      let mid := (lo + hi) * den
      let up : Bool :=
        match mode.toNat with
        | 1 => decide (mid < twice) || (decide (twice = mid) && (sticky || c % 2 == 1))
        | 3 => !neg
        | 4 => neg
        | 5 => decide (mid ≤ twice)
        | _ => false
      let r := if up then c + 1 else c
      (if r = 0 then 0 else sgn + r, ⟨false, false, false, c == 0, true⟩)

/-! ## Transcendental functions (R159, R160): fixed-point arithmetic to fxBits fraction bits, truncated at each step;
the error stays far below any distance between an inexact result and a value or midpoint of FP32 (log 10). -/

/-- Fraction bits. -/
def fxBits : Nat := 360
/-- 1.0. -/
def fxOne : Nat := 2 ^ fxBits
def fxMul (a b : Nat) : Nat := a * b / fxOne

/-- Σ z^(2i+1) / (2i+1), n terms from i on, for p = z^(2i+1) and q = z². -/
def atanhSum (q : Nat) : Nat → Nat → Nat → Nat
  | 0, _, _ => 0
  | n + 1, i, p => p / (2 * i + 1) + atanhSum q n (i + 1) (fxMul p q)
/-- ln of a ratio through atanh of z: 2 Σ z^(2i+1)/(2i+1). -/
def fxLnOf (z : Nat) : Nat := 2 * atanhSum (fxMul z z) 130 0 z
/-- ln 2 = 2 atanh (1/3). -/
def fxLn2 : Nat := fxLnOf (fxOne / 3)

/-- Σ (-1)^i (1/k)^(2i+1) / (2i+1) as two sums, of the even and the odd i. -/
def atanSum (k : Nat) : Nat → Nat → Nat → Int
  | 0, _, _ => 0
  | n + 1, i, p => (p / (2 * i + 1) : Nat) - atanSum k n (i + 1) (p / (k * k))
/-- π = 16 atan(1/5) − 4 atan(1/239). -/
def fxPi : Nat := (16 * atanSum 5 90 0 (fxOne / 5) - 4 * atanSum 239 30 0 (fxOne / 239)).toNat

/-- Σ y^i / i!, n terms from i on, for p = y^i / i!. -/
def expSum (y : Nat) : Nat → Nat → Nat → Nat
  | 0, _, _ => 0
  | n + 1, i, p => p + expSum y n (i + 1) (fxMul p y / (i + 1))
/-- e^y for 0 ≤ y < 1. -/
def fxExp (y : Nat) : Nat := expSum y 90 0 fxOne

/-- Σ (-1)^i y^(2i+1) / (2i+1)!, for p = y^(2i+1) / (2i+1)! and q = y². -/
def sinSum (q : Nat) : Nat → Nat → Nat → Int
  | 0, _, _ => 0
  | n + 1, i, p => (p : Int) - sinSum q n (i + 1) (fxMul p q / ((2 * i + 2) * (2 * i + 3)))
/-- sin y for 0 ≤ y < 2. -/
def fxSin (y : Nat) : Nat := (sinSum (fxMul y y) 60 0 y).toNat

/-- A number of fraction bits as a fixed-point value; e is at least −fxBits. -/
def fxOf (m : Nat) (e : Int) : Nat := m * 2 ^ (e + fxBits).toNat

/-- 2^x (R159, R160). -/
def exp2Round (mode : BitVec 3) (x : FVal) : Nat × Fl :=
  match x with
  | .nan s => (fp32.nan, nvIf s)
  | .inf n => if n then (fp32.zero false, .none) else (fp32.inf false, .none)
  | .num n m e =>
    if m = 0 then (fp32.one false, .none)
    else if 9 ≤ e + bitLen m then
      (if n then fp32.round mode false (2 ^ 60) (-1000) true else fp32.round mode false (2 ^ 60) 1000 true)
    else
      let v : Int := if n then -(fxOf m e : Int) else fxOf m e
      let whole := v / fxOne
      let part := (v % fxOne).toNat
      if part = 0 then fp32.round mode false 1 whole false
      else fp32.round mode false (fxExp (fxMul part fxLn2)) (whole - fxBits) true

/-- log₂ x (R159, R160). -/
def log2Round (mode : BitVec 3) (x : FVal) : Nat × Fl :=
  match x with
  | .nan s => (fp32.nan, nvIf s)
  | .inf n => if n then (fp32.nan, .invalid) else (fp32.inf false, .none)
  | .num n m e =>
    if m = 0 then (fp32.inf true, .divZero)
    else if n then (fp32.nan, .invalid)
    else
      let l := bitLen m - 1
      let whole : Int := e + l
      if m = 2 ^ l then fp32.roundInt mode whole 0 false
      else
        -- mantissa in [1, 2): z = (mant − 1) / (mant + 1)
        let z := (m - 2 ^ l) * fxOne / (m + 2 ^ l)
        let frac := fxLnOf z * fxOne / fxLn2
        let v : Int := whole * fxOne + frac
        -- v is a floor: for a negative value the magnitude just below it
        if 0 ≤ v then fp32.round mode false v.toNat (-fxBits) true
        else fp32.round mode true ((-v).toNat - 1) (-fxBits) true

/-- sin(π t) for a dyadic t in [0, 1/2], given as a fixed-point value; exact at 0 and 1/2. -/
def sinQuarter (mode : BitVec 3) (neg : Bool) (t : Nat) : Nat × Fl :=
  if t = 0 then (fp32.zero neg, .none)
  else if 2 * t = fxOne then (fp32.one neg, .none)
  else fp32.round mode neg (fxSin (fxMul fxPi t)) (-fxBits) true

/-- sin(π x) (R159, R160). -/
def sinPiRound (mode : BitVec 3) (x : FVal) : Nat × Fl :=
  match x with
  | .nan s => (fp32.nan, nvIf s)
  | .inf _ => (fp32.nan, .invalid)
  | .num n m e =>
    if m = 0 || decide (0 ≤ e) then (fp32.zero n, .none)
    else
      let v := fxOf m e
      let whole := v / fxOne
      let r := v % fxOne
      if r = 0 then (fp32.zero n, .none)
      else
        let t := if fxOne < 2 * r then fxOne - r else r
        sinQuarter mode (n ^^ (whole % 2 == 1)) t

/-- cos(π x) (R159, R160). -/
def cosPiRound (mode : BitVec 3) (x : FVal) : Nat × Fl :=
  match x with
  | .nan s => (fp32.nan, nvIf s)
  | .inf _ => (fp32.nan, .invalid)
  | .num _ m e =>
    if m = 0 then (fp32.one false, .none)
    else if 0 ≤ e then (fp32.one (decide (e = 0) && m % 2 == 1), .none)
    else
      let v := fxOf m e
      let whole := v / fxOne
      let r := v % fxOne
      let odd := whole % 2 == 1
      if 2 * r = fxOne then (fp32.zero false, .none)
      else if 2 * r < fxOne then sinQuarter mode odd (fxOne / 2 - r)
      else sinQuarter mode (!odd) (r - fxOne / 2)

/-- tanh x (R159, R160). -/
def tanhRound (mode : BitVec 3) (x : FVal) : Nat × Fl :=
  match x with
  | .nan s => (fp32.nan, nvIf s)
  | .inf n => (fp32.one n, .none)
  | .num n m e =>
    if m = 0 then (fp32.zero n, .none)
    else if e + bitLen m < -40 then
      -- |tanh x| lies below |x| by less than |x| × 2^-80
      fp32.round mode n (m * 2 ^ 100 - 1) (e - 100) true
    else if 7 ≤ e + bitLen m then fp32.round mode n (2 ^ 200 - 1) (-200) true
    else
      let y := 2 * fxOf m e
      let k := y / fxLn2
      let r := y - k * fxLn2
      -- E = 2^-k / e^r
      let E := fxOne * fxOne / fxExp r / 2 ^ k
      fp32.round mode n ((fxOne - E) * fxOne / (fxOne + E)) (-fxBits) true

end Sys2Proof.Machine
end

