-- ==== Sys2Proof/Machine/FloatInstr.lean ====
section
/-! DEFINITION. The floating-point words of one thread: FP32, packed 16-bit and FP64 arithmetic, compares, division,
roots and transcendental functions (06_thread_float.md R148 to R160). -/
namespace Sys2Proof.Machine

/-! ## Shapes -/

/-- vd := the FP32 result of f on the mode and the values of va and vb; its flags are raised. -/
def f32Two (e : Bool) (d a b : BitVec 6) (f : BitVec 3 → Nat → Nat → Nat × Fl) : State → Out :=
  laneWord e (fun _ => [vReg d.toNat]) (fun _ => [vReg a.toNat, vReg b.toNat])
    (fun t =>
      let r := f t.mode (t.lane a.toNat).toNat (t.lane b.toNat).toNat
      .ok ((t.setLane d.toNat (BitVec.ofNat 32 r.1)).raise r.2))

/-- The same with one source. -/
def f32One (e : Bool) (d a : BitVec 6) (f : BitVec 3 → Nat → Nat × Fl) : State → Out :=
  laneWord e (fun _ => [vReg d.toNat]) (fun _ => [vReg a.toNat])
    (fun t =>
      let r := f t.mode (t.lane a.toNat).toNat
      .ok ((t.setLane d.toNat (BitVec.ofNat 32 r.1)).raise r.2))

/-- The same with an addend (R31). -/
def f32Three (e : Bool) (d a b : BitVec 6) (f : BitVec 3 → Nat → Nat → Nat → Nat × Fl) : State → Out :=
  laneWord e (fun _ => [vReg d.toNat]) (fun t => [vReg a.toNat, vReg b.toNat, vReg (t.third d)])
    (fun t =>
      let r := f t.mode (t.lane a.toNat).toNat (t.lane b.toNat).toNat (t.lane (t.third d)).toNat
      .ok ((t.setLane d.toNat (BitVec.ofNat 32 r.1)).raise r.2))

/-- FP64 on pairs. -/
def f64Two (e : Bool) (d a b : BitVec 6) (f : BitVec 3 → Nat → Nat → Nat × Fl) : State → Out :=
  laneWord e (fun _ => vPair d.toNat) (fun _ => vPair a.toNat ++ vPair b.toNat)
    (fun t =>
      let r := f t.mode (t.pair a.toNat).toNat (t.pair b.toNat).toNat
      .ok ((t.setPair d.toNat (BitVec.ofNat 64 r.1)).raise r.2))

def f64One (e : Bool) (d a : BitVec 6) (f : BitVec 3 → Nat → Nat × Fl) : State → Out :=
  laneWord e (fun _ => vPair d.toNat) (fun _ => vPair a.toNat)
    (fun t =>
      let r := f t.mode (t.pair a.toNat).toNat
      .ok ((t.setPair d.toNat (BitVec.ofNat 64 r.1)).raise r.2))

def f64Three (e : Bool) (d a b : BitVec 6) (f : BitVec 3 → Nat → Nat → Nat → Nat × Fl) : State → Out :=
  laneWord e (fun _ => vPair d.toNat) (fun t => vPair a.toNat ++ vPair b.toNat ++ vPair (t.third d))
    (fun t =>
      let r := f t.mode (t.pair a.toNat).toNat (t.pair b.toNat).toNat (t.pair (t.third d)).toNat
      .ok ((t.setPair d.toNat (BitVec.ofNat 64 r.1)).raise r.2))

/-! ## Operations on bit patterns -/

def Fmt.addBits (f : Fmt) (mode : BitVec 3) (a b : Nat) : Nat × Fl := f.add mode (f.value a) (f.value b)
def Fmt.subBits (f : Fmt) (mode : BitVec 3) (a b : Nat) : Nat × Fl := f.add mode (f.value a) (f.value b).flip
def Fmt.mulBits (f : Fmt) (mode : BitVec 3) (a b : Nat) : Nat × Fl := f.mul mode (f.value a) (f.value b)
def Fmt.fmaBits (f : Fmt) (mode : BitVec 3) (a b c : Nat) : Nat × Fl :=
  f.fma mode (f.value a) (f.value b) (f.value c)

/-- A packed operation: each half by itself, the flags of both together (R156). -/
def packed (f : Nat → Nat → Nat → Nat × Fl) (a b c : Nat) : Nat × Fl :=
  let lo := f (fld a 0 16) (fld b 0 16) (fld c 0 16)
  let hi := f (fld a 16 16) (fld b 16 16) (fld c 16 16)
  (lo.1 + hi.1 * 2 ^ 16, lo.2.or hi.2)

/-! ## FP32 (R150 to R155) -/

def execFadd (e : Bool) (d a b : BitVec 6) : State → Out := f32Two e d a b fp32.addBits
def execFsub (e : Bool) (d a b : BitVec 6) : State → Out := f32Two e d a b fp32.subBits
def execFmul (e : Bool) (d a b : BitVec 6) : State → Out := f32Two e d a b fp32.mulBits
def execFfma (e : Bool) (d a b : BitVec 6) : State → Out := f32Three e d a b fp32.fmaBits
def execFmin (e : Bool) (d a b : BitVec 6) : State → Out := f32Two e d a b (fun _ => fp32.minMax false)
def execFmax (e : Bool) (d a b : BitVec 6) : State → Out := f32Two e d a b (fun _ => fp32.minMax true)
def execFclass (e : Bool) (d a : BitVec 6) : State → Out :=
  f32One e d a (fun _ x => (2 ^ fp32.classOf x, .none))
def execFrnd (e : Bool) (d a : BitVec 6) : State → Out := f32One e d a fp32.integral

def execFcmp (e : Bool) (p : BitVec 4) (c : BitVec 2) (a b k : BitVec 6) : State → Out :=
  laneWord e (fun _ => []) (fun _ => [vReg a.toNat, vReg b.toNat])
    (fun t =>
      let r := fp32.compare k.toNat (t.lane a.toNat).toNat (t.lane b.toNat).toNat
      .ok ((t.setCompare p c r.1).raise r.2))
def execDcmp (e : Bool) (p : BitVec 4) (c : BitVec 2) (a b k : BitVec 6) : State → Out :=
  laneWord e (fun _ => []) (fun _ => vPair a.toNat ++ vPair b.toNat)
    (fun t =>
      let r := fp64.compare k.toNat (t.pair a.toNat).toNat (t.pair b.toNat).toNat
      .ok ((t.setCompare p c r.1).raise r.2))

/-! ## Packed 16-bit (R156) -/

def execPkadd (e : Bool) (d a b : BitVec 6) : State → Out :=
  f32Two e d a b (fun mode x y => packed (fun p q _ => fp16.addBits mode p q) x y 0)
def execPkmul (e : Bool) (d a b : BitVec 6) : State → Out :=
  f32Two e d a b (fun mode x y => packed (fun p q _ => fp16.mulBits mode p q) x y 0)
def execPkfma (e : Bool) (d a b : BitVec 6) : State → Out :=
  f32Three e d a b (fun mode x y z => packed (fp16.fmaBits mode) x y z)
def execPkaddBf (e : Bool) (d a b : BitVec 6) : State → Out :=
  f32Two e d a b (fun mode x y => packed (fun p q _ => bf16.addBits mode p q) x y 0)
def execPkmulBf (e : Bool) (d a b : BitVec 6) : State → Out :=
  f32Two e d a b (fun mode x y => packed (fun p q _ => bf16.mulBits mode p q) x y 0)
def execPkfmaBf (e : Bool) (d a b : BitVec 6) : State → Out :=
  f32Three e d a b (fun mode x y z => packed (bf16.fmaBits mode) x y z)

/-! ## FP64 (R157) -/

def execDadd (e : Bool) (d a b : BitVec 6) : State → Out := f64Two e d a b fp64.addBits
def execDsub (e : Bool) (d a b : BitVec 6) : State → Out := f64Two e d a b fp64.subBits
def execDmul (e : Bool) (d a b : BitVec 6) : State → Out := f64Two e d a b fp64.mulBits
def execDfma (e : Bool) (d a b : BitVec 6) : State → Out := f64Three e d a b fp64.fmaBits
def execDmin (e : Bool) (d a b : BitVec 6) : State → Out := f64Two e d a b (fun _ => fp64.minMax false)
def execDmax (e : Bool) (d a b : BitVec 6) : State → Out := f64Two e d a b (fun _ => fp64.minMax true)

/-! ## Division, roots and transcendental functions (R158 to R160) -/

def execFrcp (e : Bool) (d a : BitVec 6) : State → Out := f32One e d a (fun m x => fp32.recip m (fp32.value x))
def execFrsq (e : Bool) (d a : BitVec 6) : State → Out := f32One e d a (fun m x => fp32.rsqrt m (fp32.value x))
def execFsqrt (e : Bool) (d a : BitVec 6) : State → Out := f32One e d a (fun m x => fp32.sqrt m (fp32.value x))
def execFdiv (e : Bool) (d a b : BitVec 6) : State → Out :=
  f32Two e d a b (fun m x y => fp32.div m (fp32.value x) (fp32.value y))
def execFexp2 (e : Bool) (d a : BitVec 6) : State → Out := f32One e d a (fun m x => exp2Round m (fp32.value x))
def execFlog2 (e : Bool) (d a : BitVec 6) : State → Out := f32One e d a (fun m x => log2Round m (fp32.value x))
def execFsinpi (e : Bool) (d a : BitVec 6) : State → Out := f32One e d a (fun m x => sinPiRound m (fp32.value x))
def execFcospi (e : Bool) (d a : BitVec 6) : State → Out := f32One e d a (fun m x => cosPiRound m (fp32.value x))
def execFtanh (e : Bool) (d a : BitVec 6) : State → Out := f32One e d a (fun m x => tanhRound m (fp32.value x))
def execDrcp (e : Bool) (d a : BitVec 6) : State → Out := f64One e d a (fun m x => fp64.recip m (fp64.value x))
def execDrsq (e : Bool) (d a : BitVec 6) : State → Out := f64One e d a (fun m x => fp64.rsqrt m (fp64.value x))
def execDdiv (e : Bool) (d a b : BitVec 6) : State → Out :=
  f64Two e d a b (fun m x y => fp64.div m (fp64.value x) (fp64.value y))

end Sys2Proof.Machine
end

