-- ==== Sys2Proof/Machine/Cross.lean ====
section
/-! DEFINITION. Rendezvous of a window's threads (09_core.md R214 to R218) and the words that meet at one: SHFL (R219),
VOTE, REDUX, SCAN (R220, R221) and HAD (R112, R220). -/
namespace Sys2Proof.Machine

/-- The window of a TID, and the seat in it (R213). -/
def windowOf (tid : Nat) : Nat := tid / 32
def seatOf (tid : Nat) : Nat := tid % 32

/-- The threads of a window: key and thread, ascending. -/
def State.window (s : State) (ck w : Nat) : List (Nat × Thread) :=
  s.threads.filter (fun p => castOf p.1 == ck && windowOf (tidOf p.1) == w)

/-- The thread is held in the rendezvous set of a key (R214). -/
def Thread.inSet (t : Thread) (pc : DWord) (priv : Priv) (mask : Word) : Bool :=
  match t.held with
  | some (.rdv m _) => decide (t.pc = pc) && decide (t.priv = priv) && decide (m = mask)
  | _ => false

/-- The threads of a window that are held in the set of a key. -/
def State.rdvSet (s : State) (ck w : Nat) (pc : DWord) (priv : Priv) (mask : Word) : List (Nat × Thread) :=
  (s.window ck w).filter (fun p => p.2.inSet pc priv mask)

/-- The seats of threads as a bit set. -/
def seatBits : List (Nat × Thread) → Word
  | [] => 0
  | (tk, _) :: rest => (1#32 <<< seatOf (tidOf tk)) ||| seatBits rest

/-- TVAL of RDV (R217): the convergence register for code 2, the code, the seats that are missing. -/
def rdvTval (q code : Nat) (missing : Word) : DWord :=
  BitVec.ofNat 64 (q * 2 ^ 36 + code * 2 ^ 32 + missing.toNat)

/-- Each of some threads of a cast takes a synchronous trap at its instruction, in ascending order. -/
def State.trapEach (s : State) (c : Cast) (x : Nat → TrapInfo) : List (Nat × Thread) → State
  | [] => s
  | (tk, t) :: rest => (s.trapAt tk t c (x tk)).trapEach c x rest

/-- The held members of a set take RDV (R217). -/
def State.failSet (s : State) (ck w : Nat) (c : Cast) (pc : DWord) (priv : Priv) (mask : Word) (code : Nat) : State :=
  let held := s.rdvSet ck w pc priv mask
  s.trapEach c (fun _ => trapOf .rdv (rdvTval 0 code (mask &&& ~~~seatBits held))) held

/-- Members that go on past the word, each with its own result (R214, R215). -/
def State.release (s : State) (c : Cast) (e : Bool) : List (Nat × Thread) → State
  | [] => s
  | (tk, t) :: rest => (s.finish tk { t with held := none } c e 4).release c e rest

/-- A word that acts on a member mask in s[sm] (R214 to R218): all asks for the full mask; regs are the registers it
names; act gives every member of the complete set its result. -/
def rendezvous (e : Bool) (m : BitVec 5) (all : Bool) (regs : List Nat)
    (act : List (Nat × Thread) → List (Nat × Thread)) (s : State) : Out :=
  issue anyPriv (fun _ => regs)
    (fun t c =>
      let tk := s.focus
      let ck := castOf tk
      let w := windowOf (tidOf tk)
      let mask : Word := (t.uni m.toNat).setWidth 32
      let seat := seatOf (tidOf tk)
      if !mask.getLsbD seat || (all && mask != 0xFFFF_FFFF) then .trap (trapOf .illegal (BitVec.ofNat 64 (sReg m.toNat)))
      else
        let held := s.rdvSet ck w t.pc t.priv mask
        if (s.window ck w).any (fun p => decide (p.2.run = .exited) && mask.getLsbD (seatOf (tidOf p.1))) then
          let s1 := s.failSet ck w c t.pc t.priv mask 1
          .ok (s1.trapAt tk t c
            (trapOf .rdv (rdvTval 0 1 (mask &&& ~~~seatBits held &&& ~~~(1#32 <<< seat)))))
        else if mask &&& ~~~seatBits held &&& ~~~(1#32 <<< seat) ≠ 0 then .hold (.rdv mask s.tick)
        else
          let before := held.filter (fun p => p.1 < tk)
          let after := held.filter (fun p => tk < p.1)
          .ok (s.release c e (act (before ++ (tk, t) :: after))))
    s

/-! ## SHFL (R219) -/

/-- The member's value at a seat; its own where the seat is no member. -/
def atSeat (ms : List (Nat × Thread)) (j : Nat) (a : Nat) (own : Word) : Word :=
  match ms.find? (fun p => seatOf (tidOf p.1) == j) with
  | some p => p.2.lane a
  | none => own

/-- SHFL: the source seat of a member by its own values. -/
def shuffle (e : Bool) (d a : BitVec 6) (m : BitVec 5) (extra : List Nat) (src : Nat → Thread → Nat) : State → Out :=
  rendezvous e m false ([vReg d.toNat, vReg a.toNat, sReg m.toNat] ++ extra)
    (fun ms => ms.map (fun p =>
      (p.1, p.2.setLane d.toNat (atSeat ms (src (seatOf (tidOf p.1)) p.2) a.toNat (p.2.lane a.toNat)))))

def execShflIdx (e : Bool) (d a : BitVec 6) (m n : BitVec 5) : State → Out :=
  shuffle e d a m [] (fun _ _ => n.toNat)
def execShflSidx (e : Bool) (d a : BitVec 6) (m n : BitVec 5) : State → Out :=
  shuffle e d a m [sReg n.toNat] (fun _ t => (t.uni n.toNat).toNat % 32)
def execShflXor (e : Bool) (d a : BitVec 6) (m n : BitVec 5) : State → Out :=
  shuffle e d a m [] (fun seat _ => seat ^^^ n.toNat)
def execShflVidx (e : Bool) (d a : BitVec 6) (m : BitVec 5) : State → Out :=
  shuffle e d a m [] (fun _ t => (t.lane d.toNat).toNat % 32)

/-! ## VOTE, REDUX, SCAN, HAD (R220, R221) -/

/-- A word of format XT: from the seats and values of the members in ascending order, each member's result and the flags
that all of them receive. -/
def windowWord (e : Bool) (d a : BitVec 6) (m : BitVec 5) (all : Bool)
    (f : List (Nat × Nat) → (Nat → Nat) × Fl) : State → Out :=
  rendezvous e m all [vReg d.toNat, vReg a.toNat, sReg m.toNat]
    (fun ms =>
      let r := f (ms.map (fun p => (seatOf (tidOf p.1), (p.2.lane a.toNat).toNat)))
      ms.map (fun p =>
        (p.1, (p.2.setLane d.toNat (BitVec.ofNat 32 (r.1 (seatOf (tidOf p.1))))).raise r.2)))

/-- The value of VOTE (R39, R220). -/
def vote (k : Nat) (xs : List (Nat × Nat)) : Nat :=
  let nz := xs.filter (fun p => p.2 != 0)
  match k with
  | 0 => (nz.length == xs.length).toNat
  | 1 => (!nz.isEmpty).toNat
  | 2 => (xs.all (fun p => some p.2 == xs.head?.map (·.2))).toNat
  | 3 => nz.foldl (fun n p => n + 2 ^ p.1) 0
  | 4 => nz.length
  | _ => (nz.head?.map (·.1)).getD 32

def execVote (e : Bool) (d a : BitVec 6) (m : BitVec 5) (k : BitVec 4) : State → Out :=
  windowWord e d a m false (fun xs => (fun _ => vote k.toNat xs, .none))

/-- An operator of REDUX and SCAN (R221). -/
def windowOp (k a b : Nat) : Nat × Fl :=
  let x : Int := (BitVec.ofNat 32 a).toInt
  let y : Int := (BitVec.ofNat 32 b).toInt
  match k with
  | 0 => ((a + b) % 2 ^ 32, .none)
  | 1 => (if y < x then b else a, .none)
  | 2 => (if x < y then b else a, .none)
  | 3 => (Nat.min a b, .none)
  | 4 => (Nat.max a b, .none)
  | 5 => (a &&& b, .none)
  | 6 => (a ||| b, .none)
  | 7 => (a ^^^ b, .none)
  | 8 => fp32.addBits rne a b
  | 9 => fp32.minMax false a b
  | _ => fp32.minMax true a b

/-- Its identity (R221). -/
def windowIdentity (k : Nat) : Nat :=
  match k with
  | 0 => 0
  | 1 => 0x7FFF_FFFF
  | 2 => 0x8000_0000
  | 3 => 0xFFFF_FFFF
  | 4 => 0
  | 5 => 0xFFFF_FFFF
  | 6 => 0
  | 7 => 0
  | 8 => 0x8000_0000
  | 9 => 0x7F80_0000
  | _ => 0xFF80_0000

/-- Reading a signalling NaN as an arithmetic operand raises NV (R94, R221). -/
def windowRead (k : Nat) (xs : List (Nat × Nat)) : Fl :=
  nvIf (decide (8 ≤ k) && xs.any (fun p => (fp32.value p.2).isSnan))

/-- One stage of the tree of R221 over the seats from j on: seat j takes its partner m seats up. -/
def treeStage (k m : Nat) (x : List (Option Nat)) (fl : Fl) : List (Option Nat) × Fl :=
  (List.range 32).foldl (fun (r : List (Option Nat) × Fl) j =>
    if j &&& m = 0 then
      match r.1.getD j none, r.1.getD (j + m) none with
      | some a, some b =>
        let z := windowOp k a b
        (r.1.set j (some z.1), r.2.or z.2)
      | none, some b => (r.1.set j (some b), r.2)
      | _, none => r
    else r) (x, fl)

/-- REDUX (R221). -/
def treeReduce (k : Nat) (xs : List (Nat × Nat)) : Nat × Fl :=
  let start := (List.range 32).map (fun j => (xs.find? (fun p => p.1 == j)).map (·.2))
  let r := [1, 2, 4, 8, 16].foldl (fun (r : List (Option Nat) × Fl) m => treeStage k m r.1 r.2)
    (start, windowRead k xs)
  (((r.1.getD 0 none)).getD 0, r.2)

def execRedux (e : Bool) (d a : BitVec 6) (m : BitVec 5) (k : BitVec 4) : State → Out :=
  windowWord e d a m false (fun xs =>
    let r := treeReduce k.toNat xs
    (fun _ => r.1, r.2))

/-- The fold of R221 over values in ascending seat order. -/
def foldScan (k : Nat) : List (Nat × Nat) → Nat × Fl → Nat × Fl
  | [], r => r
  | (_, x) :: rest, r =>
    let z := windowOp k r.1 x
    foldScan k rest (z.1, r.2.or z.2)

/-- SCAN: the fold of each member's range, and the flags of all folds. -/
def scan (k : Nat) (inclusive : Bool) (xs : List (Nat × Nat)) : (Nat → Nat) × Fl :=
  let of_ (seat : Nat) : Nat × Fl :=
    foldScan k (xs.filter (fun p => decide (p.1 < seat) || (inclusive && p.1 == seat))) (windowIdentity k, .none)
  (fun seat => (of_ seat).1, xs.foldl (fun fl p => fl.or (of_ p.1).2) (windowRead k xs))

def execScanInc (e : Bool) (d a : BitVec 6) (m : BitVec 5) (k : BitVec 4) : State → Out :=
  windowWord e d a m false (scan k.toNat true)
def execScanExc (e : Bool) (d a : BitVec 6) (m : BitVec 5) (k : BitVec 4) : State → Out :=
  windowWord e d a m false (scan k.toNat false)

/-- One stage of the rotation (R112). -/
def hadStage (m : Nat) (x : List Nat) (fl : Fl) : List Nat × Fl :=
  (List.range 32).foldl (fun (r : List Nat × Fl) j =>
    if j &&& m = 0 then
      let a := r.1.getD j 0
      let b := r.1.getD (j + m) 0
      let lo := fp32.addBits rne a b
      let hi := fp32.subBits rne a b
      ((r.1.set j lo.1).set (j + m) hi.1, (r.2.or lo.2).or hi.2)
    else r) (x, fl)

/-- HAD on the 32 values of a window (R112). -/
def hadamard (x : List Nat) : List Nat × Fl :=
  let r := [1, 2, 4, 8, 16].foldl (fun (r : List Nat × Fl) m => hadStage m r.1 r.2) (x, Fl.none)
  let ys := r.1.map (fun v => fp32.mulBits rne v 0x3E35_04F3)
  (ys.map (·.1), ys.foldl (fun fl y => fl.or y.2) r.2)

def execHad (e : Bool) (d a : BitVec 6) (m : BitVec 5) : State → Out :=
  windowWord e d a m true (fun xs =>
    let r := hadamard (xs.map (·.2))
    (fun seat => r.1.getD seat 0, r.2))

end Sys2Proof.Machine
end

