-- ==== Sys2Proof/Machine/Converge.lean ====
section
/-! DEFINITION. Convergence registers: sets, signatures, CONV and QREAD (09_core.md R222 to R226), and barrier records: BAR
and BINIT (R227 to R231). -/
namespace Sys2Proof.Machine

/-! ## Convergence registers -/

/-- A register after a launch: EMPTY, GEN 0 (R222). -/
def QReg.initial : QReg :=
  { w := 0, m := 0, quartet := false, state := .empty, gen := 0, key := ⟨0, []⟩, signers := [], progress := 0,
    next := none, owed := [], owedTval := 0 }
/-- Register q of a cast. -/
def Cast.qreg (c : Cast) (q : Nat) : QReg := tget c.q q QReg.initial
/-- Register q receives r. -/
def Cast.setQ (c : Cast) (q : Nat) (r : QReg) : Cast := { c with q := tset c.q q r QReg.initial }

/-- The TID is in the declared set (R222). -/
def QReg.declares (r : QReg) (tid : Nat) : Bool := r.w.getLsbD (tid / 32) && r.m.getLsbD (tid % 32)

/-- The declared members of a cast that are not Exited (R222). -/
def State.qMembers (s : State) (ck : Nat) (r : QReg) : List (Nat × Thread) :=
  s.threads.filter (fun p => castOf p.1 == ck && r.declares (tidOf p.1) && !decide (p.2.run = .exited))

/-- The thread is held at a signing of q. -/
def Thread.signs (t : Thread) (q : Nat) : Option OpKey :=
  match t.held with
  | some (.sign n key _ _) => if n = q then some key else none
  | _ => none

/-- The threads of a cast held at a signing of q. -/
def State.heldSigners (s : State) (ck q : Nat) : List (Nat × Thread) :=
  s.threads.filter (fun p => castOf p.1 == ck && (p.2.signs q).isSome)

/-- The signatures of the current round: a thread that q still owes DIVERGE is held uncounted (R282). -/
def State.signatures (s : State) (ck q : Nat) (r : QReg) : List (Nat × Thread) :=
  (s.heldSigners ck q).filter (fun p => !r.owed.any (fun o => o.1 == tidOf p.1))

/-- Casts per ensemble of a production (R342). -/
def Prod.cpe (p : Prod) : Nat := (p.bytes.getD 0x0A 0).toNat
/-- The casts that sign together: those of the ensemble for a quartet set, else the cast alone (R226). -/
def quartetOf (ck : Nat) (quartet : Bool) : List Nat :=
  if quartet then (List.range 4).map (ck / 4 * 4 + ·) else [ck]

/-- TVAL of MISMATCH (R225). -/
def mismatchTval (code q : Nat) : DWord := BitVec.ofNat 64 (code * 2 ^ 8 + q)
/-- A MISMATCH trap. -/
def mismatch (code q : Nat) : TrapInfo := trapOf .mismatch (mismatchTval code q)

/-- Every held signer of q in a cast takes MISMATCH, with cue B restored (R223, R225). -/
def State.abandon (s : State) (ck q code : Nat) : State :=
  match s.cast ck with
  | none => s
  | some c => s.trapEach c (fun _ => mismatch code q) (s.heldSigners ck q)

/-- The declaration that CONV makes; none is EMPTY (R223). -/
def convNew (w : DWord) (d : DWord) : Option (DWord × Word × Bool) :=
  if w = 0 || d.setWidth 32 = 0#32 then none else some (w, d.setWidth 32, d.getLsbD 32)

/-- The declaration in force. -/
def QReg.declared (r : QReg) : Option (DWord × Word × Bool) :=
  if r.state = .empty then none else some (r.w, r.m, r.quartet)

/-- A register with a new declaration: OPEN without signatures, or EMPTY, its W, M and Q then 0 (log 34); GEN is kept (R222,
R223). -/
def QReg.declare (r : QReg) (d : Option (DWord × Word × Bool)) : QReg :=
  match d with
  | some (w, m, q) => { r with w := w, m := m, quartet := q, state := .opened, next := none }
  | none => { r with w := 0, m := 0, quartet := false, state := .empty, next := none }

/-- CONV (R223); over an ISSUED register it is compared with the declaration in force, not with one that waits (log 34). -/
def execConv (e : Bool) (q a b : BitVec 5) (s : State) : Out :=
  issue anyPriv (fun _ => [sReg a.toNat, sReg b.toNat])
    (fun t0 c0 =>
      let p := s.charge t0 [a.toNat, b.toNat]
      let s0 := p.1
      let t := p.2
      let ck := castOf s.focus
      let n := q.toNat
      let w := t.uni a.toNat
      let d := t.uni b.toNat
      let r := c0.qreg n
      if fld d.toNat 33 31 ≠ 0 then .trap (trapOf .illegal (BitVec.ofNat 64 (sReg b.toNat)))
      else if w.toNat / 2 ^ (c0.ntid / 32) ≠ 0 then .trap (trapOf .illegal (BitVec.ofNat 64 (sReg a.toNat)))
      else if d.getLsbD 32 && (match tfind s0.prods c0.prod with
          | some x => x.cpe != 4
          | none => true) then .trap (mismatch 2 n)
      else
        let new := convNew w d
        if new = r.declared then .ok (s0.finish s.focus t c0 e 4)
        else if decide (r.state = .issued) || !(s0.heldSigners ck n).isEmpty then
          if t.priv = .program then .trap (mismatch 1 n)
          else
            let s1 := s0.abandon ck n 1
            let r' := if r.state = .issued then { r with next := some (new.getD (0, 0, false)) } else r.declare new
            let c1 := ((s1.cast ck).getD c0).setQ n r'
            .ok ((s1.putC ck c1).finish s.focus t c1 e 4)
        else
          let c1 := c0.setQ n (r.declare new)
          .ok ((s0.putC ck c1).finish s.focus t c1 e 4))
    s

/-- STATE of a status word (R224). -/
def QState.code : QState → Nat
  | .empty => 0
  | .opened => 1
  | .issued => 2
  | .done => 3

/-- The keys of the threads that have signed the current round: while the operation is issued those are its signers, and a
thread held at q signs the round after it (R222, R224). -/
def State.signed (s : State) (ck q : Nat) (r : QReg) : List (Nat × Thread) :=
  if r.state = .issued then
    (s.threads.filter (fun p => castOf p.1 == ck && r.signers.any (fun x => x.1 == p.1)))
  else s.signatures ck q r

/-- The selections of QREAD (R224). -/
def State.qread (s : State) (ck q tid : Nat) (r : QReg) (sel : Nat) : DWord :=
  let sigs := s.signed ck q r
  match sel with
  | 0 => BitVec.ofNat 64 (r.state.code * 2 ^ 62 + r.quartet.toNat * 2 ^ 61 + (s.qMembers ck r).length * 2 ^ 36
      + sigs.length * 2 ^ 24 + r.gen.toNat)
  | 1 => r.w
  | 2 => BitVec.ofNat 64 (r.quartet.toNat * 2 ^ 32 + r.m.toNat)
  | _ => (seatBits (sigs.filter (fun p => windowOf (tidOf p.1) == windowOf tid))).setWidth 64

/-- QREAD (R224). -/
def execQread (e : Bool) (d q sel : BitVec 5) (s : State) : Out :=
  issue anyPriv (fun _ => [sReg d.toNat])
    (fun t c =>
      .ok (s.finish s.focus
        (t.putUni d.toNat (s.qread (castOf s.focus) q.toNat (tidOf s.focus) (c.qreg q.toNat) sel.toNat)) c e 4))
    s

/-! ## Barrier records (R227 to R231) -/

/-- The fields of a record: EXPECT, ARRIVED, PHASE and the reserved word. -/
structure BarRec where
  expect : Nat
  arrived : Nat
  phase : Nat
  rest : Nat
  deriving DecidableEq, Repr

/-- The record in 16 bytes (R227). -/
def BarRec.of (x : Nat) : BarRec := ⟨fld x 0 32, fld x 32 32, fld x 64 32, fld x 96 32⟩
def BarRec.num (r : BarRec) : Nat := r.expect + r.arrived * 2 ^ 32 + r.phase * 2 ^ 64 + r.rest * 2 ^ 96
/-- A malformed record (R227). -/
def BarRec.malformed (r : BarRec) : Bool := r.expect == 0 || decide (r.expect ≤ r.arrived) || r.rest != 0

/-- Space and address of a record descriptor (R228). -/
def barSpace (d : DWord) : Space := if d.getLsbD 56 then .scratch else .global
def barAddr (d : DWord) : DWord := d &&& 0x00FF_FFFF_FFFF_FFFF

/-- An arrival at a record: its new contents (R230). -/
def BarRec.arrive (r : BarRec) (drop : Bool) : BarRec :=
  let r1 := if drop then { r with expect := r.expect - 1 } else { r with arrived := r.arrived + 1 }
  if 0 < r1.arrived && decide (r1.expect ≤ r1.arrived) then
    { r1 with arrived := 0, phase := (r1.phase + 1) % 2 ^ 32 }
  else r1

/-- PIDX of a thread that waits at BAR (R231). -/
def barPidx (p : Nat) : DWord := BitVec.ofNat 64 (2 * 2 ^ 60 + p)

/-- BINIT (R229). -/
def execBinit (e : Bool) (a b : BitVec 5) (s : State) : Out :=
  issue anyPriv (fun _ => [sReg a.toNat, sReg b.toNat])
    (fun t0 c =>
      let p := s.charge t0 [a.toNat, b.toNat]
      let t := p.2
      let d := t.uni a.toNat
      let x := (t.uni b.toNat).toNat
      if fld d.toNat 57 7 ≠ 0 then .trap (trapOf .illegal (BitVec.ofNat 64 (sReg a.toNat)))
      else if x = 0 || decide (2 ^ 32 ≤ x) then .trap (trapOf .illegal (BitVec.ofNat 64 (sReg b.toNat)))
      else
        (p.1.checked t c s.focus (barSpace d) (barAddr d) 16 .rmw).bind (fun (s1, l) =>
          (s1.modifyBy t c (barAddr d) l 16
            (fun y => some ({ BarRec.of y with expect := x, arrived := 0, rest := 0 } : BarRec).num)).bind (fun r =>
              .ok (r.1.finish s.focus r.2 c e 4))))
    s

/-- The wait of BAR: a load of PHASE; the thread goes on where it differs from the arrival's, else it is held (R230). -/
def State.barWait (s : State) (tk : Nat) (t : Thread) (c : Cast) (d : Nat) (desc : DWord) (e : Bool) (p : Nat) :
    Res State :=
  (s.locate t c (castOf tk) (barSpace desc) (barAddr desc + 8) 4 .read).bind (fun (s1, l) =>
    let r := s1.readBy t c (barAddr desc + 8) l 4
    if r.2.2 = p then .ok (r.1.putT tk { r.2.1 with held := some (.bar d desc e) })
    else .ok (r.1.finish tk { r.2.1.putUni d (BitVec.ofNat 64 p) with pidx := 0, held := none } c e 4))

/-- BAR (R230, R231); one that resumes its wait is checked as a read (log 34). -/
def execBar (e : Bool) (d a : BitVec 5) (s : State) : Out :=
  issue anyPriv (fun _ => [sReg d.toNat, sReg a.toNat])
    (fun t0 c =>
      let ch := s.charge t0 [a.toNat]
      let t := ch.2
      let desc := t.uni a.toNat
      if fld desc.toNat 59 5 ≠ 0 then .trap (trapOf .illegal (BitVec.ofNat 64 (sReg a.toNat)))
      else
        let resumed := decide (fld t.pidx.toNat 60 4 = 2)
        (ch.1.checked t c s.focus (barSpace desc) (barAddr desc) 16 (if resumed then .read else .rmw)).bind
          (fun (s1, l) =>
            if resumed then s1.barWait s.focus t c d.toNat desc e (fld t.pidx.toNat 0 32)
            else
              let r := BarRec.of (s1.value l 16)
              (s1.modifyBy t c (barAddr desc) l 16 (fun x =>
                if (BarRec.of x).malformed then none else some ((BarRec.of x).arrive (desc.getLsbD 58)).num)).bind
                (fun (s2, t1) =>
                  if r.malformed then .late s2 t1 (trapOf .illegal (barAddr desc))
                  else if desc.getLsbD 58 || desc.getLsbD 57 then
                    .ok (s2.finish s.focus (t1.putUni d.toNat (BitVec.ofNat 64 r.phase)) c e 4)
                  else
                    let t2 := { t1 with pidx := barPidx r.phase }
                    (s2.barWait s.focus t2 c d.toNat desc e r.phase).after s2 t2)))
    s

/-- A thread held at BAR loads PHASE again (R230); a failing load traps at the BAR. -/
def State.pollBar (s : State) (tk : Nat) : State :=
  match s.thread tk, s.cast (castOf tk) with
  | some t, some c =>
    match t.held with
    | some (.bar d desc e) =>
      match s.barWait tk t c d desc e (fld t.pidx.toNat 0 32) with
      | .ok s' => s'
      | .trap x => s.trapAt tk t c x
      | _ => s
    | _ => s
  | _, _ => s

/-- PHASE of the record that a held BAR waits for has moved, and a load of it now is sure to see that. -/
def State.barMoved (s : State) (t : Thread) (c : Cast) (ck : Nat) (desc : DWord) : Bool :=
  match s.locate t c ck (barSpace desc) (barAddr desc + 8) 4 .read with
  | .ok (_, l) => (s.copyOf c.agent l).isNone && !l.isHost && s.value l 4 != fld t.pidx.toNat 0 32
  | _ => true

end Sys2Proof.Machine
end

