-- ==== Sys2Proof/Machine/Convert.lean ====
section
/-! DEFINITION. CVT (R161 to R164), companding curves and CTBL (R108 to R111, R165 to R168), QNT and DQNT (R169 to
R171). -/
namespace Sys2Proof.Machine

/-! ## CVT -/

/-- What a conversion reads: a floating value, tapered or not, or an integer. -/
inductive CvtIn where
  | real (v : FVal) (tapered : Bool)
  | int (x : Int)

/-- The IEEE format of a code (R40). -/
def ieeeOf (c : Nat) : Option Fmt :=
  match c with
  | 0 => some fp64
  | 1 => some fp32
  | 2 => some fp16
  | 3 => some bf16
  | _ => none
/-- The tapered format of a code. -/
def taperOf (c : Nat) : Option Taper :=
  match c with
  | 4 => some .tf8
  | 5 => some .tf6
  | _ => none
/-- Width and signedness of an integer format code. -/
def intOf (c : Nat) : Nat × Bool :=
  match c with
  | 8 => (8, true)
  | 9 => (8, false)
  | 10 => (16, true)
  | 12 => (32, true)
  | _ => (64, true)
/-- The code takes a register pair. -/
def wideCode (c : Nat) : Bool := c == 0 || c == 14

/-- The source of a conversion, in the low bits of x (R93). -/
def cvtIn (code x : Nat) : CvtIn :=
  match ieeeOf code, taperOf code with
  | some f, _ => .real (f.value (fld x 0 f.width)) false
  | _, some t => .real (t.value (fld x 0 (t.bits + 1))) true
  | _, _ =>
    let w := intOf code
    let v := fld x 0 w.1
    .int (if w.2 && bit v (w.1 - 1) then (v : Int) - 2 ^ w.1 else v)

/-- The least and the largest value of an integer format. -/
def intMin (w : Nat × Bool) : Int := if w.2 then -(2 ^ (w.1 - 1)) else 0
def intMax (w : Nat × Bool) : Int := if w.2 then 2 ^ (w.1 - 1) - 1 else 2 ^ w.1 - 1

/-- To an integer format (R163, R162). -/
def toInteger (w : Nat × Bool) (mode : BitVec 3) (sat : Bool) (x : CvtIn) : Nat × Fl :=
  let wrap (i : Int) : Nat := (i % 2 ^ w.1).toNat
  match x with
  | .int i => (wrap (if sat then clampInt i (intMin w) (intMax w) else i), .none)
  | .real v _ =>
    match v with
    | .nan _ => (0, .invalid)
    | .inf n => (wrap (if sat then (if n then intMin w else intMax w) else 0), .invalid)
    | .num n m e =>
      let r := roundMagInt mode n m e
      let i : Int := if n then -(r.1 : Int) else r.1
      (wrap (if sat then clampInt i (intMin w) (intMax w) else i), ⟨false, false, false, false, r.2⟩)

/-- To an IEEE format (R162). -/
def toIeee (f : Fmt) (mode : BitVec 3) (x : CvtIn) : Nat × Fl :=
  match x with
  | .int i => f.roundInt mode i 0 false
  | .real v tap =>
    match v with
    | .nan s => (f.nan, nvIf (s && !tap))
    | .inf n => (f.inf n, .none)
    | .num n m e => if m = 0 then (f.zero n, .none) else f.round mode n m e false

/-- To a tapered format (R162, R164). -/
def toTaper (t : Taper) (mode : BitVec 3) (sat : Bool) (x : CvtIn) : Nat × Fl :=
  match x with
  | .int i => if i = 0 then (0, .none) else t.round mode (decide (i < 0)) i.natAbs 0 false
  | .real v tap =>
    match v with
    | .nan _ => (t.nanCode, nvIf (!tap))
    | .inf n => if sat then ((if n then 2 ^ t.bits else 0) + t.largestCode, .over) else (t.nanCode, .invalid)
    | .num n m e => if m = 0 then (0, .none) else t.round mode n m e false

/-- A conversion by format codes (R162). -/
def convert (src dst : Nat) (mode : BitVec 3) (sat : Bool) (x : Nat) : Nat × Fl :=
  match ieeeOf dst, taperOf dst with
  | some f, _ => toIeee f mode (cvtIn src x)
  | _, some t => toTaper t mode sat (cvtIn src x)
  | _, _ => toInteger (intOf dst) mode sat (cvtIn src x)

def execCvt (e : Bool) (d a s t : BitVec 6) : State → Out :=
  laneWord e
    (fun _ => if wideCode t.toNat then vPair d.toNat else [vReg d.toNat])
    (fun _ => if wideCode s.toNat then vPair a.toNat else [vReg a.toNat])
    (fun th =>
      let x := if wideCode s.toNat then (th.pair a.toNat).toNat else (th.lane a.toNat).toNat
      let r := convert s.toNat t.toNat th.mode th.sat x
      let th' := if wideCode t.toNat then th.setPair d.toNat (BitVec.ofNat 64 r.1)
        else th.setLane d.toNat (BitVec.ofNat 32 r.1)
      .ok (th'.raise r.2))

/-! ## Curves -/

/-- Δ of a target format (R109). -/
def Taper.delta (t : Taper) : Nat := t.maxT / 16
/-- w_i and s_i of a curve as FP32 patterns; no curve is the identity (R109). -/
def curveW (t : Taper) (c : Option Curve) (i : Nat) : Nat :=
  match c with
  | some k => fld ((k.entries.getD i 0).toNat) 0 32
  | none => (fp32.roundInt rne (i * t.delta : Nat) 0 false).1
def curveS (c : Option Curve) (i : Nat) : Nat :=
  match c with
  | some k => fld ((k.entries.getD i 0).toNat) 32 32
  | none => fp32.one false

/-- The forward curve at the magnitude m × 2^e below MAXT: one fused rounding to FP32 (R110). -/
def curveForward (t : Taper) (c : Option Curve) (m : Nat) (e : Int) : Nat × Fl :=
  let whole := if 0 ≤ e then m * 2 ^ e.toNat else m / 2 ^ (-e).toNat
  let i := whole / t.delta
  let e0 : Int := if e < 0 then e else 0
  let rest := alignTo false m e e0 - alignTo false (i * t.delta) 0 e0
  fp32.fma rne (.num false rest.natAbs e0) (fp32.value (curveS c i)) (fp32.value (curveW t c i))

/-- The magnitude m × 2^e is at or above, or above, MAXT. -/
def atMax (t : Taper) (m : Nat) (e : Int) : Bool := !numLt false m e false t.maxT 0
def aboveMax (t : Taper) (m : Nat) (e : Int) : Bool := numLt false t.maxT 0 false m e

/-- QNT of an FP32 pattern with a block scale (R170); a curve value that is not finite, which only an edited image brings about,
gives the largest magnitude with OF and NX (log 8). -/
def quantise (t : Taper) (c : Option Curve) (mode : BitVec 3) (scale : Int) (x : Nat) : Nat × Fl :=
  match fp32.value x with
  | .num n m e =>
    if scale = -128 then (t.nanCode, .invalid)
    else
      let eu := e - scale
      if atMax t m eu then
        ((if n then 2 ^ t.bits else 0) + t.largestCode, if aboveMax t m eu then .over else .none)
      else
        let C := curveForward t c m eu
        match fp32.value C.1 with
        | .num _ mc ec =>
          if mc = 0 then (0, C.2)
          else
            let r := t.round mode n mc ec false
            (r.1, C.2.or r.2)
        | _ => ((if n then 2 ^ t.bits else 0) + t.largestCode, C.2.or .over)
  | _ => (t.nanCode, .invalid)

/-- The largest index at most n with w_i ≤ the magnitude m × 2^e (R111). -/
def inverseIndex (t : Taper) (c : Option Curve) (m : Nat) (e : Int) : Nat → Nat
  | 0 => 0
  | i + 1 =>
    match fp32.value (curveW t c (i + 1)) with
    | .num _ mw ew => if numLt false m e false mw ew then inverseIndex t c m e i else i + 1
    | _ => inverseIndex t c m e i

/-- The inverse curve of a magnitude, rounded once to the decoded float: m × 2^e (R111); where an entry that an edited image
restored is not finite, the magnitude itself (log 8). -/
def curveInverse (t : Taper) (c : Option Curve) (m : Nat) (e : Int) : Nat × Int :=
  match c with
  | none => (m, e)
  | some _ =>
    let i := inverseIndex t c m e 15
    match fp32.value (curveW t c i), fp32.value (curveS c i) with
    | .num _ mw ew, .num _ ms es =>
      let e1 := if e < ew then e else ew
      let diff := (alignTo false m e e1 - alignTo false mw ew e1).toNat
      let e2 := if e1 < es then e1 else es
      let e3 := if e2 < 0 then e2 else 0
      -- u_i + diff × 2^e1 / (ms × 2^es) = num / den
      let den := ms * 2 ^ (es - e3).toNat
      let num := i * t.delta * den + diff * 2 ^ (e1 - e3).toNat
      let top := (i + 1) * t.delta
      if top * den ≤ num then (top, 0)
      else if num = 0 then (0, 0)
      else
        let q := divMag 12 num 0 den 0
        match decodedFloat.value (decodedFloat.round rne false q.1 q.2.1 q.2.2).1 with
        | .num _ mr er => (mr, er)
        | _ => (0, 0)
    | _, _ => (m, e)

/-- DQNT of a code with a block scale (R171): the flags are those of the product; the rounding of Cinv raises none (log 34). -/
def dequantise (t : Taper) (c : Option Curve) (scale : Int) (code : Nat) : Nat × Fl :=
  match t.value code with
  | .num n m e =>
    if scale = -128 then (fp32.nan, .none)
    else
      let v := curveInverse t c m e
      if v.1 = 0 then (fp32.zero n, .none) else fp32.round rne n v.1 (v.2 + scale) false
  | _ => (fp32.nan, .none)

/-- The curve of a control word: CURVE 0, and a curve never loaded, are the identity (R168). -/
def Cast.curve (c : Cast) (n : Nat) : Option Curve := if n = 0 then none else tfind c.curves n
/-- The curve fits the format (R168, R169). -/
def Cast.curveFits (c : Cast) (n : Nat) (t : Taper) : Bool :=
  match c.curve n with
  | some k => k.tf6 == decide (t = .tf6)
  | none => true

/-- QNT and DQNT: f acts on the curve, FRM, the block scale and va. -/
def quantWord (e : Bool) (d a b : BitVec 6) (t : Taper)
    (f : Option Curve → BitVec 3 → Int → Nat → Nat × Fl) (s : State) : Out :=
  issue anyPriv (fun _ => [vReg d.toNat, vReg a.toNat, vReg b.toNat])
    (fun th c =>
      let ctl := (th.lane b.toNat).toNat
      let n := fld ctl 8 2
      if !c.curveFits n t then .trap (trapOf .illegal (BitVec.ofNat 64 (vReg b.toNat)))
      else
        let r := f (c.curve n) th.frm (BitVec.ofNat 8 ctl).toInt (th.lane a.toNat).toNat
        .ok (s.finish s.focus ((th.setLane d.toNat (BitVec.ofNat 32 r.1)).raise r.2) c e 4))
    s

def execQntTf8 (e : Bool) (d a b : BitVec 6) : State → Out := quantWord e d a b .tf8 (quantise .tf8)
def execQntTf6 (e : Bool) (d a b : BitVec 6) : State → Out := quantWord e d a b .tf6 (quantise .tf6)
def execDqntTf8 (e : Bool) (d a b : BitVec 6) : State → Out :=
  quantWord e d a b .tf8 (fun c _ sc x => dequantise .tf8 c sc (fld x 0 8))
def execDqntTf6 (e : Bool) (d a b : BitVec 6) : State → Out :=
  quantWord e d a b .tf6 (fun c _ sc x => dequantise .tf6 c sc (fld x 0 6))

/-! ## CTBL (R165 to R168) -/

/-- The value is a finite number. -/
def finite32 (x : Nat) : Bool :=
  match fp32.value x with
  | .num _ _ _ => true
  | _ => false

/-- w' < w + Δ × s exactly, for finite values (R109). -/
def curveFalls (delta : Nat) (w s w' : Nat) : Bool :=
  match fp32.value w, fp32.value s, fp32.value w' with
  | .num n m e, .num ns ms es, .num n' m' e' =>
    let e1 := if e < es then e else es
    let e2 := if e1 < e' then e1 else e'
    decide (alignTo n' m' e' e2 < alignTo n m e e2 + alignTo ns (ms * delta) es e2)
  | _, _, _ => false

/-- The check of entry i and of those after it, n of them (R167): code + 256 × index, 0 where all pass. -/
def curveCheck (delta : Nat) (es : List DWord) : Nat → Nat → Nat
  | 0, _ => 0
  | n + 1, i =>
    let ent := (es.getD i 0).toNat
    let w := fld ent 0 32
    let s := fld ent 32 32
    let w' := fld ((es.getD (i + 1) 0).toNat) 0 32
    if i = 0 && w != 0 then 1 + 256 * i
    else if !finite32 w || !finite32 s then 2 + 256 * i
    else if (fp32.value s).isZero || (fp32.value s).neg then 3 + 256 * i
    else if i < 15 && finite32 w' && curveFalls delta w s w' then 4 + 256 * i
    else curveCheck delta es n (i + 1)

/-- n doublewords read by LD.D accesses in ascending addresses (R166): the state, the thread with what it has seen and
owes, and the values; where one traps, what those before it owe stands (R194). No other agent's access comes between those
of one CTBL (log 34). -/
def State.readDoubles (c : Cast) (tk : Nat) :
    Nat → DWord → State → Thread → List DWord → Res (State × Thread × List DWord)
  | 0, _, s, t, acc => .ok (s, t, acc)
  | n + 1, a, s, t, acc =>
    ((s.checked t c tk .global a 8 .read).after s t).bind (fun (s1, l) =>
      let r := s1.readBy t c a l 8
      State.readDoubles c tk n (a + 8) r.1 r.2.1 (acc ++ [BitVec.ofNat 64 r.2.2]))

def execCtbl (e : Bool) (d a b : BitVec 6) (s : State) : Out :=
  issue anyPriv (fun _ => [vReg d.toNat] ++ vPair a.toNat ++ [vReg b.toNat])
    (fun t c =>
      let ctl := (t.lane b.toNat).toNat
      let n := fld ctl 0 2
      if n = 0 then .ok (s.finish s.focus (t.setLane d.toNat 5) c e 4)
      else
        (State.readDoubles c s.focus 16 (t.pair a.toNat) s t []).bind (fun (s1, t1, es) =>
          let tf6 := bit ctl 2
          let st := curveCheck (if tf6 then Taper.tf6.delta else Taper.tf8.delta) es 16 0
          let c1 := if st = 0 then { c with curves := tput c.curves n ⟨es, tf6⟩ } else c
          .ok ((s1.putC (castOf s.focus) c1).finish s.focus (t1.setLane d.toNat (BitVec.ofNat 32 st)) c1 e 4)))
    s

end Sys2Proof.Machine
end

