-- ==== Sys2Proof/Machine/Memory.lean ====
section
/-! DEFINITION. Loads, stores, prefetch, multicast store and fence (07_thread_memory_traps.md R177 to R181; R305), and
the atomics (R182 to R184). -/
namespace Sys2Proof.Machine

/-- The space that a MEM space code names (R37): 000 global, 001 .REP, 010 .STR, 011 scratchpad, 100 weight store. -/
def spaceOf (s : BitVec 3) : Space :=
  match s.toNat with
  | 3 => .scratch
  | 4 => .weights
  | _ => .global

/-- The lane registers of an access of n bytes from register d on. -/
def dataRegs (d n : Nat) : List Nat := if n = 16 then vRange d 4 else if n = 8 then vPair d else [vReg d]

/-- The register bytes that ST stores, as one number (R178). -/
def Thread.storeData (t : Thread) (d n : Nat) : Nat :=
  if n = 16 then (t.pair d).toNat + (t.pair (d + 2)).toNat * 2 ^ 64
  else if n = 8 then (t.pair d).toNat else (t.lane d).toNat % 2 ^ (8 * n)

/-- An operation is issued: numbered, counted on its cue, its destinations outstanding (R77, R80). -/
def Thread.issueOp (t : Thread) (op cue : Nat) (regs : List Nat) (vals : List DWord) (ready : Bool)
    (store : Option Nat) (addr : DWord) : Thread :=
  { t.incCue cue with outst := t.outst ++ [⟨op, cue, regs, vals, ready, store, addr, none⟩] }

/-- The operation just issued is an atomic of a key. -/
def Thread.atKey (t : Thread) (op : Nat) (k : Key) : Thread :=
  { t with outst := t.outst.map (fun (o : Outst) => if o.op = op then { o with wrote := some k } else o) }

/-- The calendar key of the store that holds a place (R296, R331, R337). -/
def State.storeOf (s : State) (l : Loc) : Option Nat :=
  match l with
  | .dram gi a => (s.gal gi).map (fun g => vaultOf g a)
  | .weights gi a => (s.gal gi).map (fun g => 2240 + g.tiles.getD (a / Config.weightsPerTile) 0)
  | _ => none

/-! ## Replicas (R305) -/

/-- The latest key of the thread's accesses to n cells from a on. -/
def lastSeen (m : Tab Key) (a : Nat) : Nat → Key
  | 0 => Key.zero
  | n + 1 => (tget m (a + n) Key.zero).later (lastSeen m a n)

/-- The line's home is the tile of the core: no replica is made there (R305). -/
def homeIsHere (s : State) (c : Cast) (l : Loc) : Bool :=
  match c.coreNo with
  | some k => s.homeTile l == some (tileOf k)
  | none => true

/-- The key at which a production started. -/
def State.startOf (s : State) (prod : Nat) : Key :=
  match tfind s.prods prod with
  | some p => p.startKey
  | none => Key.zero

/-- Host writes made before a production started. -/
def State.hostStart (s : State) (prod : Nat) : Nat :=
  match tfind s.prods prod with
  | some p => p.startHost
  | none => 0

/-- What a replica of n bytes at a place may supply to a thread: any value that the location held since the production's
start, the thread's latest FENCE.R and its latest access there, of host and pool memory to the line (R305, R316, log 4). -/
def State.replicaValues (s : State) (t : Thread) (c : Cast) (l : Loc) (n : Nat) : List OldValue :=
  let L := (s.startOf c.prod).later (t.fenceR.later (lastSeen t.seen l.cell n))
  oldValues l.cell L.before (Nat.max (s.hostStart c.prod) (Nat.max t.repFrom (tget t.hostLines l.line 0))) L s.past
    (bytesAt s.mem l.cell n) s.hostCount

/-- A .REP load on a page with RA: one of the values that a replica may supply, below the load's own key; which is free (R305,
log 4). The thread has seen the host writes that the value is sure to have (R316). -/
def State.replica (s : State) (t : Thread) (c : Cast) (l : Loc) (n : Nat) : Got × Thread :=
  let vs := s.replicaValues t c l n
  let v := vs.getD (Config.freeChoice s.free % vs.length) ⟨0, Key.zero, 0, 0⟩
  let r := ({ s with free := s.free + 1 } : State).readKey c.agent v.key
  (⟨r.1, v.x, false, r.2⟩, t.seeHost l v.lo v.hi)

/-- The page of a global address allows replicas. -/
def State.allowsReplica (s : State) (t : Thread) (c : Cast) (a : DWord) : Bool :=
  match s.gal c.gallery with
  | some g =>
    match translate s.readable c.gallery g a t.priv .read with
    | .ok x => x.replicas
    | _ => false
  | none => false

/-- The access of LD: a replica where the hint, the page and the line's home allow one, else a read (R178, R305). -/
def State.loadBy (s : State) (t : Thread) (c : Cast) (hint : Bool) (a : DWord) (l : Loc) (n : Nat) :
    State × Thread × Nat :=
  if hint && s.allowsReplica t c a && !homeIsHere s c l && !s.poisoned l then
    let r := s.replica t c l n
    (r.1.s, r.2.see l n r.1.key, r.1.x)
  else s.readBy t c a l n

/-- The operation of the next number is a load of n bytes of a place, of a form and a key: from host and pool memory later
accesses of its thread may overtake it, where the line supplies data (R316, log 36). -/
def Thread.overtakable (t : Thread) (s : State) (l : Loc) (n : Nat) (z : BitVec 3) (key : Key) : Thread :=
  if l.isHost && !s.poisoned l then { t with late := ⟨s.nextOp, l, n, z, key, s.hostCount, none⟩ :: t.late } else t

/-! ## LD, ST, PFETCH, MCST, FENCE -/

def execLd (e : Bool) (d a : BitVec 6) (b : BitVec 5) (m : BitVec 1) (z sp : BitVec 3) (s : State) : Out :=
  let n := sizeOf3 z
  issue anyPriv (fun _ => dataRegs d.toNat n ++ addrRegs a.toNat b.toNat (m == 1))
    (fun t c =>
      if t.cueFull t.cueA then .wait
      else
        let addr := t.address a.toNat b.toNat (m == 1) n
        (s.checked t c s.focus (spaceOf sp) addr n .read).bind (fun (s1, l) =>
          let r := s1.loadBy t c (sp == 1) addr l n
          let t1 := r.2.1.issueOp r.1.nextOp t.cueA (dataRegs d.toNat n) (loadVals z r.2.2) true (s1.storeOf l) addr
          let t2 := t1.overtakable r.1 l n z (r.1.nowKey c.agent)
          .ok ({ r.1 with nextOp := r.1.nextOp + 1 }.finish s.focus t2 c e 4)))
    s

def execSt (e : Bool) (d a : BitVec 6) (b : BitVec 5) (m : BitVec 1) (z sp : BitVec 3) (s : State) : Out :=
  let n := sizeOf3 z
  issue anyPriv (fun _ => dataRegs d.toNat n ++ addrRegs a.toNat b.toNat (m == 1))
    (fun t c =>
      let addr := t.address a.toNat b.toNat (m == 1) n
      (s.checked t c s.focus (spaceOf sp) addr n .write).bind (fun (s1, l) =>
        (s1.storeBy t c l n (t.storeData d.toNat n)).bind (fun r => .ok (r.1.finish s.focus r.2 c e 4))))
    s

/-- PFETCH changes no register and no memory value and takes no trap of an access (R179). -/
def execPfetch (e : Bool) (a : BitVec 6) (b : BitVec 5) (m : BitVec 1) (_sp : BitVec 3) (s : State) : Out :=
  issue anyPriv (fun _ => addrRegs a.toNat b.toNat (m == 1)) (fun t c => .ok (s.finish s.focus t c e 4)) s

/-- The addresses of MCST, count of them (R180). -/
def mcstAddrs (t : Thread) (a b : Nat) (pairForm : Bool) (n count : Nat) : List DWord :=
  (List.range count).map (fun i =>
    if pairForm then t.pair (a + 2 * i) else t.uni b + (t.lane (a + i)).signExtend 64 * BitVec.ofNat 64 n)

/-- The checks of every address, in ascending order; the places in that order (R180). -/
def State.checkAll (t : Thread) (c : Cast) (tk n : Nat) :
    List DWord → State → List Loc → Res (State × List Loc)
  | [], s, ls => .ok (s, ls)
  | a :: rest, s, ls =>
    (s.checked t c tk .global a n .write).bind (fun (s1, l) => State.checkAll t c tk n rest s1 (ls ++ [l]))

/-- A store of an MCST at a place, with the addresses of those that are left (R180): each store takes a step of its own, so
that accesses of other agents may fall between them (R307), and the thread is held at the word until the last is made. -/
def State.mcstStore (s : State) (t : Thread) (c : Cast) (e : Bool) (n x : Nat) (l : Loc) (rest : List DWord) : Res State :=
  (s.storeBy t c l n x).bind (fun r =>
    .ok (if rest.isEmpty then r.1.finish s.focus { r.2 with held := none } c e 4
      else r.1.putT s.focus { r.2 with held := some (.mcst rest n x) }))

/-- The next store of an MCST whose checks are made: its address is translated at the store, to the frame then on stage and by
the entries as they then are (R176, R188); one that fails traps with the stores before it made (log 35). -/
def State.mcstNext (s : State) (t : Thread) (c : Cast) (e : Bool) (n x : Nat) : List DWord → Res State
  | [] => .ok (s.finish s.focus { t with held := none } c e 4)
  | a :: rest =>
    (s.locate t c (castOf s.focus) .global a n .write).bind (fun (s1, l) => s1.mcstStore t c e n x l rest)

/-- The entries that the first address of an MCST is translated by are leased past its store, which follows the walks of the
others (R188). -/
def State.leaseFirst (s : State) (t : Thread) (c : Cast) (a : DWord) : State :=
  match s.gal c.gallery with
  | some g =>
    match translate s.readable c.gallery g a t.priv .write with
    | .ok x => s.leaseWalk c.agent c.gallery x
    | _ => s
  | none => s

/-- The thread in focus goes on with an MCST whose checks are made; a store that a frozen page holds is tried again. -/
def State.mcstRest (s : State) (e : Bool) : Option Out :=
  match s.thread s.focus, s.cast (castOf s.focus) with
  | some t, some c =>
    match t.held with
    | some (.mcst rest n x) =>
      match s.mcstNext t c e n x rest with
      | .hold _ => some (.next s)
      | r => some (s.settle s.focus t c r)
    | _ => none
  | _, _ => none

def execMcst (e : Bool) (d a : BitVec 6) (b : BitVec 5) (m z : BitVec 1) (k : BitVec 2) (s : State) : Out :=
  let n := if z = 1 then 8 else 4
  let count := k.toNat + 1
  match s.mcstRest e with
  | some r => r
  | none =>
    issue anyPriv
      (fun _ => dataRegs d.toNat n ++
        (if m = 1 then vRange a.toNat (2 * count) else vRange a.toNat count ++ [sReg b.toNat]))
      (fun t c =>
        let addrs := mcstAddrs t a.toNat b.toNat (m == 1) n count
        (State.checkAll t c s.focus n addrs s []).bind (fun (s1, ls) =>
          match addrs, ls with
          | x :: rest, l :: _ => (s1.leaseFirst t c x).mcstStore t c e n (t.storeData d.toNat n) l rest
          | _, _ => .ok (s1.finish s.focus t c e 4)))
      s

/-- The engine operations and framed matrix stores that a thread issued and that have not completed (R181). -/
def State.pendingEngine (s : State) (tk : Nat) : List Nat :=
  (s.ops.filter (fun p => p.2.node.isNone && p.2.tk == tk && !p.2.owed)).map (·.1) ++
    s.cores.flatMap (fun p => (p.2.order.filter (fun o => o.tk == some tk && o.framed)).map (·.op))

/-- The end of a FENCE: .R bounds the thread's later .REP loads, .H its later reads of host memory (R181, R305, R316). -/
def State.fenced (s : State) (tk : Nat) (t : Thread) (c : Cast) (k : BitVec 3) (e : Bool) : State :=
  let t1 := if k.getLsbD 1 then { t with fenceR := s.nowKey c.agent, repFrom := s.hostCount } else t
  let t2 := if k.getLsbD 0 then
      { t1 with hostFrom := s.hostCount, late := t1.late.map (fun x => x.capped s.hostCount) }
    else t1
  s.finish tk { t2 with held := none } c e 4

/-- FENCE (R181): it waits for the engine operations that it names; no trap of its own, and a hardware breakpoint on its word is
matched before it as before any word (R201, log 34). -/
def execFence (e : Bool) (k : BitVec 3) (s : State) : Out :=
  issue anyPriv (fun _ => [])
    (fun t c =>
      let ops := if k.getLsbD 2 then s.pendingEngine s.focus else []
      if ops.isEmpty then .ok (s.fenced s.focus t c k e)
      else .hold (.fence ops k e))
    s

/-- A waiting FENCE.E goes on once the operations that it waits for have completed (R181). -/
def execFenceComplete (tk : Nat) (s : State) : Out :=
  match s.thread tk, s.cast (castOf tk) with
  | some t, some c =>
    match t.held with
    | some (.fence ops k e) =>
      if ops.any (fun o => (s.pendingEngine tk).contains o) then .next s else .next (s.fenced tk t c k e)
    | _ => .next s
  | _, _ => .next s

/-- The value that an operation writes to a register of the numbering of R190. -/
def Thread.putReg (t : Thread) (r : Nat) (x : DWord) : Thread :=
  if r < 64 then t.setLane r (x.setWidth 32) else t.putUni (r - 64) x

/-- The registers of an operation receive its values, the first to the first. -/
def Thread.putRegs (t : Thread) : List Nat → List DWord → Thread
  | r :: rs, x :: xs => (t.putReg r x).putRegs rs xs
  | _, _ => t

/-- An operation completes for its thread: its registers are written, they are outstanding no more and its cue falls;
an Exited thread discards the result (R77, R78, R80, R81). -/
def State.completeOp (s : State) (tk op : Nat) : State :=
  match s.thread tk with
  | none => s
  | some t =>
    match t.outst.find? (fun o => o.op == op) with
    | none => s
    | some o =>
      let b := s.landed t o
      let t1 := { b.2.1 with outst := t.outst.filter (fun p => p.op != op) }
      b.1.putT tk (if t.run = .exited then t1 else (t1.putRegs o.regs b.2.2).decCue o.cue)

/-- The store is in a refresh window and serves no access (R336). -/
def State.refreshing (s : State) (store : Option Nat) : Bool :=
  match store with
  | some n => if n < 2240 then (s.cluster n).window else (s.tile (n - 2240)).window
  | none => false

/-- A load or atomic completes (R77); one that a refreshing store serves waits for the window's end (R336). -/
def execLoadComplete (tk op : Nat) (s : State) : Out :=
  match s.thread tk with
  | none => .next s
  | some t =>
    if t.outst.any (fun o => o.op == op && o.ready && !s.refreshing o.store) then .next (s.completeOp tk op)
    else .next s

/-! ## Atomics (R182, R183) -/

/-- The signed value of w-bit x. -/
def signedOf (w x : Nat) : Int := (BitVec.ofNat w x).toInt

/-- An atomic: new value from the old one and the operand, on 32 or 64 bits; none writes nothing. opRegs are the
registers of vd that the word names. -/
def atomic (e : Bool) (d a : BitVec 6) (b : BitVec 5) (m w sp : BitVec 1) (opRegs : List Nat)
    (f : Nat → Thread → Nat → Option Nat) (s : State) : Out :=
  let n := if w = 1 then 8 else 4
  issue anyPriv (fun _ => opRegs ++ addrRegs a.toNat b.toNat (m == 1))
    (fun t c =>
      if t.cueFull t.cueA then .wait
      else
        let addr := t.address a.toNat b.toNat (m == 1) n
        let space := if sp = 1 then Space.scratch else Space.global
        (s.checked t c s.focus space addr n .rmw).bind (fun (s1, l) =>
          (s1.modifyBy t c addr l n (f n t)).bind (fun r =>
            let z : BitVec 3 := if w = 1 then 3 else 2
            let t1 := r.2.issueOp r.1.nextOp t.cueA (dataRegs d.toNat n) (loadVals z (s1.value l n)) true (s1.storeOf l) addr
            .ok ({ r.1 with nextOp := r.1.nextOp + 1 }.finish s.focus (t1.atKey r.1.nextOp (r.1.nowKey c.agent)) c e 4))))
    s

/-- The operand in vd, a pair for 64 bits. -/
def Thread.operand (t : Thread) (d n : Nat) : Nat := if n = 8 then (t.pair d).toNat else (t.lane d).toNat

/-- A two-operand atomic. -/
def atomic2 (e : Bool) (d a : BitVec 6) (b : BitVec 5) (m w sp : BitVec 1) (f : Nat → Nat → Nat → Nat) :
    State → Out :=
  atomic e d a b m w sp (dataRegs d.toNat (if w = 1 then 8 else 4))
    (fun n t x => some (f (8 * n) x (t.operand d.toNat n)))

def execAadd (e : Bool) (d a : BitVec 6) (b : BitVec 5) (m w p : BitVec 1) : State → Out :=
  atomic2 e d a b m w p (fun w x y => (x + y) % 2 ^ w)
def execAmin (e : Bool) (d a : BitVec 6) (b : BitVec 5) (m w p : BitVec 1) : State → Out :=
  atomic2 e d a b m w p (fun w x y => if signedOf w y < signedOf w x then y else x)
def execAmax (e : Bool) (d a : BitVec 6) (b : BitVec 5) (m w p : BitVec 1) : State → Out :=
  atomic2 e d a b m w p (fun w x y => if signedOf w x < signedOf w y then y else x)
def execAand (e : Bool) (d a : BitVec 6) (b : BitVec 5) (m w p : BitVec 1) : State → Out :=
  atomic2 e d a b m w p (fun _ x y => x &&& y)
def execAor (e : Bool) (d a : BitVec 6) (b : BitVec 5) (m w p : BitVec 1) : State → Out :=
  atomic2 e d a b m w p (fun _ x y => x ||| y)
def execAxor (e : Bool) (d a : BitVec 6) (b : BitVec 5) (m w p : BitVec 1) : State → Out :=
  atomic2 e d a b m w p (fun _ x y => x ^^^ y)
def execAxch (e : Bool) (d a : BitVec 6) (b : BitVec 5) (m w p : BitVec 1) : State → Out :=
  atomic2 e d a b m w p (fun _ _ y => y)
/-- AFADD rounds nearest-even and writes no flag (R183). -/
def execAfadd (e : Bool) (d a : BitVec 6) (b : BitVec 5) (m w p : BitVec 1) : State → Out :=
  atomic2 e d a b m w p (fun w x y =>
    let f := if w = 64 then fp64 else fp32
    (f.add rne (f.value x) (f.value y)).1)
/-- ACAS: compare in vd, swap in vd+1 or vd+2 (R37, R183). -/
def execAcas (e : Bool) (d a : BitVec 6) (b : BitVec 5) (m w p : BitVec 1) : State → Out :=
  atomic e d a b m w p (if w = 1 then vRange d.toNat 4 else vPair d.toNat)
    (fun n t x =>
      if x = t.operand d.toNat n then some (t.operand (d.toNat + n / 4) n) else none)

end Sys2Proof.Machine
end

