-- ==== Sys2Proof/Machine/Matrix.lean ====
section
/-! DEFINITION. The matrix unit's arithmetic and state: tiles, the summation order (04_number_formats.md R114, R115),
reservations: VRES, VREL, TFETCH (11_cluster_matrix.md R240 to R256), operands (R243 to R247) and the group steps of MMA
and QMMA (R258 to R262). -/
namespace Sys2Proof.Machine

/-! ## Tiles (R241, R269) -/

/-- Number of element (i, j) of tile d. -/
def tileIndex (d i j : Nat) : Nat := d * 4096 + i * 64 + j
/-- Element (i, j) of tile d. -/
def Core.elem (c : Core) (d i j : Nat) : Word := tget c.acc (tileIndex d i j) 0
/-- The 4,096 elements of tile d, row-major. -/
def Core.tile (c : Core) (d : Nat) : List Word := (List.range 4096).map (fun n => tget c.acc (d * 4096 + n) 0)
/-- The entries of a tile that hold something other than +0, numbered from n on. -/
def tileEntries : Nat → List Word → Tab Word
  | _, [] => []
  | n, x :: rest => if x = 0 then tileEntries (n + 1) rest else (n, x) :: tileEntries (n + 1) rest
/-- Tile d receives 4,096 elements. -/
def Core.setTile (c : Core) (d : Nat) (xs : List Word) : Core :=
  { c with acc := c.acc.filter (fun p => p.1 < d * 4096) ++ tileEntries (d * 4096) xs ++
      c.acc.filter (fun p => decide ((d + 1) * 4096 ≤ p.1)) }
/-- One element receives x. -/
def Core.setElem (c : Core) (d i j : Nat) (x : Word) : Core := { c with acc := tset c.acc (tileIndex d i j) x 0 }

/-- Status words of a tile that hold nothing (R269). -/
def TileStat.zero : TileStat := ⟨0, 0, 0, 0⟩
/-- The status words of tile d. -/
def Core.status (c : Core) (d : Nat) : TileStat := tget c.stat d TileStat.zero
def Core.setStatus (c : Core) (d : Nat) (x : TileStat) : Core := { c with stat := tset c.stat d x TileStat.zero }
/-- Events as bits of the event word (R269). -/
def Fl.event (f : Fl) : BitVec 9 :=
  BitVec.ofNat 9 (f.nv.toNat * 16 + f.of.toNat * 4 + f.uf.toNat * 2 + f.nx.toNat)
/-- Events are recorded in tile d (R270). -/
def Core.note (c : Core) (d : Nat) (f : Fl) : Core :=
  c.setStatus d { c.status d with event := (c.status d).event ||| f.event }
/-- The POISON bit of tile d (R249). -/
def Core.notePoison (c : Core) (d : Nat) : Core :=
  c.setStatus d { c.status d with event := (c.status d).event ||| 0x100 }
/-- The event, report and residual words of tile d are cleared (R270). -/
def Core.clearStatus (c : Core) (d : Nat) : Core := c.setStatus d TileStat.zero
/-- Coefficient register n (R268). -/
def Core.coefficient (c : Core) (n : Nat) : Word := tget c.coef n 0

/-- Tile d is granted to the cast (R241). -/
def Cast.grants (c : Cast) (d : Nat) : Bool := decide (d < 8) && c.amask.getLsbD d
/-- TVAL of RESV (R250). -/
def resvTval (code n q : Nat) : DWord := BitVec.ofNat 64 (code * 2 ^ 8 + n * 2 ^ 4 + q)
/-- A RESV trap. -/
def resv (code n q : Nat) : TrapInfo := trapOf .resv (resvTval code n q)

/-! ## Summation order (R114, R115) -/

/-- An exact product, and whether a NaN arose or a signalling NaN was read. -/
def FVal.times (x y : FVal) : FVal × Bool :=
  match x, y with
  | .nan a, .nan b => (.nan false, a || b)
  | .nan a, _ => (.nan false, a)
  | _, .nan b => (.nan false, b)
  | .inf a, .inf b => (.inf (a ^^ b), false)
  | .inf a, .num b m _ => if m = 0 then (.nan false, true) else (.inf (a ^^ b), false)
  | .num a m _, .inf b => if m = 0 then (.nan false, true) else (.inf (a ^^ b), false)
  | .num a m e, .num b n f => (.num (a ^^ b) (m * n) (e + f), false)

/-- The exact sum of two values, where neither is NaN unless the result is; a zero sum is −0 only where both are. -/
def FVal.plus (x y : FVal) : FVal × Bool :=
  match x, y with
  | .nan _, _ => (.nan false, false)
  | _, .nan _ => (.nan false, false)
  | .inf a, .inf b => if a = b then (.inf a, false) else (.nan false, true)
  | .inf a, _ => (.inf a, false)
  | _, .inf b => (.inf b, false)
  | .num a m e, .num b n f =>
    let g := if e < f then e else f
    let z := alignTo a m e g + alignTo b n f g
    (.num (if z = 0 then a && b else decide (z < 0)) z.natAbs g, false)

/-- The exact sum of the products of a group, and whether it is invalid: a product 0 × ∞, or infinities of both signs; where
a NaN stands beside those infinities, whether NV is raised is open (R114, log 34). -/
def groupSum (xs : List (FVal × FVal)) : FVal × Bool :=
  let ps := xs.map (fun p => p.1.times p.2)
  let clash := ps.any (fun p => p.1.isInf && p.1.neg) && ps.any (fun p => p.1.isInf && !p.1.neg)
  (ps.foldr (fun p r => (p.1.plus r).1) (.num true 0 0),
    ps.any (·.2) || (clash && (!ps.any (fun p => p.1.isNan) || Config.nvBesideNan)))

/-- An exact value rounded to a format (R114). -/
def Fmt.ofValue (f : Fmt) (x : FVal) : Nat × Fl :=
  match x with
  | .nan _ => (f.nan, .none)
  | .inf n => (f.inf n, .none)
  | .num n m e => if m = 0 then (f.zero n, .none) else f.round rne n m e false

/-- One group of R114 added to an accumulator pattern. -/
def Fmt.group (f : Fmt) (acc : Nat) (xs : List (FVal × FVal)) : Nat × Fl :=
  let s := groupSum xs
  let g := f.ofValue s.1
  let r := f.add rne (f.value acc) (f.value g.1)
  (r.1, ((nvIf s.2).or g.2).or r.2)

/-- One group of R115 added to an INT32 accumulator. -/
def intGroup (acc : Nat) (xs : List (Int × Int)) : Nat :=
  (BitVec.ofInt 32 ((acc : Int) + (xs.map (fun p => p.1 * p.2)).foldl (· + ·) 0)).toNat

/-! ## Reservations (R240, R244, R250, R253 to R256) -/

/-- Fields of a descriptor (R244). -/
def dT (d : Nat) : Bool := bit d 58
def dCurve (d : Nat) : Nat := fld d 56 2
def dFmt (d : Nat) : Nat := fld d 52 4
def dBlk (d : Nat) : Nat := 8 * 2 ^ fld d 50 2
def dSpace (d : Nat) : Nat := fld d 48 2
def dK (d : Nat) : Nat := (fld d 40 8 + 1) * 64
def dSld (d : Nat) : Nat := fld d 24 16
def dLd (d : Nat) : Nat := fld d 0 24
/-- The tapered format of a descriptor. -/
def dTaper (d : Nat) : Option Taper :=
  if dFmt d = 4 then some .tf8 else if dFmt d = 5 then some .tf6 else none
/-- Bits of an element of a format (R40). -/
def fmtBits (f : Nat) : Nat :=
  match f with
  | 0 => 64
  | 1 => 32
  | 2 => 16
  | 3 => 16
  | 5 => 6
  | _ => 8

/-- The first code of R250 that VRES finds. -/
def vresCode (c : Cast) (base sbase : DWord) (d : Nat) : Option Nat :=
  let encore := dSpace d = 2
  if fld d 59 5 ≠ 0 ∨ dSpace d = 3 then some 1
  else if dFmt d = 6 ∨ dFmt d = 7 ∨ 9 < dFmt d then some 2
  else if encore then
    if base.toNat / 8 ≠ 0 ∨ sbase ≠ 0 ∨ dCurve d ≠ 0 ∨ fld d 50 2 ≠ 0 ∨ dSld d ≠ 0 ∨ dLd d ≠ 0 ∨ dT d = true ∨
        fld d 40 8 ≠ 0 ∨ (dFmt d ≠ 1 ∧ dFmt d ≠ 3) ∨ c.grants (base.toNat % 8) = false then some 6
    else none
  else if base.toNat % 128 ≠ 0 ∨ dLd d = 0 ∨ dLd d % 128 ≠ 0 then some 3
  else
    match dTaper d with
    | none =>
      if fld d 50 2 ≠ 0 ∨ dSld d ≠ 0 ∨ dCurve d ≠ 0 ∨ sbase ≠ 0 then some 4 else none
    | some t =>
      if dSld d < dK d / dBlk d then some 4
      else if !c.curveFits (dCurve d) t then some 5
      else none

/-- VRES (R254). -/
def execVres (e : Bool) (rec : BitVec 4) (a b : BitVec 5) (s : State) : Out :=
  issue anyPriv (fun _ => [sReg a.toNat, sReg (a.toNat + 1), sReg b.toNat])
    (fun t0 c =>
      let p := s.charge t0 [a.toNat, a.toNat + 1, b.toNat]
      let t := p.2
      let base := t.uni a.toNat
      let sbase := t.uni (a.toNat + 1)
      let d := t.uni b.toNat
      match vresCode c base sbase d.toNat with
      | some code => .trap (resv code rec.toNat 0)
      | none =>
        let curve := if (dTaper d.toNat).isSome then c.curve (dCurve d.toNat) else none
        let c1 := { c with vt := tput c.vt rec.toNat ⟨base, sbase, d, curve⟩ }
        .ok ((p.1.putC (castOf s.focus) c1).finish s.focus t c1 e 4))
    s

/-- VREL (R255). -/
def execVrel (e : Bool) (rec : BitVec 4) (s : State) : Out :=
  issue anyPriv (fun _ => [])
    (fun t c =>
      let c1 := { c with vt := tdel c.vt rec.toNat }
      .ok ((s.putC (castOf s.focus) c1).finish s.focus t c1 e 4))
    s

/-- TFETCH changes no state that a program reads and takes no trap after decode, of a budget or a cue hazard neither (R256);
a breakpoint on its word is checked as on any (log 34). -/
def execTfetch (e : Bool) (_rec : BitVec 4) (b : BitVec 5) (s : State) : Out :=
  issue anyPriv (fun _ => [])
    (fun t0 c =>
      let p := s.charge t0 [b.toNat]
      .ok (p.1.finish s.focus p.2 c e 4))
    s

/-! ## Operands (R245, R247, R249) -/

/-- The stored rows of an operand run over its outer index, and not over K. -/
def rowsAreOuter (d : Nat) (isA : Bool) : Bool := isA != dT d
/-- Bytes of a stored row of an operand with n outer indices (R248 step 5). -/
def rowBytes (d : Nat) (isA : Bool) (n : Nat) : Nat :=
  (if rowsAreOuter d isA then dK d else n) * fmtBits (dFmt d) / 8

/-- The byte ranges of an operand's outer indices lo to lo+n-1 at kn places along K from klo on: start and length, elements
then scales. -/
def operandRanges (r : VRec) (isA : Bool) (lo n klo kn : Nat) : List (Nat × Nat) :=
  let d := r.desc.toNat
  let bits := fmtBits (dFmt d)
  let rows :=
    if rowsAreOuter d isA then
      (List.range n).map (fun i => (r.base.toNat + (lo + i) * dLd d + klo * bits / 8, kn * bits / 8))
    else
      (List.range kn).map (fun k => (r.base.toNat + (klo + k) * dLd d + lo * bits / 8, n * bits / 8))
  let scales :=
    if (dTaper d).isSome then
      (List.range n).map (fun i => (r.sbase.toNat + (lo + i) * dSld d + klo / dBlk d, (kn + dBlk d - 1) / dBlk d))
    else []
  rows ++ scales

/-- The first byte that a range needs of each 128-byte line. -/
def linesOf (start len : Nat) : List Nat :=
  if len = 0 then []
  else (List.range ((start + len - 1) / 128 - start / 128 + 1)).map (fun i => Nat.max start ((start / 128 + i) * 128))

/-- The space of a reservation. -/
def vSpace (d : Nat) : Space := if dSpace d = 1 then .weights else .global

/-- Step 8 of R248: the first address beyond the weight store, of the first range that lies beyond it in the order A rows, A
scales, B rows, B scales (log 34). -/
def beyondStore (size : Nat) : List (Nat × Nat) → Option Nat
  | [] => none
  | (a, n) :: rest => if size < a + n then some (Nat.max a size) else beyondStore size rest

/-- The failing addresses among some, with the FKIND of each (R187 with RD). -/
def State.unreadable (s : State) (gi : Nat) (g : Gallery) (priv : Priv) (as : List Nat) : List (Nat × Nat) :=
  as.filterMap (fun a =>
    match translate s.readable gi g (BitVec.ofNat 64 a) priv .read with
    | .fail fk => some (a, fk)
    | _ => none)

/-- The failing address that is lowest. -/
def lowest : List (Nat × Nat) → Option (Nat × Nat)
  | [] => none
  | p :: rest =>
    match lowest rest with
    | some q => if q.1 < p.1 then some q else some p
    | none => some p

/-- Where a line of a space lies for an operation's reads, after the accesses of its walk; nowhere where it fails (R249). -/
def State.linePlace (s : State) (agent gi : Nat) (g : Gallery) (priv : Priv) (sp : Space) (line : Nat) :
    State × Option Loc :=
  match sp with
  | .weights => (s, if line * 128 + 128 ≤ g.wsSize then some (.weights gi (line * 128)) else none)
  | _ =>
    match translate s.readable gi g (BitVec.ofNat 64 (line * 128)) priv .read with
    | .ok x => (s.walked agent gi x .read, some x.loc)
    | _ => (s.noteWalk gi (BitVec.ofNat 64 (line * 128)), none)

/-- A line of an operand, read whole by the matrix unit of a core at one logical time between the operation's issue and now;
which is free (R247). A line of the weight store reads as it stood when the production started (R294). None supplies no data
(R249). -/
def State.operandLine (s : State) (agent : Nat) (c : Cast) (g : Gallery) (priv : Priv) (key : Key)
    (hosts : Nat) (sp : Space) (line : Nat) : State × Option (List Byte) :=
  let p := s.linePlace agent c.gallery g priv sp line
  match p.2 with
  | none => (p.1, none)
  | some l =>
    if s.poisoned l then (((p.1.noteRead agent l).1).notePoison l, none)
    else
      match l with
      | .weights _ _ => (p.1.notePoison l, some (leBytes 128 (s.weightValue c.prod l 128)))
      | _ =>
        let vs := oldValues l.cell key.before hosts key s.past (bytesAt s.mem l.cell 128) s.hostCount
        let n := Config.freeChoice s.free % vs.length
        let s1 : State := { p.1.notePoison l with free := p.1.free + 1 }
        (if n = 0 then (s1.noteRead agent l).1 else s1, some (leBytes 128 (vs.getD n ⟨0, Key.zero, 0, 0⟩).x))

/-- The scale of an element's block; none is the NaN scale or a line without data (R101, R245). -/
def blockScale (r : VRec) (m : List Host.Cell) (dead : List Nat) (o k : Nat) : Option Int :=
  let d := r.desc.toNat
  let a := r.sbase.toNat + o * dSld d + k / dBlk d
  let x := (byteAt m a).toInt
  if dead.contains (a / 128) || x == -128 then none else some x

/-- The address of an element, the bit in its first byte and the element's bits (R245). -/
def elementPlace (r : VRec) (isA : Bool) (o k : Nat) : Nat × Nat :=
  let d := r.desc.toNat
  let m := if rowsAreOuter d isA then o else k
  let n := if rowsAreOuter d isA then k else o
  let b := n * fmtBits (dFmt d)
  (r.base.toNat + m * dLd d + b / 8, b % 8)

/-- The raw bits of an element; none where a line supplies no data. -/
def elementBits (r : VRec) (isA : Bool) (m : List Host.Cell) (dead : List Nat) (o k : Nat) : Option Nat :=
  let bits := fmtBits (dFmt r.desc.toNat)
  let p := elementPlace r isA o k
  let n := (p.2 + bits + 7) / 8
  if dead.contains (p.1 / 128) || dead.contains ((p.1 + n - 1) / 128) then none
  else some (fld (numAt m p.1 n) p.2 bits)

/-- A tile element through the encore port of a format, with the port's events (R243). -/
def encore (fmt : Nat) (x : Word) : FVal × Fl :=
  if fmt = 3 then
    match fp32.value x.toNat with
    | .nan sg => (.nan false, nvIf sg)
    | v =>
      let r := bf16.ofValue v
      (bf16.value r.1, r.2)
  else (fp32.value x.toNat, .none)

/-- The value of an operand element that enters the product, with the port's events (R245). -/
def operandValue (core : Core) (r : VRec) (isA : Bool) (m : List Host.Cell) (dead : List Nat) (o k : Nat) : FVal × Fl :=
  let d := r.desc.toNat
  if dSpace d = 2 then
    encore (dFmt d) (if isA then core.elem (r.base.toNat % 8) o k else core.elem (r.base.toNat % 8) k o)
  else
    match elementBits r isA m dead o k with
    | none => (.nan false, .none)
    | some x =>
      match dTaper d with
      | some t =>
        (match blockScale r m dead o k with
        | none => .nan false
        | some sc =>
          match t.value x with
          | .num n mg e =>
            let v := curveInverse t r.curve mg e
            .num n v.1 (v.2 + sc)
          | other => other, .none)
      | none =>
        (match dFmt d with
        | 0 => fp64.value x
        | 1 => fp32.value x
        | 2 => fp16.value x
        | _ => bf16.value x, .none)

/-- The value of an INT8 or UINT8 element; 0 where its line supplies no data (R249). -/
def operandInt (r : VRec) (isA : Bool) (m : List Host.Cell) (dead : List Nat) (o k : Nat) : Int :=
  match elementBits r isA m dead o k with
  | none => 0
  | some x => if dFmt r.desc.toNat = 8 then (BitVec.ofNat 8 x).toInt else x

/-! ## Fields of matrix words (R257, R276, R279) -/

/-- The major code of a word. -/
def majorOf (w : Word) : Nat := fld w.toNat 24 6
def isMma (w : Word) : Bool := majorOf w == 0x11
def isQmma (w : Word) : Bool := majorOf w == 0x12
def isMpoly (w : Word) : Bool := majorOf w == 0x13
def isMiter (w : Word) : Bool := majorOf w == 0x14
/-- q of a cast-level word; ad or ax; ra, rb and Z of MMA and QMMA. -/
def wQ (w : Word) : Nat := fld w.toNat 20 4
def wD (w : Word) : Nat := fld w.toNat 17 3
def wRa (w : Word) : Nat := fld w.toNat 13 4
def wRb (w : Word) : Nat := fld w.toNat 9 4
def wZ (w : Word) : Bool := bit w.toNat 0
/-- ax, at, deg and P of MPOLY. -/
def polyX (w : Word) : Nat := fld w.toNat 14 3
def polyT (w : Word) : Nat := fld w.toNat 11 3
def polyDeg (w : Word) : Nat := fld w.toNat 8 3
def polyP (w : Word) : Bool := bit w.toNat 7
/-- t1, t2, d, P and cap of MITER. -/
def iterT1 (w : Word) : Nat := fld w.toNat 14 3
def iterT2 (w : Word) : Nat := fld w.toNat 11 3
def iterDeg (w : Word) : Nat := fld w.toNat 9 2
def iterP (w : Word) : Bool := bit w.toNat 8
def iterCap (w : Word) : Nat := fld w.toNat 0 6 + 1

/-! ## MMA and QMMA (R246, R248, R258, R260) -/

/-- The class of formats of a row of R246. -/
def pairClass (f : Nat) : Nat :=
  match f with
  | 0 => 0
  | 1 => 1
  | 2 => 2
  | 3 => 2
  | 4 => 3
  | 5 => 3
  | _ => 4

/-- Steps 3 to 7 of R248. -/
def mmaShape (c : Cast) (w : Word) (ra rb : VRec) (quartet : Bool) : Option TrapInfo :=
  let q := wQ w
  let da := ra.desc.toNat
  let db := rb.desc.toNat
  let n := if quartet then 128 else 64
  let ad := wD w
  let wide := dFmt da = 0
  if pairClass (dFmt da) ≠ pairClass (dFmt db) then some (resv 8 (wRb w) q)
  else if dK da ≠ dK db ∨ (quartet = true ∧ dK da % 128 ≠ 0) then some (resv 9 (wRb w) q)
  else if dSpace da ≠ 2 ∧ dLd da < rowBytes da true n then some (resv 10 (wRa w) q)
  else if dSpace db ≠ 2 ∧ dLd db < rowBytes db false n then some (resv 10 (wRb w) q)
  else if !c.grants ad ∨ (wide ∧ ad % 2 = 1) then some (resv 11 ad q)
  else if wide ∧ !c.grants (ad + 1) then some (resv 11 (ad + 1) q)
  else if dSpace da = 2 ∧ (quartet = true ∨ ra.base.toNat % 8 = ad) then some (resv 12 (ra.base.toNat % 8) q)
  else if dSpace db = 2 ∧ (quartet = true ∨ rb.base.toNat % 8 = ad) then some (resv 12 (rb.base.toNat % 8) q)
  else none

/-- Steps 8 and 9 of R248: the operands' extents. -/
def State.mmaMemory (s : State) (c : Cast) (ra rb : VRec) (n : Nat) (priv : Priv) : Option TrapInfo :=
  match s.gal c.gallery with
  | none => none
  | some g =>
    let part (r : VRec) (isA : Bool) (sp : Space) : List (Nat × Nat) :=
      if dSpace r.desc.toNat ≠ 2 && vSpace r.desc.toNat == sp then operandRanges r isA 0 n 0 (dK r.desc.toNat) else []
    match beyondStore g.wsSize (part ra true .weights ++ part rb false .weights) with
    | some a => some (trapOf .range (BitVec.ofNat 64 a))
    | none =>
      let as := (part ra true .global ++ part rb false .global).flatMap (fun p => linesOf p.1 p.2)
      match lowest (s.unreadable c.gallery g priv as) with
      | some (a, fk) => some ⟨.page, BitVec.ofNat 64 a, fk, 1⟩
      | none => none

/-- A matrix-order entry of a cast-level operation, new. -/
def MatOp.cast (op ck : Nat) (w : Word) (priv : Priv) (key : Key) (ra rb : Option VRec) (words : List DWord) : MatOp :=
  { op := op, ck := ck, tk := none, word := w, q := wQ w, priv := priv, key := key, cue := 15, hosts := 0, started := false,
    groups := 0, step := 0, iter := 0, last := 0, grew := false, outcome := 0, ra := ra, rb := rb, words := words,
    elems := [], bytesA := [], bytesB := [], gotA := [], gotB := [], deadA := [], deadB := [], lost := false, places := [],
    framed := false }

/-- The checks of R248 for one cast of the round; its entry where they pass. -/
def State.mmaIssue (s : State) (ck : Nat) (w : Word) (priv : Priv) : Except TrapInfo MatOp :=
  match s.cast ck with
  | none => .error (resv 7 (wRa w) (wQ w))
  | some c =>
    match tfind c.vt (wRa w), tfind c.vt (wRb w) with
    | none, _ => .error (resv 7 (wRa w) (wQ w))
    | some _, none => .error (resv 7 (wRb w) (wQ w))
    | some ra, some rb =>
      match mmaShape c w ra rb (isQmma w) with
      | some x => .error x
      | none =>
        match s.mmaMemory c ra rb (if isQmma w then 128 else 64) priv with
        | some x => .error x
        | none => .ok (.cast s.nextOp ck w priv (s.nowKey c.agent) (some ra) (some rb) [])

/-- Step 2 of R248: the first record that differs among the casts of a quartet. -/
def State.recordsDiffer (s : State) (cks : List Nat) (w : Word) : Option TrapInfo :=
  let same (r : Nat) : Bool :=
    match cks with
    | [] => true
    | k :: rest => rest.all (fun j =>
        decide (((s.cast j).bind (fun c => tfind c.vt r)) = ((s.cast k).bind (fun c => tfind c.vt r))))
  if !same (wRa w) then some (resv 13 (wRa w) (wQ w))
  else if !same (wRb w) then some (resv 13 (wRb w) (wQ w))
  else none

/-- The row block and column block of a cast of a quartet (R261). -/
def quarter (ck : Nat) (w : Word) : Nat × Nat := if isQmma w then (ck % 4 / 2, ck % 2) else (0, 0)

/-- The lines that a part of the operation needs of an operand for its next group (R245, R261). -/
def MatOp.groupLines (o : MatOp) (r : VRec) (isA : Bool) : List Nat :=
  if dSpace r.desc.toNat = 2 then []
  else
    let b := if isA then (quarter o.ck o.word).1 else (quarter o.ck o.word).2
    ((operandRanges r isA (64 * b) 64 (8 * o.groups) 8).flatMap (fun p => linesOf p.1 p.2)).map (· / 128)

/-- The cast whose core fetches an operand's lines for a group: for QMMA the cast of the row or column block in the group's
half of K, from which the others have them (R261). -/
def MatOp.fetcher (o : MatOp) (k : Nat) (isA : Bool) : Nat :=
  if isQmma o.word then
    let h := if 8 * o.groups < k / 2 then 0 else 1
    let p := quarter o.ck o.word
    o.ck / 4 * 4 + (if isA then 2 * p.1 + h else 2 * h + p.2)
  else o.ck

/-- A line that was read reaches a part of the operation, as a line of each operand that lies in its space. -/
def MatOp.takeLine (o : MatOp) (sp : Space) (line : Nat) (bs : Option (List Byte)) : MatOp :=
  let fits (r : Option VRec) : Bool := match r with
    | some x => dSpace x.desc.toNat != 2 && vSpace x.desc.toNat == sp
    | none => false
  let o1 := if fits o.ra && !o.gotA.contains line then
      (match bs with
      | some b => { o with gotA := line :: o.gotA, bytesA := setBytes o.bytesA (line * 128) b }
      | none => { o with gotA := line :: o.gotA, deadA := line :: o.deadA })
    else o
  if fits o1.rb && !o1.gotB.contains line then
    (match bs with
    | some b => { o1 with gotB := line :: o1.gotB, bytesB := setBytes o1.bytesB (line * 128) b }
    | none => { o1 with gotB := line :: o1.gotB, deadB := line :: o1.deadB })
  else o1

/-- POISON with a line's address is owed to every signer of q in some casts (R249). -/
def State.poisonSigners (s : State) (op q a : Nat) : List Nat → State
  | [] => s
  | ck :: rest =>
    match s.cast ck with
    | none => s.poisonSigners op q a rest
    | some c =>
      ({ s with threads := tmap s.threads (fun tk t =>
        if (c.qreg q).signers.any (fun x => x.1 == tk) && t.run ≠ .exited then t.owePoison true op (BitVec.ofNat 64 a)
        else t) } : State).poisonSigners op q a rest

/-- An entry of a core's matrix order is replaced. -/
def State.putOp (s : State) (k : Nat) (o : MatOp) : State :=
  s.putCore k { s.core k with order := (s.core k).order.map (fun p => if p.op = o.op then o else p) }

/-- The cores, and the entries, of a cast-level operation: four for QMMA. -/
def State.opParts (s : State) (o : MatOp) : List (Nat × MatOp) :=
  s.cores.filterMap (fun p => (p.2.order.find? (fun x => x.op == o.op && x.tk.isNone)).map (fun x => (p.1, x)))

/-- One line of an operation is read, once for all its parts and both its operands, by the core that fetches it (R247,
R261). -/
def State.fetchLine (s : State) (o : MatOp) (c : Cast) (g : Gallery) (ck : Nat) (sp : Space) (line : Nat) : State :=
  let agent := ((s.cast ck).getD c).agent
  let r := s.operandLine agent c g o.priv o.key o.hosts sp line
  let bs := if o.lost then none else r.2
  let ps := r.1.opParts o
  let s1 := ps.foldl (fun (z : State) p => z.putOp p.1 { p.2.takeLine sp line bs with lost := false }) r.1
  if bs.isSome then s1 else s1.poisonSigners o.op o.q (line * 128) (ps.map (fun p => p.2.ck))

/-- The lines of one operand that a core's next group needs and that the operation has not read. -/
def State.fetchOperand (s : State) (k : Nat) (o : MatOp) (c : Cast) (g : Gallery) (isA : Bool) : State :=
  match if isA then o.ra else o.rb with
  | none => s
  | some r =>
    (o.groupLines r isA).foldl (fun (z : State) line =>
      match (z.core k).order.find? (fun x => x.op == o.op) with
      | none => z
      | some y =>
        if (if isA then y.gotA else y.gotB).contains line then z
        else z.fetchLine y c g (y.fetcher (dK r.desc.toNat) isA) (vSpace r.desc.toNat) line) s

/-- A line that supplies no data contributes to the next group of a part (R249, R269). -/
def MatOp.poisonedGroup (o : MatOp) : Bool :=
  (match o.ra with
  | some r => (o.groupLines r true).any (fun x => o.deadA.contains x)
  | none => false) ||
  (match o.rb with
  | some r => (o.groupLines r false).any (fun x => o.deadB.contains x)
  | none => false)

/-- The lines that the next group of a product on a core needs are read, and POISON is noted in its tile where one of them
supplies no data (R247, R249). -/
def State.fetchGroup (s : State) (k : Nat) (o : MatOp) : State × MatOp :=
  match s.cast o.ck with
  | none => (s, o)
  | some c =>
    match s.gal c.gallery with
    | none => (s, o)
    | some g =>
      let s1 := s.fetchOperand k o c g true
      let s2 := s1.fetchOperand k o c g false
      let o2 := ((s2.core k).order.find? (fun x => x.op == o.op)).getD o
      (if o2.poisonedGroup then s2.putCore k ((s2.core k).notePoison (wD o.word)) else s2, o2)

/-- The product begins on the array; one that starts from zero clears its tile (R258). -/
def MatOp.mmaStart (o : MatOp) (core : Core) : Core × MatOp :=
  (match o.ra with
  | some ra =>
    if wZ o.word && o.groups == 0 then
      let z := core.setTile (wD o.word) []
      if dFmt ra.desc.toNat = 0 then z.setTile (wD o.word + 1) [] else z
    else core
  | none => core, { o with started := true })

/-- Number of groups of a product: K / 8. -/
def MatOp.total (o : MatOp) : Nat :=
  match o.ra with
  | some r => dK r.desc.toNat / 8
  | none => 0

/-- The new value of one accumulator element and its events, for the next group (R114, R115). -/
def MatOp.groupElem (o : MatOp) (core : Core) (ra rb : VRec) (i j : Nat) : DWord × Fl :=
  let qd := quarter o.ck o.word
  let ks := (List.range 8).map (8 * o.groups + ·)
  let oa := if isQmma o.word then 64 * qd.1 + i else i
  let ob := if isQmma o.word then 64 * qd.2 + j else j
  let ad := wD o.word
  if pairClass (dFmt ra.desc.toNat) = 4 then
    (BitVec.ofNat 64 (intGroup (core.elem ad i j).toNat
      (ks.map (fun k => (operandInt ra true o.bytesA o.deadA oa k, operandInt rb false o.bytesB o.deadB ob k)))), .none)
  else
    let vs := ks.map (fun k =>
      (operandValue core ra true o.bytesA o.deadA oa k, operandValue core rb false o.bytesB o.deadB ob k))
    let port := vs.foldl (fun (f : Fl) v => (f.or v.1.2).or v.2.2) .none
    let ps := vs.map (fun v => (v.1.1, v.2.1))
    if dFmt ra.desc.toNat = 0 then
      let r := fp64.group ((core.elem (ad + 1) i j) ++ (core.elem ad i j) : BitVec 64).toNat ps
      (BitVec.ofNat 64 r.1, port.or r.2)
    else
      let r := fp32.group (core.elem ad i j).toNat ps
      (BitVec.ofNat 64 r.1, port.or r.2)

/-- One group of R258 for every element; the array stops only between groups (R252). -/
def MatOp.group (o : MatOp) (core : Core) : Core × MatOp :=
  match o.ra, o.rb with
  | some ra, some rb =>
    let xs := (List.range 4096).map (fun n => o.groupElem core ra rb (n / 64) (n % 64))
    let ad := wD o.word
    let c1 := core.setTile ad (xs.map (fun x => x.1.setWidth 32))
    let c2 := if dFmt ra.desc.toNat = 0 then c1.setTile (ad + 1) (xs.map (fun (x : DWord × Fl) => BitVec.setWidth 32 (x.1 >>> 32))) else c1
    (c2.note ad (xs.foldl (fun (f : Fl) x => f.or x.2) .none), { o with groups := o.groups + 1 })
  | _, _ => (core, o)

end Sys2Proof.Machine
end

