-- ==== Sys2Proof/Machine/MatrixFn.lean ====
section
/-! DEFINITION. Matrix functions on resident tiles: products at feedback precision (12_cluster_iteration.md R275), the
issue checks (R273, R274), the steps of MPOLY (R276 to R278) and of MITER (R279 to R285), and progress words (R252, R278,
R283). -/
namespace Sys2Proof.Machine

/-- Element (i, j) of a row-major tile. -/
def at64 (x : List Word) (i j : Nat) : Word := x.getD (i * 64 + j) 0

/-- One group of a 64 × 64 × 64 product of tiles on an accumulator tile, with its events; trans takes the transpose of
a (R114, R275). -/
def tileGroup (p trans : Bool) (a b acc : List Word) (g : Nat) : List Word × Fl :=
  let fmt := if p then 1 else 3
  let xs := (List.range 4096).map (fun n =>
    let i := n / 64
    let j := n % 64
    let vs := (List.range 8).map (fun r =>
      let k := 8 * g + r
      (encore fmt (if trans then at64 a k i else at64 a i k), encore fmt (at64 b k j)))
    let port := vs.foldl (fun (f : Fl) v => (f.or v.1.2).or v.2.2) .none
    let r := fp32.group (at64 acc i j).toNat (vs.map (fun v => (v.1.1, v.2.1)))
    (BitVec.ofNat 32 r.1, port.or r.2))
  (xs.map (·.1), xs.foldl (fun f x => f.or x.2) .none)

/-- A whole product: its eight groups. -/
def tileProduct (p trans : Bool) (a b acc : List Word) : List Word × Fl :=
  (List.range 8).foldl (fun (r : List Word × Fl) g =>
    let x := tileGroup p trans a b r.1 g
    (x.1, r.2.or x.2)) (acc, .none)

/-- c × I, exact (R275, R277). -/
def scaledIdentity (c : Word) : List Word :=
  (List.range 4096).map (fun n =>
    if n / 64 = n % 64 then c else BitVec.ofNat 32 (fp32.zero c.msb))

/-- c × X elementwise, each rounded once (R275). -/
def scaledTile (c : Word) (x : List Word) : List Word × Fl :=
  let xs := x.map (fun v => fp32.mulBits rne c.toNat v.toNat)
  (xs.map (fun r => BitVec.ofNat 32 r.1), xs.foldl (fun f r => f.or r.2) .none)

/-- The value is finite. -/
def finiteWord (x : Word) : Bool := finite32 x.toNat

/-- The square of the exact difference of two finite values, as an exact value. -/
def diffSquare (x y : FVal) : FVal :=
  let d := (x.plus y.flip).1
  (d.times d).1

/-- The residual of R280: the Frobenius norm of Y0 − X, rounded once. -/
def residual (y x : List Word) : Word :=
  let ps := (y.zip x).map (fun p => (fp32.value p.1.toNat, fp32.value p.2.toNat))
  let clash (p : FVal × FVal) : Bool :=
    p.1.isNan || p.2.isNan || (p.1.isInf && p.2.isInf && p.1.neg == p.2.neg)
  if ps.any clash then 0x7FC0_0000
  else if ps.any (fun p => p.1.isInf || p.2.isInf) then 0x7F80_0000
  else
    let sum := ps.foldl (fun (a : FVal) p => (a.plus (diffSquare p.1 p.2)).1) (.num false 0 0)
    BitVec.ofNat 32 (fp32.sqrt rne sum).1

/-- x < y, and x ≤ y, of FP32 patterns. -/
def lt32 (x y : Word) : Bool := (fp32.value x.toNat).lt (fp32.value y.toNat)
def le32 (x y : Word) : Bool := !lt32 y x && !(fp32.value x.toNat).isNan && !(fp32.value y.toNat).isNan

/-! ## Issue (R273, R274) -/

/-- The tiles that a word names, in field order. -/
def fnTiles (w : Word) : List Nat :=
  if isMpoly w then [wD w, polyX w, polyT w] else [wD w, iterT1 w, iterT2 w]

/-- The first entry that repeats an earlier one. -/
def firstRepeat : List Nat → List Nat → Option Nat
  | _, [] => none
  | seen, x :: rest => if seen.contains x then some x else firstRepeat (seen ++ [x]) rest

/-- The coefficients that a word uses, ascending (R273). -/
def fnCoefs (w : Word) : List Nat :=
  if isMpoly w then List.range (polyDeg w + 1) else List.range (iterDeg w + 1) ++ [7]

/-- A coefficient that step 4 of R273 refuses. -/
def coefBad (w : Word) (n : Nat) (x : Word) : Bool :=
  !finiteWord x || (isMiter w && n == 7 && (fp32.value x.toNat).neg && !(fp32.value x.toNat).isZero)

/-- The checks of R273; the entry of matrix order where they pass, with the coefficients copied. -/
def State.fnIssue (s : State) (ck : Nat) (w : Word) (priv : Priv) : Except TrapInfo MatOp :=
  match s.cast ck with
  | none => .error (resv 16 0 (wQ w))
  | some c =>
    let core := match c.coreNo with
      | some k => s.core k
      | none => Core.initial
    match (fnTiles w).find? (fun d => !c.grants d) with
    | some d => .error (resv 11 d (wQ w))
    | none =>
      match firstRepeat [] (fnTiles w) with
      | some d => .error (resv 17 d (wQ w))
      | none =>
        if !c.cgrant then .error (resv 16 0 (wQ w))
        else
          match (fnCoefs w).find? (fun n => coefBad w n (core.coefficient n)) with
          | some n => .error (resv 18 n (wQ w))
          | none =>
            .ok (.cast s.nextOp ck w priv (s.nowKey c.agent) none none
              ((List.range 8).map (fun n => (core.coefficient n).setWidth 64)))

/-- Coefficient n that the operation copied. -/
def MatOp.coef (o : MatOp) (n : Nat) : Word := (o.words.getD n 0).setWidth 32

/-! ## MPOLY (R277) -/

/-- The tile of Y_s. -/
def polyTile (w : Word) (st : Nat) : Nat := if (polyDeg w - st) % 2 = 0 then wD w else polyT w

/-- The operation begins: Y_0, where nothing is done yet. -/
def MatOp.polyStart (o : MatOp) (core : Core) : Core × MatOp :=
  (if o.step = 0 ∧ o.groups = 0 then core.setTile (polyTile o.word 0) (scaledIdentity (o.coef (polyDeg o.word))) else core,
    { o with started := true })

/-- The next group of a product. -/
def MatOp.polyGroup (o : MatOp) (core : Core) : Core × MatOp :=
  let w := o.word
  let st := o.step + 1
  let dst := polyTile w st
  let acc := if o.groups = 0 then scaledIdentity (o.coef (polyDeg w - st)) else core.tile dst
  let r := tileGroup (polyP w) false (core.tile (polyTile w o.step)) (core.tile (polyX w)) acc o.groups
  let c1 := (core.setTile dst r.1).note (wD w) r.2
  (c1, if o.groups = 7 then { o with step := st, groups := 0 } else { o with groups := o.groups + 1 })

/-! ## MITER (R280, R281, R284) -/

/-- The tile of Y_i. -/
def iterTile (w : Word) (i : Nat) : Nat := if i % 2 = 0 then iterT1 w else iterT2 w

/-- G of the present X, with its events (R280). -/
def MatOp.gram (o : MatOp) (core : Core) : List Word × Fl :=
  let x := core.tile (wD o.word)
  tileProduct (iterP o.word) true x x (List.replicate 4096 0)

/-- The operation begins or resumes: a resumption past phase 0 forms G again (R284). -/
def MatOp.iterStart (o : MatOp) (core : Core) : Core × MatOp :=
  if o.step = 0 ∨ iterDeg o.word = 0 then (core, { o with started := true })
  else
    let g := o.gram core
    (core.note (wD o.word) g.2, { o with started := true, elems := g.1.map (fun x => x.setWidth 64) })

/-- Phase 0: Y_d and G. -/
def MatOp.iterFirst (o : MatOp) (core : Core) : Core × MatOp :=
  let w := o.word
  let d := iterDeg w
  let y := scaledTile (o.coef d) (core.tile (wD w))
  let g := if d = 0 then ([], Fl.none) else o.gram core
  (((core.setTile (iterTile w d) y.1).note (wD w) y.2).note (wD w) g.2,
    { o with step := 1, groups := 0, elems := g.1.map (fun x => x.setWidth 64) })

/-- A group of phase j = step. -/
def MatOp.iterGroup (o : MatOp) (core : Core) : Core × MatOp :=
  let w := o.word
  let i := iterDeg w - o.step
  let start := scaledTile (o.coef i) (core.tile (wD w))
  let acc := if o.groups = 0 then start else (core.tile (iterTile w i), Fl.none)
  let r := tileGroup (iterP w) false (core.tile (iterTile w (i + 1))) (o.elems.map (fun x => x.setWidth 32)) acc.1 o.groups
  let c1 := (core.setTile (iterTile w i) r.1).note (wD w) (acc.2.or r.2)
  (c1, if o.groups = 7 then { o with step := o.step + 1, groups := 0 } else { o with groups := o.groups + 1 })

/-- Phase d+1: the residual, the tests of R281 in order, and the commit of X. -/
def MatOp.iterCommit (o : MatOp) (core : Core) : Core × MatOp :=
  let w := o.word
  let ax := wD w
  let n := o.iter + 1
  let y := core.tile (iterT1 w)
  let r := residual y (core.tile ax)
  let st := { core.status ax with prev := if n = 1 then 0 else o.last, res := r }
  let c1 := core.setStatus ax st
  if y.any (fun x => !finiteWord x) || !finiteWord r then (c1, { o with iter := n, outcome := 2 })
  else
    let c2 := c1.setTile ax y
    if le32 r (o.coef 7) then (c2, { o with iter := n, outcome := 1 })
    else if o.grew && lt32 o.last r then (c2, { o with iter := n, outcome := 3 })
    else if n = iterCap w then (c2, { o with iter := n, outcome := 4 })
    else
      (c2, { o with iter := n, step := 0, groups := 0, grew := decide (2 ≤ n) && lt32 o.last r, last := r })

/-! ## One unit of the array -/

/-- Everything that the operation does on the tiles is done. -/
def MatOp.finished (o : MatOp) : Bool :=
  o.started &&
    (if isMpoly o.word then o.step == polyDeg o.word
    else if isMiter o.word then o.outcome != 0
    else o.groups == o.total)

/-- The next group, elementwise pass or commit of a started operation. -/
def MatOp.unit (o : MatOp) (core : Core) : Core × MatOp :=
  if o.finished || !o.started then (core, o)
  else if isMpoly o.word then o.polyGroup core
  else if isMiter o.word then
    (if o.step = 0 then o.iterFirst core
    else if o.step ≤ iterDeg o.word then o.iterGroup core
    else o.iterCommit core)
  else o.group core

/-- Units done one after another, n at most. -/
def MatOp.units (o : MatOp) (core : Core) : Nat → Core × MatOp
  | 0 => (core, o)
  | n + 1 => ((o.unit core).2).units (o.unit core).1 n

/-- A bound on the units that an operation takes from its start to its end. -/
def MatOp.bound (o : MatOp) : Nat := if isMpoly o.word then 57 else if isMiter o.word then 64 * 26 else o.total + 1

/-- The operation can stop where it stands (R252, R278, R284): an MPOLY only before its last product is complete, so that one
of degree 0, which has none, does not stop (log 34). -/
def MatOp.atStop (o : MatOp) : Bool :=
  if isMiter o.word then decide (o.step ≤ iterDeg o.word)
  else !isMpoly o.word || decide (o.step < polyDeg o.word)

/-- The progress word (R252, R278, R283). -/
def MatOp.progress (o : MatOp) : DWord :=
  BitVec.ofNat 64
    (if isMpoly o.word then 5 * 2 ^ 60 + o.step * 2 ^ 57 + o.groups * 2 ^ 54
    else if isMiter o.word then
      6 * 2 ^ 60 + o.last.toNat * 2 ^ 28 + o.grew.toNat * 2 ^ 27 + o.iter * 2 ^ 21 + o.step * 2 ^ 18 + o.groups * 2 ^ 15
    else (if isQmma o.word then 4 else 3) * 2 ^ 60 + o.groups * 2 ^ 40)

/-- An operation that takes its progress from a word (R252, R278, R283). -/
def MatOp.resume (o : MatOp) (x : Nat) : MatOp :=
  if isMpoly o.word then { o with step := fld x 57 3, groups := fld x 54 3 }
  else if isMiter o.word then
    { o with last := BitVec.ofNat 32 (fld x 28 32), grew := bit x 27, iter := fld x 21 6, step := fld x 18 3,
             groups := fld x 15 3 }
  else { o with groups := fld x 40 12 }

/-- A progress word that CTXLOAD refuses for an operation's word and the K of its operand (R252, R278, R284). -/
def progressBad (w : Word) (k x : Nat) : Bool :=
  if isMma w || isQmma w then
    fld x 60 4 != (if isMma w then 3 else 4) || fld x 52 8 != 0 || fld x 0 40 != 0 || decide (k / 8 ≤ fld x 40 12)
  else if isMpoly w then
    fld x 60 4 != 5 || fld x 0 54 != 0 || decide (polyDeg w ≤ fld x 57 3)
  else if isMiter w then
    fld x 60 4 != 6 || fld x 0 15 != 0 || decide (iterCap w ≤ fld x 21 6) || decide (iterDeg w < fld x 18 3) ||
      (fld x 18 3 == 0 && fld x 15 3 != 0) || !finite32 (fld x 28 32)
  else true

/-- The report word that completion writes (R269, R277, R280). -/
def MatOp.report (o : MatOp) : Option DWord :=
  if isMpoly o.word then some (BitVec.ofNat 64 (5 * 2 ^ 60 + 5 * 2 ^ 56 + polyDeg o.word))
  else if isMiter o.word then some (BitVec.ofNat 64 (6 * 2 ^ 60 + o.outcome * 2 ^ 56 + o.iter))
  else none

end Sys2Proof.Machine
end

