-- ==== Sys2Proof/Machine/Accum.lean ====
section
/-! DEFINITION. The accumulator instructions: AZERO, ALOAD, ASTORE, AREAD, AWRITE, ATRN (11_cluster_matrix.md R263 to
R266), ACOEF (12_cluster_iteration.md R271), ASTAT (R272), and the place of each in matrix order (R242, R435). -/
namespace Sys2Proof.Machine

/-! ## Fields of AC words -/

def acFn (w : Word) : Nat := fld w.toNat 0 8
def acD (w : Word) : Nat := fld w.toNat 21 3
def acB (w : Word) : Nat := fld w.toNat 18 3

/-- FMT, T and LD of a control word; bytes of an element (R264). -/
def ctlFmt (x : Nat) : Nat := fld x 34 2
def ctlT (x : Nat) : Bool := bit x 33
def ctlLd (x : Nat) : Nat := fld x 0 32
def ctlSize (x : Nat) : Nat := match ctlFmt x with
  | 0 => 4
  | 3 => 8
  | _ => 2

/-! ## Tiles read and written, and waiting in matrix order (R242) -/

/-- The destination pair of an FP64 operation, else the one tile. -/
def pairOf (wide : Bool) (d : Nat) : List Nat := if wide then [d, d + 1] else [d]

/-- The tiles that an operation writes; the status of a tile counts with it. -/
def MatOp.writes (o : MatOp) : List Nat :=
  match o.tk with
  | some _ =>
    match acFn o.word with
    | 0 => [acD o.word]
    | 1 => pairOf (ctlFmt (o.words.getD 0 0).toNat = 3) (acD o.word)
    | 2 => pairOf (ctlFmt (o.words.getD 0 0).toNat = 3) (acD o.word)
    | 4 => [acD o.word]
    | 5 => [acD o.word]
    | 7 => if acB o.word = 4 then [acD o.word] else []
    | _ => []
  | none =>
    if isMpoly o.word then [wD o.word, polyT o.word]
    else if isMiter o.word then [wD o.word, iterT1 o.word, iterT2 o.word]
    else pairOf (match o.ra with
      | some r => dFmt r.desc.toNat = 0
      | none => false) (wD o.word)

/-- The encore tile that a reservation names. -/
def encoreTile (r : Option VRec) : List Nat :=
  match r with
  | some x => if dSpace x.desc.toNat = 2 then [x.base.toNat % 8] else []
  | none => []

/-- The tiles that an operation reads. -/
def MatOp.readsTiles (o : MatOp) : List Nat :=
  match o.tk with
  | some _ =>
    match acFn o.word with
    | 3 => [acD o.word]
    | 5 => [acB o.word]
    | 7 => [acD o.word]
    | _ => []
  | none =>
    if isMpoly o.word then [polyX o.word] else encoreTile o.ra ++ encoreTile o.rb

/-- The later operation waits for the earlier one (R242). -/
def MatOp.blocks (a b : MatOp) : Bool :=
  a.writes.any (fun t => b.writes.contains t || b.readsTiles.contains t) || a.readsTiles.any (fun t => b.writes.contains t)

/-- The per-thread operation that may act first: none before it in matrix order blocks it. -/
def firstReady : List MatOp → List MatOp → Option MatOp
  | _, [] => none
  | before, o :: rest =>
    if o.tk.isSome && !before.any (fun b => b.blocks o) then some o else firstReady (before ++ [o]) rest

/-! ## Taking a place (R263) -/

/-- The first word of an instruction's encoding. -/
def insWord (i : Instr) : Word := (encode i).headD 0

/-- A per-thread operation, new. -/
def MatOp.thread (op ck tk : Nat) (w : Word) (priv : Priv) (key : Key) (cue : Nat) (words elems : List DWord) : MatOp :=
  { op := op, ck := ck, tk := some tk, word := w, q := 0, priv := priv, key := key, cue := cue, hosts := 0, started := false,
    groups := 0, step := 0, iter := 0, last := 0, grew := false, outcome := 0, ra := none, rb := none, words := words,
    elems := elems, bytesA := [], bytesB := [], gotA := [], gotB := [], deadA := [], deadB := [], lost := false, places := [],
    framed := false }

/-- An operation takes its place at the end of the matrix order of a core. -/
def State.appendOp (s : State) (k : Nat) (o : MatOp) : State :=
  { s.putCore k { s.core k with order := (s.core k).order ++ [o] } with nextOp := s.nextOp + 1 }

/-- The core of a cast that executes. -/
def Cast.onCore (c : Cast) : Nat := c.coreNo.getD 0

/-- An accumulator word: src are the s-registers that it reads, dst the one that it writes, in field order with regs;
body makes its checks and its reads in program order and says what takes the place. -/
def accWord (e : Bool) (regs src dst : List Nat)
    (body : State → Thread → Cast → Nat → Res (State × Thread × MatOp)) (s : State) : Out :=
  issue anyPriv (fun _ => regs)
    (fun t0 c =>
      if t0.cueFull t0.cueB then .wait
      else
        let p := s.charge t0 src
        (body p.1 p.2 c p.1.nextOp).bind (fun (s1, t1, o) =>
          let s2 := s1.appendOp c.onCore o
          let t2 := t1.issueOp o.op t1.cueB dst [] false none 0
          if acFn o.word = 2 && !o.framed then .ok (s2.putT s.focus { t2 with held := some (.astore o.op e) })
          else .ok (s2.finish s.focus t2 c e 4)))
    s

/-- A tile that is not granted. -/
def grantCheck (c : Cast) (d : Nat) : Res Unit := if c.grants d then .ok () else .trap (resv 11 d 0)

/-- A word that names tiles and reads nothing else. -/
def simpleAcc (e : Bool) (w : Word) (regs src dst tiles : List Nat) (vals : Thread → List DWord)
    (check : Thread → Option TrapInfo) (s : State) : Out :=
  accWord e regs src dst (fun s0 t c op =>
    match tiles.find? (fun d => !c.grants d) with
    | some d => .trap (resv 11 d 0)
    | none =>
      match check t with
      | some x => .trap x
      | none => .ok (s0, t, .thread op (castOf s.focus) s.focus w t.priv (s0.nowKey c.agent) t.cueB (vals t) [])) s

def execAzero (e : Bool) (d : BitVec 3) : State → Out :=
  simpleAcc e (insWord (.azero false d)) [] [] [] [d.toNat] (fun _ => []) (fun _ => none)

/-- The index check of AREAD and AWRITE (R265). -/
def indexCheck (a : Nat) (t : Thread) : Option TrapInfo :=
  if fld (t.uni a).toNat 12 52 ≠ 0 then some (trapOf .illegal (BitVec.ofNat 64 (sReg a))) else none

def execAread (e : Bool) (d : BitVec 3) (a b : BitVec 5) : State → Out :=
  simpleAcc e (insWord (.aread false d a b)) [sReg a.toNat, sReg b.toNat] [a.toNat] [sReg b.toNat] [d.toNat]
    (fun t => [t.uni a.toNat]) (indexCheck a.toNat)

def execAwrite (e : Bool) (d : BitVec 3) (a b : BitVec 5) : State → Out :=
  simpleAcc e (insWord (.awrite false d a b)) [sReg a.toNat, sReg b.toNat] [a.toNat, b.toNat] [] [d.toNat]
    (fun t => [t.uni a.toNat, t.uni b.toNat]) (indexCheck a.toNat)

def execAtrn (e : Bool) (d b : BitVec 3) : State → Out :=
  simpleAcc e (insWord (.atrn false d b)) [] [] [] [d.toNat, b.toNat] (fun _ => []) (fun _ => none)

def execAstat (e : Bool) (d sel : BitVec 3) (b : BitVec 5) : State → Out :=
  simpleAcc e (insWord (.astat false d sel b)) [sReg b.toNat] [] [sReg b.toNat] [d.toNat] (fun _ => []) (fun _ => none)

/-- ACOEF: nothing else that acts in matrix order waits for a coefficient, so the register is written at once (R271,
R273). -/
def execAcoef (e : Bool) (n : BitVec 3) (a : BitVec 5) (s : State) : Out :=
  accWord e [sReg a.toNat] [a.toNat] [] (fun s0 t c op =>
    if !c.cgrant then .trap (resv 16 0 0)
    else
      let k := c.onCore
      let core := s0.core k
      .ok (s0.putCore k { core with coef := tset core.coef n.toNat ((t.uni a.toNat).setWidth 32) 0 }, t,
        .thread op (castOf s.focus) s.focus (insWord (.acoef false n a)) t.priv (s0.nowKey c.agent) t.cueB [] [])) s

/-! ## ALOAD and ASTORE (R264 to R266) -/

/-- The checks of R264, in order. -/
def tileMemCheck (c : Cast) (d : Nat) (a ctl : DWord) : Option TrapInfo :=
  let x := ctl.toNat
  if !c.grants d then some (resv 11 d 0)
  else if fld x 36 28 ≠ 0 ∨ bit x 32 = true ∨ ctlLd x = 0 ∨ ctlLd x % 128 ≠ 0 ∨ ctlLd x < 64 * ctlSize x ∨
      a.toNat % 128 ≠ 0 then some (resv 15 d 0)
  else if ctlFmt x = 3 ∧ d % 2 = 1 then some (resv 11 d 0)
  else if ctlFmt x = 3 ∧ c.grants (d + 1) = false then some (resv 11 (d + 1) 0)
  else none

/-- The addresses of the 4,096 elements, ascending: memory row m, place n. -/
def elementAddrs (a ctl : DWord) : List DWord :=
  (List.range 4096).map (fun i =>
    a + BitVec.ofNat 64 (i / 64 * ctlLd ctl.toNat + i % 64 * ctlSize ctl.toNat))

/-- Every element passes translation, and then no watchpoint hits one; the places, in that order. -/
def State.locateAll (t : Thread) (c : Cast) (tk n : Nat) (k : Acc) :
    List DWord → State → List Loc → Res (State × List Loc)
  | [], s, ls => .ok (s, ls.reverse)
  | a :: rest, s, ls =>
    (s.locate t c (castOf tk) .global a n k).bind (fun (s1, l) => State.locateAll t c tk n k rest s1 (l :: ls))

/-- The first watchpoint that one of the accesses hits. -/
def firstWatch (t : Thread) (c : Cast) (tk n : Nat) (k : Acc) : List DWord → Option TrapInfo
  | [] => none
  | a :: rest =>
    match watchpointAt c t (tidOf tk) .global a n k with
    | some i => some (trapOf .watch (BitVec.ofNat 64 (i * 2 ^ 56 + a.toNat % 2 ^ 56)))
    | none => firstWatch t c tk n k rest

/-- The reads of ALOAD, one key each, ascending. -/
def State.readAll (c : Cast) (n : Nat) :
    List (DWord × Loc) → State → Thread → List DWord → State × Thread × List DWord
  | [], s, t, xs => (s, t, xs.reverse)
  | (a, l) :: rest, s, t, xs =>
    let r := s.readBy t c a l n
    State.readAll c n rest r.1 r.2.1 (BitVec.ofNat 64 r.2.2 :: xs)

def execAload (e : Bool) (d : BitVec 3) (a b : BitVec 5) (s : State) : Out :=
  accWord e [sReg a.toNat, sReg b.toNat] [a.toNat, b.toNat] [] (fun s0 t c op =>
    let base := t.uni a.toNat
    let ctl := t.uni b.toNat
    let n := ctlSize ctl.toNat
    match tileMemCheck c d.toNat base ctl with
    | some x => .trap x
    | none =>
      let as := elementAddrs base ctl
      (State.locateAll t c s.focus n .read as s0 []).bind (fun (s1, ls) =>
        match firstWatch t c s.focus n .read as with
        | some x => .trap x
        | none =>
          let r := State.readAll c n (as.zip ls) s1 t []
          .ok (r.1, r.2.1,
            .thread op (castOf s.focus) s.focus (insWord (.aload false d a b)) t.priv (s0.nowKey c.agent) t.cueB [ctl] r.2.2))) s

/-- Where an engine write to a global address goes. -/
def State.destOf (s : State) (c : Cast) (priv : Priv) (a : DWord) : Option Dest :=
  match s.gal c.gallery with
  | none => none
  | some g =>
    match translate s.readable c.gallery g a priv .write with
    | .ok x => some (x.dest c.gallery a.toNat)
    | _ => none

/-- The destination is an understudy. -/
def Dest.isFramed : Dest → Bool
  | .understudy _ _ _ _ => true
  | .plain _ => false

def execAstore (e : Bool) (d : BitVec 3) (a b : BitVec 5) (s : State) : Out :=
  accWord e [sReg a.toNat, sReg b.toNat] [a.toNat, b.toNat] [] (fun s0 t c op =>
    let base := t.uni a.toNat
    let ctl := t.uni b.toNat
    let n := ctlSize ctl.toNat
    match tileMemCheck c d.toNat base ctl with
    | some x => .trap x
    | none =>
      let as := elementAddrs base ctl
      (State.locateAll t c s.focus n .write as s0 []).bind (fun (s1, _) =>
        let ds := as.filterMap (fun x => s0.destOf c t.priv x)
        if ds.any Dest.isFramed && !ds.all Dest.isFramed then .trap (resv 14 d.toNat 0)
        else
          match firstWatch t c s.focus n .write as with
          | some x => .trap x
          | none =>
            .ok (s1, t,
              { MatOp.thread op (castOf s.focus) s.focus (insWord (.astore false d a b)) t.priv (s0.nowKey c.agent) t.cueB [ctl] [] with
                places := ds, framed := ds.any Dest.isFramed }))) s

/-! ## The effects at their places (R265, R270 to R272) -/

/-- Element (i, j) of the tile from the elements in memory order (R264). -/
def fromMemory (ctl : Nat) (xs : List DWord) (i j : Nat) : DWord :=
  xs.getD (if ctlT ctl then j * 64 + i else i * 64 + j) 0

/-- An element as ALOAD places it (R265). -/
def widened (fmt : Nat) (x : DWord) : Word :=
  match fmt with
  | 1 => BitVec.ofNat 32 (fp32.ofValue (bf16.value (x.toNat % 2 ^ 16))).1
  | 2 => BitVec.ofNat 32 (fp32.ofValue (fp16.value (x.toNat % 2 ^ 16))).1
  | _ => x.setWidth 32

/-- The tiles after an ALOAD. -/
def loadTiles (core : Core) (d ctl : Nat) (xs : List DWord) : Core :=
  let at_ (n : Nat) : DWord := fromMemory ctl xs (n / 64) (n % 64)
  let c1 := (core.setTile d ((List.range 4096).map (fun n => widened (ctlFmt ctl) (at_ n)))).clearStatus d
  if ctlFmt ctl = 3 then
    (c1.setTile (d + 1) ((List.range 4096).map (fun n => (at_ n >>> 32).setWidth 32))).clearStatus (d + 1)
  else c1

/-- An element as ASTORE stores it, with its events (R265). -/
def narrowed (fmt : Nat) (x : Word) : Nat × Fl :=
  match fmt with
  | 0 => (x.toNat, .none)
  | _ =>
    let f := if fmt = 1 then bf16 else fp16
    let v := fp32.value x.toNat
    let r := f.ofValue v
    (r.1, (nvIf v.isSnan).or r.2)

/-- The elements of an ASTORE in memory order, with the events. -/
def storeElems (core : Core) (d ctl : Nat) : List (Nat × Fl) :=
  (List.range 4096).map (fun i =>
    let m := i / 64
    let n := i % 64
    let r := if ctlT ctl then n else m
    let k := if ctlT ctl then m else n
    if ctlFmt ctl = 3 then ((core.elem (d + 1) r k ++ core.elem d r k : BitVec 64).toNat, Fl.none)
    else narrowed (ctlFmt ctl) (core.elem d r k))

/-- The stores of an ASTORE, ascending: to understudies, or to memory for its thread; none where the snapshot reserve has no
room for a line that they replace (R395). -/
def State.storeTile (s : State) (core n tk : Nat) : List (Dest × Nat) → Option State
  | [] => some s
  | (.plain l, x) :: rest =>
    match s.store core l n x with
    | .ok r =>
      ({ r.1 with threads := tmod r.1.threads tk (fun t => (t.see l n r.2).seeHost l r.1.hostCount r.1.hostCount) }).storeTile core n tk
        rest
    | _ => none
  | (d, x) :: rest =>
    match s.engineWrite (engineAgent (clusterOf core)) false [(d, leBytes n x)] with
    | .ok s1 => s1.storeTile core n tk rest
    | _ => none

/-- The value of ASTAT (R272). -/
def statValue (x : TileStat) (sel : Nat) : DWord :=
  match sel with
  | 1 => x.report
  | 2 => x.res.setWidth 64
  | 3 => x.prev.setWidth 64
  | _ => x.event.setWidth 64

/-- The effect of a per-thread operation on its core, and the value of its destination register. -/
def MatOp.act (o : MatOp) (core : Core) : Core × List DWord :=
  let d := acD o.word
  let x := (o.words.getD 0 0).toNat
  match acFn o.word with
  | 0 => ((core.setTile d []).clearStatus d, [])
  | 1 => (loadTiles core d x o.elems, [])
  | 2 => (core.note d ((storeElems core d x).foldl (fun f p => f.or p.2) .none), [])
  | 3 => (core, [(core.elem d (fld x 6 6) (fld x 0 6)).setWidth 64])
  | 4 => (core.setElem d (fld x 6 6) (fld x 0 6) ((o.words.getD 1 0).setWidth 32), [])
  | 5 =>
    (core.setTile d ((List.range 4096).map (fun n => core.elem (acB o.word) (n % 64) (n / 64))), [])
  | 7 =>
    let st := core.status d
    (if acB o.word = 4 then core.setStatus d { st with event := 0 } else core, [statValue st (acB o.word)])
  | _ => (core, [])

/-- The point after a held word is a boundary point: what fell due during the hold is delivered (R216). -/
def State.afterHold (s : State) (tk : Nat) : State :=
  match s.thread tk, s.cast (castOf tk) with
  | some t, some c =>
    if t.run ≠ .exited ∧ t.held = none ∧
        (((t.dueHalt || t.dueSlice) && !s.quiescing c) || (s.takeOwed tk t c).isSome) then
      s.enterAsync tk t c []
    else s
  | _, _ => s

/-- The values of a per-thread operation are there, it completes for its thread, and the thread that it held goes on
(R80, R266, R435). -/
def State.doneOp (s : State) (tk : Nat) (o : MatOp) (vals : List DWord) : State :=
  let s1 := { s with threads := tmod s.threads tk (fun t =>
      { t with outst := t.outst.map (fun (p : Outst) => if p.op = o.op then { p with vals := vals, ready := true } else p) }) }
  let s2 := s1.completeOp tk o.op
  match s2.thread tk, s2.cast o.ck with
  | some t, some c =>
    match t.held with
    | some (.astore op e) =>
      if op = o.op then (s2.finish tk { t with held := none } c e 4).afterHold tk else s2
    | _ => s2
  | _, _ => s2

/-- A per-thread operation acts and completes: it leaves the matrix order and its cue falls (R242, R266, R435). An ASTORE
acts only once the snapshot reserve has room (R395). -/
def State.actOp (s : State) (k : Nat) (o : MatOp) : State :=
  let core := s.core k
  let r := o.act core
  let ctl := (o.words.getD 0 0).toNat
  let s1 := s.putCore k { r.1 with order := core.order.filter (fun p => p.op != o.op) }
  let s2 := if acFn o.word = 2 then
      s1.storeTile k (ctlSize ctl) (o.tk.getD 0) (o.places.zip ((storeElems core (acD o.word) ctl).map (·.1)))
    else some s1
  match s2 with
  | some z => z.doneOp (o.tk.getD 0) o r.2
  | none => s

/-- The next per-thread operation of a core that may act acts (R242, R435). -/
def execAccOpComplete (core : Nat) (s : State) : Out :=
  match firstReady [] (s.core core).order with
  | some o => .next (s.actOp core o)
  | none => .next s

end Sys2Proof.Machine
end

