-- ==== Sys2Proof/Machine/Sign.lean ====
section
/-! DEFINITION. The signed words MMA, QMMA, MPOLY and MITER (09_core.md R225, R226; 11_cluster_matrix.md R248, R258,
R260; 12_cluster_iteration.md R273), the issue of a complete round, the array (R242, R252) and the completion of an
operation (R222, R282). -/
namespace Sys2Proof.Machine

/-! ## Issue -/

/-- Every declared member of q in a cast has signed, and there is one (R222). -/
def State.allSigned (s : State) (ck q : Nat) (r : QReg) : Bool :=
  let ms := s.qMembers ck r
  !ms.isEmpty && ms.all (fun p => (p.2.signs q).isSome && !r.owed.any (fun o => o.1 == tidOf p.1))

/-- The round of q in these casts is complete: every register is open, of one kind, owes nothing and is wholly signed
(R222, R226, R282). -/
def State.roundComplete (s : State) (cks : List Nat) (q : Nat) : Bool :=
  cks.all (fun ck =>
    match s.cast ck with
    | none => false
    | some c =>
      let r := c.qreg q
      decide (r.state = .opened) && r.quartet == decide (1 < cks.length) && r.owed.isEmpty && s.allSigned ck q r &&
        c.coreNo.isSome)

/-- The first privilege among the signers of a cast. -/
def signPriv (xs : List (Nat × Thread)) : Priv :=
  match xs with
  | [] => .program
  | (_, t) :: _ => t.priv

/-- Step 1 of R248 over several casts: the first record that is empty. -/
def State.recordEmpty (s : State) (cks : List Nat) (w : Word) : Option TrapInfo :=
  let lacks (n : Nat) : Bool := cks.any (fun k => ((s.cast k).bind (fun c => tfind c.vt n)).isNone)
  if lacks (wRa w) then some (resv 7 (wRa w) (wQ w))
  else if lacks (wRb w) then some (resv 7 (wRb w) (wQ w))
  else none

/-- The entries of the casts of a round, in order, where every check passes. -/
def State.entries (s : State) (w : Word) : List Nat → Except TrapInfo (List MatOp)
  | [] => .ok []
  | ck :: rest =>
    let p := signPriv (s.heldSigners ck (wQ w))
    match (if isMpoly w || isMiter w then s.fnIssue ck w p else s.mmaIssue ck w p) with
    | .error x => .error x
    | .ok o =>
      match s.entries w rest with
      | .error x => .error x
      | .ok os => .ok (o :: os)

/-- The checks of R248 and R273 for a complete round. -/
def State.roundChecks (s : State) (w : Word) (cks : List Nat) : Except TrapInfo (List MatOp) :=
  if isQmma w then
    match s.recordEmpty cks w with
    | some x => .error x
    | none =>
      match s.recordsDiffer cks w with
      | some x => .error x
      | none => s.entries w cks
  else s.entries w cks

/-- The E bit kept by a held signer. -/
def Thread.signE (t : Thread) : Bool :=
  match t.held with
  | some (.sign _ _ e _) => e
  | _ => false

/-- The signers of a cast go on past the word, each at its own scene end (R225). -/
def State.releaseSigners (s : State) (c : Cast) : List (Nat × Thread) → State
  | [] => s
  | (tk, t) :: rest => (s.finish tk { t with held := none } c t.signE 4).releaseSigners c rest

/-- The operation of one cast takes its place: the register is ISSUED, its signers are recorded and released (R222,
R242). -/
def State.issueFor (s : State) (ck q : Nat) (key : OpKey) (o : MatOp) : State :=
  match s.cast ck with
  | none => s
  | some c =>
    let sigs := s.heldSigners ck q
    let r := { c.qreg q with
      state := .issued, key := key, progress := o.progress,
      signers := sigs.map (fun p => (p.1, p.2.cueB, p.2.priv)) }
    let c1 := { c.setQ q r with qmmas := if isQmma o.word then c.qmmas + 1 else c.qmmas }
    let s1 := s.putC ck c1
    let k := c.onCore
    let s2 := s1.putCore k { s1.core k with order := (s1.core k).order ++ [{ o with hosts := s.hostCount }] }
    s2.releaseSigners c1 sigs

/-- Every entry takes its place. -/
def State.issueAll (s : State) (q : Nat) (key : OpKey) : List MatOp → State
  | [] => s
  | o :: rest => (s.issueFor o.ck q key o).issueAll q key rest

/-- Every held signer of q in some casts takes a trap. -/
def State.trapSigners (s : State) (q : Nat) (x : TrapInfo) : List Nat → State
  | [] => s
  | ck :: rest =>
    match s.cast ck with
    | none => s.trapSigners q x rest
    | some c => (s.trapEach c (fun _ => x) (s.heldSigners ck q)).trapSigners q x rest

/-- Where the round of q is complete, the operation is checked and issues once, or every signer traps (R225, R248). -/
def State.tryIssue (s : State) (ck q : Nat) : State :=
  match s.cast ck with
  | none => s
  | some c =>
    let cks := quartetOf ck (c.qreg q).quartet
    if !s.roundComplete cks q then s
    else
      match (s.heldSigners ck q).head? with
      | none => s
      | some p =>
        match p.2.signs q with
        | none => s
        | some key =>
          match s.roundChecks key.word cks with
          | .error x => s.trapSigners q x cks
          | .ok os => { s.issueAll q key os with nextOp := s.nextOp + 1 }

/-! ## Signing -/

/-- The key of the round of q, where some thread has signed it; over an ISSUED register, of the round that comes next, so that a
second signature of it is compared at once (log 34). -/
def State.roundKey (s : State) (q : Nat) : List Nat → Option OpKey
  | [] => none
  | ck :: rest =>
    match s.cast ck with
    | none => s.roundKey q rest
    | some c =>
      match (s.signatures ck q (c.qreg q)).head? with
      | some p => p.2.signs q
      | none => s.roundKey q rest

/-- Another cast of the ensemble has a quartet set of this number (R226). -/
def State.quartetElsewhere (s : State) (ck q : Nat) : Bool :=
  (quartetOf ck true).any (fun j =>
    j != ck &&
      (match s.cast j with
      | some c => (c.qreg q).quartet && !decide ((c.qreg q).state = .empty)
      | none => false))

/-- A cast-level word (R225): the checks of a signing, then the signature, and the issue where it completes the round.
quartet tells which kind of set the word needs; a QMMA where the cast's own register holds a plain set takes code 4, whatever the
other casts hold (log 21). -/
def signWord (e : Bool) (w : Word) (quartet : Bool) (s : State) : Out :=
  issue anyPriv (fun _ => [])
    (fun t c =>
      let tk := s.focus
      let ck := castOf tk
      let q := wQ w
      let r := c.qreg q
      if decide (r.state = .empty) || !r.declares (tidOf tk) then .trap (mismatch 3 q)
      else if r.quartet != quartet then .trap (mismatch 4 q)
      else if !quartet && s.quartetElsewhere ck q then .trap (mismatch 2 q)
      else if t.cueFull t.cueB then .wait
      else
        let key : OpKey := ⟨w, []⟩
        let cks := quartetOf ck quartet
        let counted := !r.owed.any (fun o => o.1 == tidOf tk)
        let c1 := if counted && decide (r.state = .done) then c.setQ q { r with state := .opened } else c
        let s1 := if counted && decide (r.state = .done) then s.putC ck c1 else s
        match (if counted then s1.roundKey q cks else none) with
        | some first =>
          if first ≠ key then
            .ok ((s1.trapSigners q (mismatch 0 q) cks).trapAt tk t c1 (mismatch 0 q))
          else .ok ((s1.putT tk { t.incCue t.cueB with held := some (.sign q key e s.tick) }).tryIssue ck q)
        | none => .ok ((s1.putT tk { t.incCue t.cueB with held := some (.sign q key e s.tick) }).tryIssue ck q))
    s

def execMma (e : Bool) (q : BitVec 4) (d : BitVec 3) (a b : BitVec 4) (z : BitVec 1) : State → Out :=
  signWord e (insWord (.mma false q d a b z)) false
def execQmma (e : Bool) (q : BitVec 4) (d : BitVec 3) (a b : BitVec 4) (z : BitVec 1) : State → Out :=
  signWord e (insWord (.qmma false q d a b z)) true
def execMpoly (e : Bool) (q : BitVec 4) (d x t g : BitVec 3) (p : BitVec 1) : State → Out :=
  signWord e (insWord (.mpoly false q d x t g p)) false
def execMiter (e : Bool) (q : BitVec 4) (x a b : BitVec 3) (g : BitVec 2) (p : BitVec 1) (c : BitVec 6) : State → Out :=
  signWord e (insWord (.miter false q x a b g p c)) false

/-! ## The array -/

/-- The first cast-level operation of a matrix order, with those before it. -/
def firstCastOp : List MatOp → List MatOp → Option (List MatOp × MatOp)
  | _, [] => none
  | before, o :: rest => if o.tk.isNone then some (before, o) else firstCastOp (before ++ [o]) rest

/-- The four casts of a QMMA are resident in one cluster (R262); another operation has the one. -/
def State.wholeQuartet (s : State) (o : MatOp) : Bool := !isQmma o.word || (s.opParts o).length == 4

/-- A part of a QMMA that is to stop waits at its boundary for the parts behind it (R252, R262). -/
def State.waitsForParts (s : State) (o : MatOp) : Bool :=
  isQmma o.word &&
    (quartetOf o.ck true).any (fun ck => match s.cast ck with
      | some c => c.stop.isSome
      | none => false) &&
    (s.opParts o).any (fun p => decide (p.2.groups < o.groups))

/-- The groups granted to a core for the step under way multiply zero data until it ends: the operation that they were granted
for is over (R374). -/
def Core.idleGroups (k : Core) : Core :=
  { k with grants := 0, fillers := k.fillers + k.grants, released := Nat.max k.released k.grants }

/-- The first cast-level operation of a core that is not started and that no earlier entry blocks begins (R242); its groups come
with the next limiter step (R374). -/
def State.startOp (s : State) (k : Nat) : State :=
  match firstCastOp [] (s.core k).order with
  | none => s
  | some (before, o) =>
    if o.started || before.any (fun b => b.blocks o) || !s.wholeQuartet o then s
    else
      let r := if isMpoly o.word then o.polyStart (s.core k)
        else if isMiter o.word then o.iterStart (s.core k)
        else o.mmaStart (s.core k)
      (s.putCore k r.1.idleGroups).putOp k r.2

/-- An operation that waited in matrix order begins on the array (R242). -/
def execMatrixOpStart (core : Nat) (s : State) : Out := .next (s.startOp core)

/-- The array of a core does its next unit, the lines that a product's group needs read before it; a core to which the latest
limiter step dealt no column group does none (R359, R374). -/
def State.matrixUnit (s : State) (k : Nat) : State :=
  match firstCastOp [] (s.core k).order with
  | none => s
  | some (_, o) =>
    if s.waitsForParts o || (s.core k).grants == 0 || !o.started || o.finished then s
    else
      let p := if isMpoly o.word || isMiter o.word then (s, o) else s.fetchGroup k o
      let r := p.2.unit (p.1.core k)
      (p.1.putCore k (if r.2.finished then r.1.idleGroups else r.1)).putOp k r.2

/-! ## Completion -/

/-- A declaration that waited for the operation is in force from DONE on; threads held at q that it leaves out take MISMATCH
code 1 (R223, log 34). -/
def State.applyNext (s : State) (ck q : Nat) : State :=
  match s.cast ck with
  | none => s
  | some c =>
    match (c.qreg q).next with
    | none => s
    | some (w, m, qq) =>
      let r := { c.qreg q with w := w, m := m, quartet := qq, next := none }
      let c1 := c.setQ q r
      (s.putC ck c1).trapEach c1 (fun _ => mismatch 1 q) ((s.heldSigners ck q).filter (fun p => !r.declares (tidOf p.1)))

/-- The register after its operation: DONE; EMPTY where no member is left; OPEN where a thread held at q signs the next round
(R222). -/
def State.afterOp (s0 : State) (ck q : Nat) : State :=
  let s := s0.applyNext ck q
  match s.cast ck with
  | none => s
  | some c =>
    let r := c.qreg q
    if (s.qMembers ck r).isEmpty then s.putC ck (c.setQ q (r.declare none))
    else if (s.signatures ck q r).isEmpty then s
    else (s.putC ck (c.setQ q { r with state := .opened }))

/-- TVAL of DIVERGE (R282). -/
def divergeTval (o : MatOp) (res : Word) : DWord :=
  BitVec.ofNat 64 (res.toNat * 2 ^ 32 + o.iter * 2 ^ 12 + o.outcome * 2 ^ 8 + wD o.word * 2 ^ 4 + o.q)

/-- Completion for one cast: the report, DONE and GEN, the signers' cues and what they are owed (R222, R273, R282). -/
def State.completeCast (s : State) (k : Nat) (o : MatOp) : State :=
  match s.cast o.ck with
  | none => s
  | some c =>
    let core := s.core k
    let d := wD o.word
    let st := core.status d
    let core1 := match o.report with
      | some x => core.setStatus d { st with report := x }
      | none => core
    let r := c.qreg o.q
    let diverges := isMiter o.word && decide (2 ≤ o.outcome)
    let alive (tk : Nat) : Bool := match s.thread tk with
      | some t => !decide (t.run = .exited)
      | none => false
    let r1 := { r with
      state := .done
      gen := r.gen + 1
      progress := o.progress
      signers := []
      owed := if diverges then (r.signers.filter (fun x => alive x.1)).map (fun x => (tidOf x.1, x.2.2)) else r.owed
      owedTval := if diverges then divergeTval o st.res else r.owedTval }
    let s1 := (s.putCore k { core1 with order := core1.order.filter (fun p => p.op != o.op) }).putC o.ck (c.setQ o.q r1)
    let s2 := { s1 with threads := tmap s1.threads (fun tk t =>
        match r.signers.find? (fun (x : Nat × Nat × Priv) => x.1 == tk) with
        | some x => t.decCue x.2.1
        | none => t) }
    s2.afterOp o.ck o.q

/-- The operation at the head of a core's array completes where all its work is done, on every core that it uses (R222,
R226); a round that waited for it may issue. -/
def State.completeMatrix (s : State) (k : Nat) : State :=
  match firstCastOp [] (s.core k).order with
  | none => s
  | some (_, o) =>
    let parts := s.opParts o
    if parts.all (fun p => p.2.finished) && (parts.length == if isQmma o.word then 4 else 1) then
      let s1 := parts.foldl (fun (x : State) p => x.completeCast p.1 p.2) s
      parts.foldl (fun (x : State) p => x.tryIssue p.2.ck o.q) s1
    else s

/-- An issued matrix operation completes (R222). -/
def execMatrixOpComplete (core : Nat) (s : State) : Out := .next (s.completeMatrix core)

end Sys2Proof.Machine
end

