-- ==== Sys2Proof/Machine/Wings.lean ====
section
/-! DEFINITION. Wings and choruses (03_thread_execution.md R64 to R73): filing (R66), eligibility (R67), the order of
service (R68), drawing, lanes, and how a chorus loses, holds and splits its members (R70, R72, R215). -/
namespace Sys2Proof.Machine

/-! ## Slots (R64 to R67) -/

/-- The slots of a cast on a core: number and slot. -/
def Core.slotsOf (c : Core) (ck : Nat) : List (Nat × Slot) := c.slots.filter (fun p => p.2.ck == ck)

/-- An empty slot of a cast. -/
def Slot.empty (ck now : Nat) : Slot :=
  { ck := ck, pc := 0, priv := .program, tids := [], emptied := now, marked := false, since := none }

/-- The slot still holds the thread: it is Filed under the slot's key. -/
def Slot.keeps (x : Slot) (t : Thread) : Bool :=
  decide (t.run = .filed) && decide (t.pc = x.pc) && decide (t.priv = x.priv)

/-- Threads that left the Filed state or changed their key leave their slot; a slot that empties is free from now. -/
def Slot.clean (s : State) (now : Nat) (x : Slot) : Slot :=
  let ms := x.tids.filter (fun m =>
    match s.thread (thrKey x.ck m) with
    | some t => x.keeps t
    | none => false)
  if ms.isEmpty && !x.tids.isEmpty then Slot.empty x.ck now else { x with tids := ms }

/-- The slot of a key with room (R66 rule 1). -/
def joinSlot (xs : List (Nat × Slot)) (pc : DWord) (priv : Priv) : Option (Nat × Slot) :=
  xs.find? (fun p => !p.2.tids.isEmpty && decide (p.2.pc = pc) && decide (p.2.priv = priv) && decide (p.2.tids.length < 32))

/-- The empty slot that has been empty longest (R66 rule 2); of several emptied in one clock, the lowest (log 34). -/
def emptySlot : List (Nat × Slot) → Option (Nat × Slot)
  | [] => none
  | p :: rest =>
    match emptySlot rest with
    | none => if p.2.tids.isEmpty then some p else none
    | some q => if p.2.tids.isEmpty && decide (p.2.emptied ≤ q.2.emptied) then some p else some q

/-- The oldest filing among threads of a cast. -/
def State.oldest (s : State) (ck : Nat) (ms : List Nat) : Nat :=
  (s.membersOf ck ms).foldl (fun a p => Nat.min a p.2.age) s.tick

/-- The slot that holds the oldest thread of a cast (R66 rule 3); of several of one age, the lowest (log 34). -/
def State.oldestSlot (s : State) (ck : Nat) : List (Nat × Slot) → Option (Nat × Slot)
  | [] => none
  | p :: rest =>
    match s.oldestSlot ck rest with
    | none => if p.2.tids.isEmpty then none else some p
    | some q =>
      if !p.2.tids.isEmpty && decide (s.oldest ck p.2.tids ≤ s.oldest ck q.2.tids) then some p else some q

/-- TIDs in ascending order with one more. -/
def insertTid (m : Nat) : List Nat → List Nat
  | [] => [m]
  | x :: rest => if m < x then m :: x :: rest else if m = x then x :: rest else x :: insertTid m rest

def State.putSlot (s : State) (k n : Nat) (x : Slot) : State :=
  s.putCore k { s.core k with slots := tput (s.core k).slots n x }

/-- A thread enters the Filed state on a core (R66). -/
def State.fileThread (s0 : State) (k ck m : Nat) (t0 : Thread) : State :=
  let t := { t0 with filedAt := s0.clock (tileOf k) }
  let s := s0.putT (thrKey ck m) t
  let xs := (s.core k).slotsOf ck
  match joinSlot xs t.pc t.priv with
  | some (n, x) => s.putSlot k n { x with tids := insertTid m x.tids }
  | none =>
    match emptySlot xs with
    | some (n, x) => s.putSlot k n { x with pc := t.pc, priv := t.priv, tids := [m], since := none, marked := false }
    | none =>
      let s1 := s.putT (thrKey ck m) { t with run := .queued }
      let s2 := match s.cast ck with
        | some c => s1.putC ck { c with fq := c.fq ++ [m] }
        | none => s1
      match s.oldestSlot ck xs with
      | some (n, x) => s2.putSlot k n { x with marked := true }
      | none => s2

/-- Threads of the queue with a slot's key join it, first in first, until it holds 32 (R66): the slot, those that stay
queued, those that joined. -/
def joinFromQueue (s : State) (ck : Nat) (x : Slot) : List Nat → Slot × List Nat × List Nat
  | [] => (x, [], [])
  | m :: rest =>
    match s.thread (thrKey ck m) with
    | some t =>
      if decide (t.pc = x.pc) && decide (t.priv = x.priv) && decide (x.tids.length < 32) then
        let r := joinFromQueue s ck { x with tids := insertTid m x.tids } rest
        (r.1, r.2.1, m :: r.2.2)
      else
        let r := joinFromQueue s ck x rest
        (r.1, m :: r.2.1, r.2.2)
    | none => joinFromQueue s ck x rest

/-- An empty slot takes the head of the queue, n slots at most. -/
def State.drainQueue (s : State) (k ck : Nat) : Nat → State
  | 0 => s
  | n + 1 =>
    match s.cast ck with
    | none => s
    | some c =>
      match c.fq, emptySlot ((s.core k).slotsOf ck) with
      | m :: rest, some (i, x) =>
        match s.thread (thrKey ck m) with
        | none => ({ s with casts := tput s.casts ck { c with fq := rest } }).drainQueue k ck n
        | some t =>
          let y := { x with pc := t.pc, priv := t.priv, tids := [m], since := none, marked := false }
          let r := joinFromQueue s ck y rest
          let s1 := (s.putSlot k i r.1).putC ck { c with fq := r.2.1 }
          let s2 := (m :: r.2.2).foldl (fun (z : State) j =>
            { z with
              threads := tmod z.threads (thrKey ck j)
                (fun t => { t with run := .filed, filedAt := s.clock (tileOf k) }) }) s1
          s2.drainQueue k ck n
      | _, _ => s

/-- Every thread of a cast that is neither Exited nor Waiting is Filed (R67). -/
def State.allFiled (s : State) (ck : Nat) : Bool :=
  (s.castThreads ck).all (fun p => decide (p.2.run = .filed) || decide (p.2.run = .exited) || decide (p.2.run = .waiting))

/-- A slot is full, marked or complete, and so eligible whatever its age (R67). -/
def Slot.ready (x : Slot) (complete : Bool) : Bool :=
  !x.tids.isEmpty && (x.tids.length == 32 || x.marked || complete)

/-- The oldest thread of a slot has been filed for WINGAGE clocks of the core's tile (R67). -/
def State.slotIsOld (s : State) (k : Nat) (x : Slot) : Bool :=
  let now := s.clock (tileOf k)
  let first := (s.membersOf x.ck x.tids).foldl (fun a p => Nat.min a p.2.filedAt) now
  !x.tids.isEmpty && decide ((s.core k).wingage.toNat ≤ now - first)

/-- The clock since which each slot of a cast is eligible, by any of the four conditions of R67: a slot that meets none of
them any more waits for one again. -/
def State.noteEligible (s : State) (k ck : Nat) : State :=
  let complete := s.allFiled ck
  let now := s.clock (tileOf k)
  s.putCore k { s.core k with
    slots := tmap (s.core k).slots (fun _ x =>
      if x.ck ≠ ck then x
      else if x.ready complete || s.slotIsOld k x then { x with since := some (x.since.getD now) }
      else { x with since := none }) }

/-- The filing of a cast on a core after a step: slots let go of threads that left, the queue moves up, and newly Filed
threads are placed in ascending TID order (R66). -/
def State.fileCast (s : State) (k ck : Nat) : State :=
  let now := s.clock (tileOf k)
  let s1 := s.putCore k { s.core k with
    slots := tmap (s.core k).slots (fun _ x => if x.ck = ck then x.clean s now else x) }
  let s2 : State := match s1.cast ck with
    | some c => s1.putC ck { c with fq := c.fq.filter (fun m =>
        match s1.thread (thrKey ck m) with
        | some t => decide (t.run = .queued)
        | none => false) }
    | none => s1
  let s3 := s2.drainQueue k ck 64
  let held := ((s3.core k).slotsOf ck).flatMap (fun p => p.2.tids)
  let s4 := ((s3.castThreads ck).filter (fun p => decide (p.2.run = .filed) && !held.contains p.1)).foldl
    (fun (z : State) p => z.fileThread k ck p.1 p.2) s3
  s4.noteEligible k ck

/-! ## Choruses (R70, R72, R215) -/

/-- The hold of a member that keeps its chorus's lane: FENCE.E, a queue slot, PUBLISH, a frozen page (R216). -/
def Held.keepsLane : Held → Bool
  | .fence _ _ _ | .slot _ | .publish _ | .ctxsave _ | .snapshot | .mcst _ _ _ => true
  | .rdv _ _ | .sign _ _ _ _ | .bar _ _ _ | .gbar _ _ _ _ | .astore _ _ => false

/-- The member has still to pass the chorus's word. -/
def Chorus.waitsFor (x : Chorus) (t : Thread) : Bool :=
  decide (t.pc = x.pc) &&
    (match t.held with
    | none => true
    | some h => h.keepsLane)

/-- The member stands at a held word of its chorus (R215). -/
def Chorus.holds (x : Chorus) (t : Thread) : Bool :=
  decide (t.pc = x.pc) &&
    (match t.held with
    | none => false
    | some h => !h.keepsLane)

/-- The s-registers that a V2S wrote last in some of the threads (R75). -/
def lagOf (ms : List (Nat × Thread)) : BitVec 32 := ms.foldl (fun a p => a ||| p.2.v2s) 0

/-- Members in groups of one PC and scene, ascending by PC (R72). -/
def groupByPc : List (Nat × Thread) → List (DWord × DWord × List Nat)
  | [] => []
  | (tk, t) :: rest =>
    let gs := groupByPc rest
    let m := tidOf tk
    let rec add : List (DWord × DWord × List Nat) → List (DWord × DWord × List Nat)
      | [] => [(t.pc, t.hdr, [m])]
      | g :: more =>
        if g.1 = t.pc ∧ g.2.1 = t.hdr then (g.1, g.2.1, m :: g.2.2) :: more
        else if t.pc.toNat < g.1.toNat then (t.pc, t.hdr, [m]) :: g :: more
        else g :: add more
    add gs

/-- New choruses from a parent, one for each group: between scenes they fetch; within one they compete for a lane. Each
takes a free value for the word that it passes first (R75). -/
def State.addChoruses (s : State) (k : Nat) (x : Chorus) (inScene sub : Bool) : List (DWord × DWord × List Nat) → State
  | [] => s
  | (pc, hdr, ms) :: rest =>
    let c := s.core k
    let y : Chorus := { x with
      members := ms, hdr := hdr, pc := pc, todo := [], lane := none, since := s.clock (tileOf k), sub := sub, draw := s.free
      lag := lagOf (s.membersOf x.ck ms)
      words := if inScene then x.words else []
      phase := if inScene then .lane else .fetch }
    ({ s.putCore k { c with chorus := tput c.chorus c.nextChorus y, nextChorus := c.nextChorus + 1 } with
      free := s.free + 1 } : State).addChoruses k x inScene sub rest

def State.dropChorus (s : State) (k n : Nat) : State :=
  s.putCore k { s.core k with chorus := tdel (s.core k).chorus n }

/-- Members that passed the chorus's word form sub-choruses: those within the scene go on in it, those past its end
stand before their next scenes (R72, R215). A chorus that goes on whole to its next scene is the same chorus (R73), but at a
held word those that go on are sub-choruses, wherever they stand (R70). -/
def State.splitOff (s : State) (k : Nat) (x : Chorus) (held : Bool) (ms : List (Nat × Thread)) : State :=
  let inside := groupByPc (ms.filter (fun p => p.2.inScene))
  let ended := groupByPc (ms.filter (fun p => !p.2.inScene))
  let split := held || x.sub || !inside.isEmpty || decide (1 < ended.length)
  (s.addChoruses k x true true inside).addChoruses k x false split ended

/-- One chorus after a step: members that left are gone; once every member has passed the word, the chorus goes on to the
next one, splits, or gives up its lane to a hold (R70, R72, R215). -/
def State.regroupOne (s : State) (k n : Nat) (x : Chorus) : State :=
  let ms := (s.membersOf x.ck x.members).filter (fun p => decide (p.2.run = .member))
  if ms.isEmpty then s.dropChorus k n
  else if x.phase ≠ .running then
    if x.phase = .lane ∧ x.todo.isEmpty ∧ x.lane.isNone then
      let stuck := ms.filter (fun p => decide (p.2.pc = x.pc))
      let moved := ms.filter (fun p => !decide (p.2.pc = x.pc))
      let s1 := if stuck.isEmpty then s.dropChorus k n
        else s.putChorus k n { x with members := stuck.map (fun p => tidOf p.1) }
      s1.splitOff k x true moved
    else s.putChorus k n { x with members := ms.map (fun p => tidOf p.1) }
  else
    let todo := (ms.filter (fun p => x.todo.contains (tidOf p.1) && x.waitsFor p.2)).map (fun p => tidOf p.1)
    if !todo.isEmpty then
      s.putChorus k n { x with members := ms.map (fun p => tidOf p.1), todo := todo }
    else
      let stuck := ms.filter (fun p => x.holds p.2)
      let moved := ms.filter (fun p => !x.holds p.2)
      if stuck.isEmpty then
        match groupByPc moved with
        | [(pc, _, tids)] =>
          if moved.all (fun p => p.2.inScene) then
            { s.putChorus k n { x with members := tids, pc := pc, todo := tids, draw := s.free, lag := lagOf moved } with
              free := s.free + 1 }
          else (s.dropChorus k n).splitOff k x false moved
        | _ => (s.dropChorus k n).splitOff k x false moved
      else
        let s1 := s.putChorus k n { x with
          members := stuck.map (fun p => tidOf p.1), todo := [], lane := none, phase := .lane }
        s1.splitOff k x true moved

/-- Every chorus of a core after a step. -/
def State.regroup (s : State) (k : Nat) : State :=
  (s.core k).chorus.foldl (fun (z : State) p => z.regroupOne k p.1 p.2) s

/-! ## The order of service (R68) -/

/-- The effective priority after some clocks of waiting. -/
def effective (prio wait age : Nat) : Nat := Nat.min 7 (prio + wait / (4 * age))

/-- What ranks a slot or a chorus: effective priority, oldest filing, the order of launches, and slot number or, after
every drawn chorus of that rank, a sub-chorus's target address (R68, R356; log 34). -/
structure Rank where
  eff : Nat
  age : Nat
  launch : Nat
  sub : Bool
  low : Nat
  deriving DecidableEq, Repr

/-- Served before the other. -/
def Rank.before (a b : Rank) : Bool :=
  decide (b.eff < a.eff) || (a.eff == b.eff && (decide (a.age < b.age) || (a.age == b.age &&
    (decide (a.launch < b.launch) || (a.launch == b.launch &&
      ((!a.sub && b.sub) || (a.sub == b.sub && decide (a.low < b.low))))))))

/-- The launches that are older than a production, by node creation key (R356). -/
def State.launchPlace (s : State) (n : Nat) : Nat :=
  match tfind s.prods n with
  | some p => (s.prods.filter (fun x => x.2.key.before p.key)).length
  | none => s.prods.length

/-- The rank of a cast's slot or chorus that waits since a clock. -/
def State.rank (s : State) (k ck since age : Nat) (sub : Bool) (low : Nat) : Rank :=
  match s.cast ck with
  | some c => ⟨effective c.prio (s.clock (tileOf k) - since) (s.core k).wingage.toNat, age, s.launchPlace c.prod, sub, low⟩
  | none => ⟨0, age, 0, sub, low⟩

/-- A slot that may be drawn, with its rank. -/
def State.slotRank (s : State) (k : Nat) (p : Nat × Slot) : Option (Nat × Rank) :=
  match p.2.since with
  | none => none
  | some c => if p.2.tids.isEmpty then none else some (p.1, s.rank k p.2.ck c (s.oldest p.2.ck p.2.tids) false p.1)

/-- The rank of a chorus that waits for a lane. -/
def State.chorusRank (s : State) (k : Nat) (x : Chorus) : Rank :=
  s.rank k x.ck x.since x.age x.sub (if x.sub then x.pc.toNat else x.slot)

/-- A chorus waits for a lane: it is past its header wait, or it is a sub-chorus within a scene, and some member is not
held. -/
def State.wantsLane (s : State) (x : Chorus) : Bool :=
  decide (x.phase = .lane) && x.lane.isNone &&
    (s.membersOf x.ck x.members).any (fun p => p.2.held.isNone && decide (p.2.pc = x.pc)) &&
    (match s.cast x.ck with
    | some c => !c.stopping || (s.membersOf x.ck x.members).any (fun p => p.2.inScene)
    | none => false)

/-- The numbers ranked, the first served. -/
def best : List (Nat × Rank) → Option (Nat × Rank)
  | [] => none
  | p :: rest =>
    match best rest with
    | none => some p
    | some q => if q.2.before p.2 then some q else some p

/-- The slot of a core that is drawn next. -/
def State.bestSlot (s : State) (k : Nat) : Option Nat :=
  (best ((s.core k).slots.filterMap (fun p =>
    match s.cast p.2.ck with
    | some c => if c.stopping then none else s.slotRank k p
    | none => none))).map (·.1)

/-- The chorus of a core that wins a lane next. -/
def State.bestChorus (s : State) (k : Nat) : Option Nat :=
  (best ((s.core k).chorus.filterMap (fun p =>
    if s.wantsLane p.2 then some (p.1, s.chorusRank k p.2) else none))).map (·.1)

/-- A lane that no chorus holds. -/
def Core.freeLane (c : Core) : Option Nat :=
  (List.range Config.lanes).find? (fun n => !c.chorus.any (fun p => p.2.lane == some n))

/-! ## The scheduler's own steps -/

/-- A slot whose oldest thread has been filed for WINGAGE clocks is eligible (R67). -/
def execSlotAged (core slot : Nat) (s : State) : Out :=
  match tfind (s.core core).slots slot with
  | none => .next s
  | some x =>
    if x.since.isNone && s.slotIsOld core x then
      .next (s.putSlot core slot { x with since := some (s.clock (tileOf core)) })
    else .next s

/-- Threads of a slot become Members of choruses: a single-stepped thread alone (R202), the others by their scene. -/
def State.drawThreads (s : State) (k n : Nat) (x : Slot) (ms : List (Nat × Thread)) : State :=
  let alone (t : Thread) : Bool := t.step && decide (t.priv = .program)
  let s1 := ms.foldl (fun (z : State) p => z.putT p.1 { p.2 with run := .member }) s
  let y : Chorus :=
    { ck := x.ck, priv := x.priv, members := [], hdr := 0, words := [], pc := x.pc, todo := [], phase := .fetch,
      lane := none, age := s.oldest x.ck x.tids, since := s.clock (tileOf k), slot := n, sub := false, draw := 0, lag := 0 }
  let s2 := s1.addChoruses k y false false (groupByPc (ms.filter (fun p => !alone p.2)))
  (ms.filter (fun p => alone p.2)).foldl (fun (z : State) p => z.addChoruses k y false false (groupByPc [p])) s2

/-- The slot that is next in the order of R68 is drawn: causes due to its threads are delivered first (R194), and the
rest become a chorus (R67). -/
def execChorusDraw (core slot : Nat) (s : State) : Out :=
  match tfind (s.core core).slots slot with
  | none => .next s
  | some x =>
    if s.bestSlot core ≠ some slot then .next s
    else
      let s1 := x.tids.foldl (fun (z : State) m => z.deliver (thrKey x.ck m)) s
      let ms := (s1.membersOf x.ck x.tids).filter (fun p => x.keeps p.2)
      let s2 := s1.drawThreads core slot x ms
      .next ((s2.putSlot core slot (Slot.empty x.ck (s.clock (tileOf core)))))

/-- Members that resume within a scene are in it from the grant on, with the bindings of its header (R196). -/
def Thread.resumeScene (t : Thread) (x : Chorus) : Thread :=
  if t.inScene then t
  else { t with inScene := true, cueA := fld x.header 8 4, cueB := fld x.header 4 4 }

/-- The chorus that is next in the order of R68 wins a free lane; a chorus at a header passes the header first. -/
def execLaneGrant (core ch : Nat) (s : State) : Out :=
  match (s.core core).chorusNo ch, (s.core core).freeLane with
  | some x, some lane =>
    if s.bestChorus core ≠ some ch then .next s
    else
      let ms := s.membersOf x.ck x.members
      let s1 := if x.pc = x.hdr then s
        else ms.foldl (fun (z : State) p => z.putT p.1 (p.2.resumeScene x)) s
      .next (s1.putChorus core ch { x with phase := .running, lane := some lane, todo := x.members })
  | _, _ => .next s

/-- Causes due are delivered to a thread at its boundary (R194). -/
def execCauseDelivery (tk : Nat) (s : State) : Out := .next (s.deliver tk)

/-- The ticks of the time-out of a cast have passed since a tick (R217). -/
def Cast.rdvOver (c : Cast) (tick since : Nat) : Bool := c.rdvto != 0 && decide (since + c.rdvto ≤ tick)

/-- The tick at which a held thread arrived or signed. -/
def Thread.heldSince (t : Thread) : Option Nat :=
  match t.held with
  | some (.rdv _ n) => some n
  | some (.sign _ _ _ n) => some n
  | _ => none

/-- The earliest of the ticks. -/
def firstTick (tick : Nat) (xs : List (Nat × Thread)) : Nat :=
  xs.foldl (fun a p => Nat.min a (p.2.heldSince.getD tick)) tick

/-- Seats of a window whose declared members have not signed q. -/
def State.unsigned (s : State) (ck q w : Nat) (r : QReg) : Word :=
  seatBits ((s.qMembers ck r).filter (fun p => windowOf (tidOf p.1) == w && (p.2.signs q).isNone))

/-- The set of a held thread has waited for RDVTO ticks: its held members take RDV (R217). In a quartet round each cast's
RDVTO counts, and traps, that cast's signers (log 34). -/
def State.timeOutSet (s : State) (tk : Nat) : State :=
  match s.thread tk, s.cast (castOf tk) with
  | some t, some c =>
    let ck := castOf tk
    match t.held with
    | some (.rdv mask _) =>
      let w := windowOf (tidOf tk)
      if c.rdvOver s.tick (firstTick s.tick (s.rdvSet ck w t.pc t.priv mask)) then
        s.failSet ck w c t.pc t.priv mask 0
      else s
    | some (.sign q _ _ _) =>
      let held := s.heldSigners ck q
      if c.rdvOver s.tick (firstTick s.tick held) then
        s.trapEach c (fun k =>
          trapOf .rdv (rdvTval q 2 (s.unsigned ck q (windowOf (tidOf k)) (c.qreg q)))) held
      else s
    | _ => s
  | _, _ => s

/-- A rendezvous or signing set exceeds RDVTO (R217). -/
def execRdvTimeout (tk : Nat) (s : State) : Out := .next (s.timeOutSet tk)

/-- A debugger halt that a protected gallery does not permit is refused and logged (R339, R409). -/
def State.refuseHalt (s : State) (gi : Nat) (a : DWord) (gidx : Nat) : State :=
  s.log logCurator 0 6 gi (recordDetail a gidx)

/-- A halt is asked of a cast: its threads are due it, or take it when the cast is admitted (R203). -/
def State.askHalt (s : State) (ck : Nat) (c : Cast) : State :=
  if c.coreNo.isSome then s.haltCast ck none else s.putC ck { c with haltReq := true }

/-- A debugger halt is requested of a cast from outside; a protected gallery without external debug refuses it (R203,
R409). -/
def execHaltRequest (ck : Nat) (s : State) : Out :=
  match s.cast ck with
  | none => .next s
  | some c =>
    match s.gal c.gallery with
    | none => .next s
    | some g =>
      if g.protect && !g.debug then
        .next (s.refuseHalt c.gallery (((tfind s.prods c.prod).map (·.recAddr)).getD 0) c.gidx)
      else .next (s.askHalt ck c)

end Sys2Proof.Machine
end

