-- ==== Sys2Proof/Machine/Launch.lean ====
section
/-! DEFINITION. Launch records and the running order: the record (16_package_launch_power.md R342), LAUNCH, GNODE, GDEP
(R343 to R349), the end of a node (R345, R346), and grid barriers: GBAR (R371, R372). -/
namespace Sys2Proof.Machine

/-! ## The record (R342) -/

/-- A field of n bytes at an offset of a record. -/
def recNat (bs : List Byte) (off n : Nat) : Nat := leNat ((bs.drop off).take n)

def Prod.entry (p : Prod) : DWord := BitVec.ofNat 64 (recNat p.bytes 0x00 8)
def Prod.ntid (p : Prod) : Nat := recNat p.bytes 0x08 2
def Prod.epc (p : Prod) : Nat := recNat p.bytes 0x0B 1
def Prod.comp (p : Prod) : Nat := recNat p.bytes 0x0C 1
def Prod.flags (p : Prod) : Nat := recNat p.bytes 0x0D 1
def Prod.prio (p : Prod) : Nat := p.flags % 8
def Prod.weightLoad (p : Prod) : Bool := bit p.flags 3
def Prod.isCopy (p : Prod) : Bool := bit p.flags 4
def Prod.vbud (p : Prod) : Nat := recNat p.bytes 0x0E 1
def Prod.sbud (p : Prod) : Nat := recNat p.bytes 0x0F 1
def Prod.regs (p : Prod) : Nat := recNat p.bytes 0x10 1
def Prod.scr (p : Prod) : Nat := recNat p.bytes 0x11 1
def Prod.amask (p : Prod) : Nat := recNat p.bytes 0x12 1
def Prod.cgrant (p : Prod) : Bool := bit (recNat p.bytes 0x13 1) 0
def Prod.scratch (p : Prod) : Nat := recNat p.bytes 0x14 4
def Prod.tvec (p : Prod) : DWord := BitVec.ofNat 64 (recNat p.bytes 0x18 8)
/-- ARG n. -/
def Prod.arg (p : Prod) (n : Nat) : DWord := BitVec.ofNat 64 (recNat p.bytes (0x20 + 8 * n) 8)
def Prod.energy (p : Prod) : Nat := recNat p.bytes 0x58 4
def Prod.current (p : Prod) : Nat := recNat p.bytes 0x5C 2
def Prod.bw (p : Prod) : Nat := recNat p.bytes 0x5E 2
def Prod.floorClass (p : Prod) : Nat := recNat p.bytes 0x60 1
def Prod.slice (p : Prod) : Nat := recNat p.bytes 0x64 4
def Prod.saveArea (p : Prod) : Nat := recNat p.bytes 0x68 8

/-- Bytes rounded up to a multiple of 4 KiB (R210). -/
def roundUp4K (n : Nat) : Nat := (n + 4095) / 4096 * 4096
/-- Register area and scratchpad of one cast (R210). -/
def recRegs (bs : List Byte) : Nat :=
  roundUp4K (recNat bs 0x08 2 * (4 * recNat bs 0x0E 1 + 8 * recNat bs 0x0F 1))
def recSpsize (bs : List Byte) : Nat := roundUp4K (recNat bs 0x14 4)

/-- The casts of a node (R346). -/
def Prod.total (p : Prod) : Nat := if p.isCopy then 0 else p.comp * p.epc * p.cpe

/-- Eighths of a cluster's energy that a floor class contracts (R357). -/
def floorEighths (c : Nat) : Nat :=
  match c with
  | 0 => 0
  | 1 => 1
  | 2 => 2
  | 3 => 4
  | _ => 8

/-- Bytes of a sealed record (R406). -/
def sealedLen : Nat := 0x11040

/-- A COPY control word that R323 step 4 refuses (R327); SEAL is a field of it in a protected gallery (R406). -/
def copyCtlBad (protect : Bool) (x : Nat) : Bool :=
  fld x 40 24 != 0 || fld x 34 2 != 0 || fld x 38 2 == 3 || fld x 36 2 == 3 || fld x 0 4 != 0 ||
    decide (fld x 0 32 < 16) || decide (2 ^ 30 < fld x 0 32) ||
    (fld x 32 2 != 0 && (fld x 32 2 == 3 || !protect || fld x 36 4 != 0 || fld x 0 32 != sealedLen))

/-- Code 1 of R348: a shape field out of its range. -/
def recShapeBad (tiles : Nat) (bs : List Byte) : Bool :=
  let ntid := recNat bs 0x08 2
  let cpe := recNat bs 0x0A 1
  let epc := recNat bs 0x0B 1
  let comp := recNat bs 0x0C 1
  decide (ntid < 32) || decide (2048 < ntid) || ntid % 32 != 0 || cpe == 0 || decide (4 < cpe) || epc == 0 ||
    decide (40 < epc) || comp == 0 || decide (tiles < comp)

/-- Code 2: budgets, split, or a demand beyond the split. -/
def recSplitBad (bs : List Byte) : Bool :=
  decide (64 < recNat bs 0x0E 1) || decide (32 < recNat bs 0x0F 1) ||
    decide (Config.sramUnits < recNat bs 0x10 1 + recNat bs 0x11 1) ||
    decide (recNat bs 0x10 1 * 65536 < recRegs bs) || decide (recNat bs 0x11 1 * 65536 < recSpsize bs)

/-- Code 3: reserved bits and misaligned addresses. -/
def recReservedBad (bs : List Byte) : Bool :=
  let kernel := !bit (recNat bs 0x0D 1) 4
  let entry := recNat bs 0x00 8
  let save := recNat bs 0x68 8
  let succ := recNat bs 0x70 8
  fld (recNat bs 0x13 1) 1 7 != 0 || fld (recNat bs 0x0D 1) 5 3 != 0 || recNat bs 0x61 3 != 0 ||
    recNat bs 0x7F 1 != 0 || (kernel && (fld entry 56 8 != 0 || entry % 4 != 0)) || save == 0 || save % 4096 != 0 ||
    succ % 8 != 0 || (recNat bs 0x78 2 != 0 && succ == 0)

/-- Code 4: a playbill field out of its range. -/
def recPlaybillBad (bs : List Byte) : Bool :=
  decide (56000 < recNat bs 0x58 4) || decide (24000 < recNat bs 0x5C 2) || decide (1000 < recNat bs 0x5E 2) ||
    decide (4 < recNat bs 0x60 1)

/-- The live nodes of a gallery. -/
def State.liveNodes (s : State) (gi : Nat) : List (Nat × Prod) := s.prods.filter (fun p => p.2.gallery == gi)

/-- The node of a record. -/
def State.nodeAt (s : State) (gi : Nat) (a : DWord) : Option (Nat × Prod) :=
  (s.liveNodes gi).find? (fun p => decide (p.2.recAddr = a))

/-- The code with which LAUNCH and GNODE refuse a record (R348). -/
def State.recordCode (s : State) (gi : Nat) (g : Gallery) (priv : Priv) (bs : List Byte) : Option Nat :=
  let flags := recNat bs 0x0D 1
  let kernel := !bit flags 4
  let floors := ((s.liveNodes gi).map (fun p => if p.2.isCopy then 0 else floorEighths p.2.floorClass)).foldl (· + ·) 0
  let st := recNat bs 0x7E 1
  if kernel && recShapeBad g.tiles.length bs then some 1
  else if kernel && recSplitBad bs then some 2
  else if recReservedBad bs then some 3
  else if kernel && recPlaybillBad bs then some 4
  else if kernel && decide (8 < floors + floorEighths (recNat bs 0x60 1)) then some 5
  else if decide (1 ≤ st) && decide (st ≤ 4) then some 6
  else if bit flags 3 && (decide (priv = .program) || !(s.liveNodes gi).isEmpty) then some 7
  else if !kernel && copyCtlBad g.protect (recNat bs 0x30 8) then some 8
  else none

/-! ## Reaching records -/

/-- Where a global access of an agent in a gallery at a privilege goes: its alignment, its translation, and the accesses of
its walk (R175, R187). -/
def State.reach (s : State) (agent gi : Nat) (priv : Priv) (a : DWord) (n : Nat) (k : Acc) : Res (State × Loc) :=
  if a.toNat % n ≠ 0 then .trap (trapOf .align a)
  else
    match s.gal gi with
    | none => .fault .noSuchAddress
    | some g =>
      match translate s.readable gi g a priv k with
      | .fail fk => .trap (pageFault a fk k)
      | .off => .fault .noSuchAddress
      | .ok x => .ok (s.walked agent gi x k, x.loc)

/-- An access that hardware makes for itself, as the curator's and at supervisor privilege; none where the page does not
permit it (log 11). -/
def State.reachHw (s : State) (gi : Nat) (a : DWord) (n : Nat) (k : Acc) : Option (State × Loc) :=
  match s.reach curatorAgent gi .supervisor a n k with
  | .ok r => some r
  | _ => none

/-- One write of hardware's own. -/
def State.writeAt (s : State) (l : Loc) (bs : List Byte) : State := (s.put curatorAgent l bs).1

/-! ## Nodes (R345) -/

/-- A node becomes ready, and its ensembles enter the ready queue (R345, R350). -/
def State.enqueue (s : State) (n : Nat) : State :=
  match tfind s.prods n with
  | none => s
  | some p =>
    let s := { s with prods := tput s.prods n { p with ready := true } }
    if p.isCopy then s
    else
      match s.gal p.gallery with
      | none => s
      | some g =>
        let ws := (List.range (p.comp * p.epc)).map (fun i =>
          ({ node := n, company := i / p.epc, ensemble := i % p.epc, wage := 0, since := s.tick, blocker := false } : Wait))
        s.putG p.gallery { g with ready := g.ready ++ ws }

/-- The node that a record describes, created at a key. -/
def Prod.made (gi : Nat) (priv : Priv) (a : DWord) (bs : List Byte) (key : Key) : Prod :=
  let p : Prod :=
    { gallery := gi, recAddr := a, bytes := bs, key := key, priv := priv, ready := false, started := false, startKey := key, startHost := 0, code := [],
      casts := 0, ended := 0, unhandled := 0, first := [], firstKey := Key.zero, engFaults := 0, engFirst := 0,
      engKey := Key.zero, bind := [], grids := [], copyOp := none }
  { p with casts := p.total }

/-- The cast takes room on a core. -/
def Cast.placed (c : Cast) : Bool :=
  match c.res with
  | .waking _ | .core _ | .kept _ => true
  | _ => false

/-- A node runs: it has started, or a cast of it has a core. -/
def State.running (s : State) (n : Nat) (p : Prod) : Bool :=
  p.started || s.casts.any (fun c => c.2.prod == n && c.2.placed)

/-- The box office may admit casts of a node, or start it: a weight-load production runs alone in its gallery (R331). -/
def State.mayRun (s : State) (n : Nat) (p : Prod) : Bool :=
  (s.liveNodes p.gallery).all (fun x => x.1 == n || !s.running x.1 x.2 || !(p.weightLoad || x.2.weightLoad))

/-- An engine fault of a production at an address: the count, and the one with the lowest key; a copy node counts one
(R346). -/
def Prod.noteFault (p : Prod) (x : DWord) (k : Key) : Prod :=
  let first := p.engFaults == 0 || k.before p.engKey
  { p with
    engFaults := if p.isCopy then 1 else p.engFaults + 1
    engFirst := if first then x &&& 0x00FF_FFFF_FFFF_FFFF else p.engFirst
    engKey := if first then k else p.engKey }

/-- A record becomes a live node at the key of an agent's access to it: held, or ready at once (R345). -/
def State.createNode (s : State) (agent gi : Nat) (priv : Priv) (a : DWord) (l : Loc) (bs : List Byte) (held : Bool) :
    State :=
  let n := s.nextProd
  let r := s.put agent (l.plus 0x7A)
    (leBytes 2 0 ++ leBytes 2 (if held then 1 else 0) ++ leBytes 1 (if held then 1 else 3))
  let s2 := { r.1 with prods := tput r.1.prods n (Prod.made gi priv a bs r.2), nextProd := n + 1 }
  if held then s2 else s2.enqueue n

/-- PRED of a record falls by one; where it reaches 0 the node is ready (R345). st is the STATE that it takes while
predecessors remain. -/
def State.dropPred (s : State) (agent gi : Nat) (a : DWord) (l : Loc) (remaining : Nat) : State :=
  let pred := (s.value (l.plus 0x7C) 2 + 2 ^ 16 - 1) % 2 ^ 16
  let s1 := (s.put agent (l.plus 0x7C) (leBytes 2 pred ++ leBytes 1 (if pred = 0 then 3 else remaining))).1
  if pred = 0 then
    match s1.nodeAt gi a with
    | some (n, _) => s1.enqueue n
    | none => s1
  else s1

/-- A handle's record address; none where its reserved bits are not zero (R347). -/
def handleRec (x : DWord) : Option DWord :=
  if fld x.toNat 56 7 ≠ 0 ∨ fld x.toNat 0 7 ≠ 0 then none else some (x &&& 0x7FFF_FFFF_FFFF_FFFF)
/-- The handle of a record. -/
def handleOf (a : DWord) : DWord := a ||| 0x8000_0000_0000_0000

/-- The bytes of a record; zeros where its line supplies no data (R194). -/
def State.recordBytes (s : State) (l : Loc) : List Byte :=
  if s.poisoned l then List.replicate 128 0 else bytesAt s.mem l.cell 128

/-- LAUNCH and GNODE on a record address (R348): the value of s[sd]. -/
def State.newNode (s : State) (agent gi : Nat) (priv : Priv) (a : DWord) (held : Bool) : Res (State × DWord) :=
  (s.reach agent gi priv a 128 .rmw).bind (fun (s1, l) =>
    match s1.gal gi with
    | none => .fault .noSuchAddress
    | some g =>
      let bs := s1.recordBytes l
      match s1.recordCode gi g priv bs with
      | some code => .ok ((s1.noteRead agent l).1.notePoison l, BitVec.ofNat 64 code)
      | none => .ok (s1.createNode agent gi priv a l bs held, handleOf a))

/-- LAUNCH on a handle (R345, R348). -/
def State.releaseNode (s : State) (agent gi : Nat) (priv : Priv) (x a : DWord) : Res (State × DWord) :=
  (s.reach agent gi priv a 128 .rmw).bind (fun (s1, l) =>
    if s1.value (l.plus 0x7E) 1 ≠ 1 then .ok ((s1.noteRead agent l).1.notePoison l, 6)
    else .ok (s1.dropPred agent gi a l 2, x))

/-- LAUNCH of an operand value by an agent for a gallery at a privilege; reg is the number that an ILLEGAL reports (R347). -/
def State.launchOp (s : State) (agent gi : Nat) (priv : Priv) (x : DWord) (reg : Nat) : Res (State × DWord) :=
  if x.msb then
    match handleRec x with
    | none => .trap (trapOf .illegal (BitVec.ofNat 64 reg))
    | some a => s.releaseNode agent gi priv x a
  else s.newNode agent gi priv x false

/-- GNODE of an operand value (R347, R348). -/
def State.gnodeOp (s : State) (agent gi : Nat) (priv : Priv) (x : DWord) (reg : Nat) : Res (State × DWord) :=
  if x.msb then .trap (trapOf .illegal (BitVec.ofNat 64 reg)) else s.newNode agent gi priv x true

/-- A refusal of GDEP (R349). -/
def gdepRefusal (a : DWord) : TrapInfo := trapOf .engine (BitVec.ofNat 64 (7 * 2 ^ 56 + a.toNat % 2 ^ 56))

/-- An operand of GDEP: a handle's record address (R347). -/
def gdepOperand (x : DWord) (reg : Nat) : Res DWord :=
  match x.msb, handleRec x with
  | true, some a => .ok a
  | _, _ => .trap (trapOf .illegal (BitVec.ofNat 64 reg))

/-- GDEP of two operand values (R349). -/
def State.gdepOp (s : State) (agent gi : Nat) (priv : Priv) (x y : DWord) (rx ry : Nat) : Res State :=
  (gdepOperand x rx).bind (fun pa =>
    (gdepOperand y ry).bind (fun sa =>
      (s.reach agent gi priv pa 128 .rmw).bind (fun (s1, lp) =>
        (s1.reach agent gi priv sa 128 .rmw).bind (fun (s2, ls) =>
          let s2 := (s2.notePoison lp).notePoison ls
          let st := s2.value (lp.plus 0x7E) 1
          let nsucc := s2.value (lp.plus 0x7A) 2
          if s2.value (ls.plus 0x7E) 1 ≠ 1 then .trap (gdepRefusal sa)
          else if st = 0 then .trap (gdepRefusal pa)
          else if st = 5 then .ok (s2.noteRead agent lp).1
          else if nsucc = s2.value (lp.plus 0x78) 2 then .trap (gdepRefusal sa)
          else
            (s2.reach agent gi priv (BitVec.ofNat 64 (s2.value (lp.plus 0x70) 8 + 8 * nsucc)) 8 .write).bind (fun (s3, ll) =>
              let pred := (s3.value (ls.plus 0x7C) 2 + 1) % 2 ^ 16
              .ok (s3.putAll agent [(ll, leBytes 8 (handleOf sa).toNat), (lp.plus 0x7A, leBytes 2 (nsucc + 1)),
                (ls.plus 0x7C, leBytes 2 pred)]).1)))))

/-- The thread is owed POISON for a record that supplies no data, by the address that an operand value names (R194). -/
def State.oweRecord (s : State) (t : Thread) (c : Cast) (x : DWord) : Thread :=
  let a := x &&& 0x7FFF_FFFF_FFFF_FFFF
  match (s.gal c.gallery).map (fun g => translate s.readable c.gallery g a t.priv .rmw) with
  | some (.ok y) => t.owePoison (s.poisoned y.loc) s.nextOp a
  | _ => t

/-- The vaults log the lines with errors that the access to a record reads, by the address that an operand value names (R339,
R404). -/
def State.noteRecord (s : State) (t : Thread) (c : Cast) (x : DWord) : State :=
  let a := x &&& 0x7FFF_FFFF_FFFF_FFFF
  match (s.gal c.gallery).map (fun g => translate s.readable c.gallery g a t.priv .rmw) with
  | some (.ok y) => s.notePoison y.loc
  | _ => s.noteWalk c.gallery a

/-- LAUNCH (R348). -/
def execLaunch (e : Bool) (d a : BitVec 5) (s : State) : Out :=
  issue anyPriv (fun _ => [sReg d.toNat, sReg a.toNat])
    (fun t0 c =>
      let p := s.charge t0 [a.toNat]
      (p.1.launchOp c.agent c.gallery p.2.priv (p.2.uni a.toNat) (sReg a.toNat)).bind (fun (s1, x) =>
        .ok (s1.finish s.focus ((p.1.oweRecord p.2 c (p.2.uni a.toNat)).putUni d.toNat x) c e 4)))
    s

/-- GNODE (R348). -/
def execGnode (e : Bool) (d a : BitVec 5) (s : State) : Out :=
  issue anyPriv (fun _ => [sReg d.toNat, sReg a.toNat])
    (fun t0 c =>
      let p := s.charge t0 [a.toNat]
      (p.1.gnodeOp c.agent c.gallery p.2.priv (p.2.uni a.toNat) (sReg a.toNat)).bind (fun (s1, x) =>
        .ok (s1.finish s.focus ((p.1.oweRecord p.2 c (p.2.uni a.toNat)).putUni d.toNat x) c e 4)))
    s

/-- GDEP (R349). -/
def execGdep (e : Bool) (a b : BitVec 5) (s : State) : Out :=
  issue anyPriv (fun _ => [sReg a.toNat, sReg b.toNat])
    (fun t0 c =>
      let p := s.charge t0 [a.toNat, b.toNat]
      let t := p.1.oweRecord (p.1.oweRecord p.2 c (p.2.uni a.toNat)) c (p.2.uni b.toNat)
      ((p.1.gdepOp c.agent c.gallery p.2.priv (p.2.uni a.toNat) (p.2.uni b.toNat) (sReg a.toNat) (sReg b.toNat)).after
        ((p.1.noteRecord p.2 c (p.2.uni a.toNat)).noteRecord p.2 c (p.2.uni b.toNat)) t).bind (fun s1 => .ok (s1.finish s.focus t c e 4)))
    s

/-! ## The end of a node (R345, R346) -/

/-- The completion status after DONE: 56 bytes. -/
def Prod.statusBytes (p : Prod) : List Byte :=
  let f (n : Nat) : Nat := (p.first.getD n 0).toNat
  leBytes 8 p.unhandled ++ leBytes 8 (f 2) ++ leBytes 8 (f 3) ++ leBytes 4 (f 0) ++ leBytes 2 (f 1) ++ leBytes 2 0 ++
    leBytes 8 p.engFaults ++ leBytes 8 p.engFirst.toNat ++ leBytes 8 0

/-- The completion status is written, DONE last; a failing write is logged and dropped (R346). -/
def State.writeStatus (s : State) (p : Prod) : State :=
  match s.reachHw p.gallery (BitVec.ofNat 64 p.saveArea) 64 .rmw with
  | some (s1, l) => (s1.writeAt (l.plus 8) p.statusBytes).writeAt l (leBytes 8 1)
  | none => s.log logCurator 0 5 p.gallery (recordDetail p.recAddr 0)

/-- PRED of each recorded successor falls, in list order (R345). -/
def State.releaseSuccessors (s : State) (gi succ : Nat) : List Nat → State
  | [] => s
  | i :: rest =>
    let s1 : State := match s.reachHw gi (BitVec.ofNat 64 (succ + 8 * i)) 8 .read with
      | none => s
      | some (s1, l) =>
        let x := s1.get curatorAgent l 8
        let a : DWord := BitVec.ofNat 64 x.x &&& 0x7FFF_FFFF_FFFF_FFFF
        match x.s.reachHw gi a 128 .rmw with
        | none => x.s
        | some (s2, r) => s2.dropPred curatorAgent gi a r (s2.value (r.plus 0x7E) 1)
    s1.releaseSuccessors gi succ rest

/-- A node finishes: completion status, STATE 5 with NSUCC read at the same key, and its successors (R345). -/
def State.finishNode (s : State) (n : Nat) : State :=
  match tfind s.prods n with
  | none => s
  | some p =>
    let s1 := s.writeStatus p
    let s2 := { s1 with
      prods := tdel s1.prods n
      casts := s1.casts.filter (fun c => c.2.prod != n)
      gals := tmod s1.gals p.gallery (fun g => { g with cur := g.cur.filter (fun c => c.1 / 65536 != n) }) }
    match s2.reachHw p.gallery p.recAddr 128 .rmw with
    | none => s2
    | some (s3, l) =>
      let nsucc := s3.value (l.plus 0x7A) 2
      let succ := s3.value (l.plus 0x70) 8
      (s3.writeAt (l.plus 0x7E) (leBytes 1 5)).releaseSuccessors p.gallery succ (List.range nsucc)

/-! ## Grid barriers (R371, R372) -/

/-- A grid barrier at launch: every company a member. -/
def Grid.initial (comp : Nat) : Grid := ⟨BitVec.ofNat 64 (2 ^ comp - 1), 0, 0, []⟩
/-- Barrier n of a production. -/
def Prod.grid (p : Prod) (n : Nat) : Grid := (tfind p.grids n).getD (Grid.initial p.comp)

/-- The company of a cast (R346). -/
def Prod.companyOf (p : Prod) (gidx : Nat) : Nat := gidx / (p.epc * p.cpe)

/-- The threads of a cast that are not Exited, whether it is admitted or not (R372). -/
def State.liveThreads (s : State) (n gidx ntid : Nat) : Nat :=
  match s.cast (castKey n gidx) with
  | none => ntid
  | some c =>
    match c.res with
    | .ended => 0
    | .core _ | .kept _ => ((s.castThreads (castKey n gidx)).filter (fun p => !decide (p.2.run = .exited))).length
    | .waking _ | .off | .available => c.live

/-- The target of a company (R372). -/
def State.target (s : State) (n : Nat) (p : Prod) (k : Nat) : Nat :=
  ((List.range (p.epc * p.cpe)).map (fun i => s.liveThreads n (k * (p.epc * p.cpe) + i) p.ntid)).foldl (· + ·) 0

/-- The release check (R372). -/
def Grid.check (g : Grid) : Grid :=
  if g.member ≠ 0 ∧ g.member &&& ~~~g.arrive = 0 then ⟨g.member, 0, g.phase + 1, []⟩ else g

/-- An arrival of a company's thread. -/
def Grid.arriveAt (g : Grid) (k target : Nat) : Grid :=
  let n := tget g.locals k 0 + 1
  let g1 := { g with locals := tput g.locals k n }
  (if n = target then { g1 with arrive := putBit g1.arrive k true } else g1).check

/-- The barrier after exits of a company's threads: an emptied company leaves MEMBER; a lowered target may be met. -/
def Grid.exits (g : Grid) (k target : Nat) : Grid :=
  if !g.member.getLsbD k then g
  else if target = 0 then ({ g with member := putBit g.member k false } : Grid).check
  else if tget g.locals k 0 = target then ({ g with arrive := putBit g.arrive k true } : Grid).check
  else g

/-- A release of a barrier orders what its production does from now on after all that it has done: the cores that hold its
casts, and its casts that are on none, take a timestamp above all of theirs (R372, R299). -/
def State.orderRelease (s : State) (n : Nat) : State :=
  let mine := s.casts.filter (fun p => p.2.prod == n)
  let ks := mine.filterMap (fun p => p.2.coreNo)
  let top := ((ks.map s.pts) ++ mine.map (fun p => p.2.lastT)).foldl Nat.max 0 + 1
  ks.foldl (fun (z : State) k => z.putPts k top)
    { s with casts := tmap s.casts (fun _ c => if c.prod = n ∧ c.coreNo.isNone then { c with lastT := top } else c) }

/-- The barriers of a production change; a phase that moves is a release. -/
def State.putGrids (s : State) (n : Nat) (p : Prod) (grids : Tab Grid) : State :=
  let q := { p with grids := grids }
  let s1 := { s with prods := tput s.prods n q }
  if (List.range 4).any (fun b => decide ((q.grid b).phase ≠ (p.grid b).phase)) then s1.orderRelease n else s1

/-- Every barrier of a production after exits. -/
def State.gridExits (s : State) (n : Nat) (p : Prod) : State :=
  let targets := (List.range p.comp).map (fun k => (k, s.target n p k))
  let grids := (List.range 4).foldl (fun (gs : Tab Grid) b =>
    let g := (tfind gs b).getD (Grid.initial p.comp)
    let g' := targets.foldl (fun (x : Grid) kt => x.exits kt.1 kt.2) g
    if g' = g then gs else tput gs b g') p.grids
  if grids = p.grids then s else s.putGrids n p grids

/-- The hold of a GBAR ends where the phase is no longer the one that the thread read (R372). -/
def State.pollGbar (s : State) (tk : Nat) : State :=
  match s.thread tk, s.cast (castOf tk) with
  | some t, some c =>
    match t.held, tfind s.prods c.prod with
    | some (.gbar d num phase e), some p =>
      if (p.grid num).phase = phase then s
      else
        s.finish tk { t.putUni d (phase.setWidth 64) with held := none, gbarAt := none } c e 4
    | _, _ => s
  | _, _ => s

/-- GBAR (R372). -/
def execGbar (e : Bool) (d a : BitVec 5) (s : State) : Out :=
  issue anyPriv (fun _ => [sReg d.toNat, sReg a.toNat])
    (fun t0 c =>
      let ch := s.charge t0 [a.toNat]
      let s0 := ch.1
      let t := ch.2
      let desc := (t.uni a.toNat).toNat
      let num := desc % 4
      match tfind s0.prods c.prod with
      | none => .fault .noSuchAddress
      | some p =>
        if fld desc 3 61 ≠ 0 then .trap (trapOf .illegal (BitVec.ofNat 64 (sReg a.toNat)))
        else
          let resumed := match t.gbarAt with
            | some (m, ph) => if m = num then some ph else none
            | none => none
          match resumed with
          | some ph =>
            .ok ((s0.putT s.focus { t with held := some (.gbar d.toNat num ph e) }).pollGbar s.focus)
          | none =>
            let g := p.grid num
            let k := p.companyOf c.gidx
            let g' := g.arriveAt k (s0.target c.prod p k)
            let s1 := s0.putGrids c.prod p (tput p.grids num g')
            if bit desc 2 then .ok (s1.finish s.focus (t.putUni d.toNat (g.phase.setWidth 64)) c e 4)
            else
              .ok ((s1.putT s.focus
                { t with held := some (.gbar d.toNat num g.phase e), gbarAt := some (num, g.phase) }).pollGbar s.focus))
    s

end Sys2Proof.Machine
end

