-- ==== Sys2Proof/Machine/Fresh.lean ====
section
/-! DEFINITION. What comes into being: a gallery at creation (18_package_galleries.md R377, R379), a cast and its threads
at admission (03_thread_execution.md R59; 16_package_launch_power.md R344), and the scene that a test places. -/
namespace Sys2Proof.Machine

/-- A stub page that nothing was written to (R421). -/
def Stub.initial : Stub := ⟨0, 0, 0, 0, 0, 0, 0⟩

/-- A gallery on some physical tiles, before the curator lays out its memory. -/
def Gallery.fresh (tiles : List Nat) (protect debug : Bool) (draw : Nat) : Gallery :=
  { tiles := tiles, protect := protect, debug := debug, fpgen := 1, names := 0, state := .opened,
    groot := 0, ntbase := 0, stbase := 0, fpbase := 0, snapres := 0,
    grootW := 0, ntbaseW := 0, stbaseW := 0, fpbaseW := 0, snapresW := 0, pend := false,
    under := [], ready := [], channels := [], snap := none, snapOwed := [], imaged := 0, plan := [], mailbox := [],
    sc := 0, cur := [], vers := [], keyDraw := draw, group := none, comms := [], seqs := [],
    tdi := .unlocked, session := false, ide := [], stub := Stub.initial, inbox := [], request := none, deferred := [] }

/-- TICKS that SLICE of a record selects (R342, R363). -/
def sliceTicks (x : Nat) : Nat :=
  let n := fld x 0 31
  if n = 0 then 200000 else Nat.max 1000 n

/-- A cast of a node on a core as a launch sets it (R59, R195, R201, R217, R222, R240, R344). -/
def Cast.fresh (n gidx : Nat) (p : Prod) (res : Residence) (tick : Nat) : Cast :=
  { prod := n, gidx := gidx, gallery := p.gallery, res := res, ntid := p.ntid, vbud := p.vbud, sbud := p.sbud,
    spsize := recSpsize p.bytes, tvec := p.tvec &&& 0x00FF_FFFF_FFFF_FFFD, notify := bit p.slice 31,
    ticks := sliceTicks p.slice, rdvto := 100000, bpaddr := [], bpctl := [], wpaddr := [], wpctl := [], q := [],
    vt := [], curves := [], qmmas := 0, fq := [], amask := BitVec.ofNat 8 p.amask, cgrant := p.cgrant,
    energy := p.energy, current := p.current, charge := 0, prio := p.prio, sliceStart := tick, notified := none,
    stop := none, image := none, wage := 0, live := p.ntid, haltReq := false, views := [], lastT := 0, fetched := [], owedKeys := [] }

/-- The identity registers of a thread of a cast (R61, R213, R346). -/
def Ident.of (p : Prod) (gidx tid : Nat) : Ident :=
  { tid := BitVec.ofNat 11 tid
    ntid := BitVec.ofNat 12 p.ntid
    castid := BitVec.ofNat 2 (gidx % p.cpe)
    seat := BitVec.ofNat 5 (tid % 32)
    ensid := BitVec.ofNat 6 (gidx / p.cpe % p.epc)
    compid := BitVec.ofNat 6 (gidx / (p.cpe * p.epc)) }

/-- s0 to s31 of a thread at admission (R344). -/
def admittedUni (p : Prod) : Tab DWord :=
  (List.range 8).foldl (fun (u : Tab DWord) i =>
    tset u i (if i = 0 then handleOf p.recAddr else p.arg (i - 1)) 0) []

/-- TSTAT that holds nothing (R195). -/
def TStat.zero : TStat :=
  { fkind := 0, pendHalt := false, pendSlice := false, acc := 0, dist := 0, skip := false, nest := false,
    ppriv := .program }

/-- A thread as admission starts it, Filed at the entry's header (R59). -/
def Thread.fresh (p : Prod) (gidx tid tick : Nat) : Thread :=
  { pc := p.entry, v := [], u := admittedUni p, p := 0, k := [], priv := .program, run := .filed, fflags := 0, frm := 1,
    lodc := 0, ident := .of p gidx tid, pidx := 0, tcause := 0, tepc := 0, tval := 0, tstat := TStat.zero, tscratch := 0,
    step := false, hdr := p.entry, inScene := false, cueA := 15, cueB := 15, pfx := none, outst := [], held := none,
    haltDue := false, sliceDue := false, poison := none, kept := [], suppress := false, age := tick, filedAt := 0,
    waitOn := none, waitSince := 0, v2s := 0, sliceIn := false, haltIn := false, seen := [], fenceR := Key.zero,
    hostFrom := 0, hostLines := [], repFrom := 0, late := [], gbarAt := none }

/-- The threads of a cast at admission, in ascending TID order. -/
def State.putThreads (s : State) (ck gidx : Nat) (p : Prod) : List Nat → State
  | [] => s
  | tid :: rest =>
    (s.putT (thrKey ck tid) { Thread.fresh p gidx tid s.tick with hostFrom := s.hostCount }).putThreads ck gidx p rest

/-- Wing slots for a cast of a core: the lowest free numbers, NTID / 32 of them (R65). -/
def Core.giveSlots (c : Core) (ck now : Nat) (n : Nat) : Core :=
  let free := ((List.range Config.wingSlots).filter (fun i => (tfind c.slots i).isNone)).take n
  { c with slots := free.foldl (fun (xs : Tab Slot) i => tput xs i (Slot.empty ck now)) c.slots }

/-! ## A scene placed for one thread (log 2) -/

/-- The record of the placed production: one cast of 32 threads with every register, entry 0x1000. -/
def placedRecord : List Byte :=
  leBytes 8 0x1000 ++ leBytes 2 32 ++ [1, 1, 1, 0, 64, 32, 32, 2, 0xFF, 1] ++ List.replicate 84 0 ++ leBytes 8 0x10000 ++
    List.replicate 16 0

/-- The placed production, running in gallery 1. -/
def placedProd : Prod :=
  { Prod.made 1 .program 0x2000 placedRecord Key.zero with ready := true, started := true, bind := [(0, 0)] }

/-- The machine in which thread 0 of a cast on core 0 is about to execute the scene word w, with the word lit after it:
its chorus has fetched the scene and holds a lane; a header is passed as the scene's first word. -/
def State.placeScene (s : State) (w lit : Nat) : State :=
  let n := s.nextProd
  let ck := castKey n 0
  let word : Word := BitVec.ofNat 32 w
  let header := isHeader word
  let words : List Word := if header then [word, BitVec.ofNat 32 lit] else [0x8000_0FF0, word, BitVec.ofNat 32 lit]
  let pc : DWord := if header then 0x1000 else 0x1004
  let t := { Thread.fresh placedProd 0 0 s.tick with
    hostFrom := s.hostCount, pc := pc, hdr := 0x1000, run := .member, inScene := !header }
  let x : Chorus :=
    { ck := ck, priv := .program, members := [0], hdr := 0x1000, words := words, pc := pc, todo := [0],
      phase := .running, lane := some 0, age := s.tick, since := 0, slot := 0, sub := false, draw := s.free, lag := 0 }
  let core := (s.core 0).giveSlots ck 0 1
  { s with
    agenda := [.pass 0 core.nextChorus]
    focus := thrKey ck 0
    free := s.free + 1
    nextProd := n + 1
    gals := tput s.gals 1 (Gallery.fresh [0] false false 0)
    prods := tput s.prods n placedProd
    casts := tput s.casts ck (Cast.fresh n 0 placedProd (.core 0) s.tick)
    threads := tput s.threads (thrKey ck 0) t
    cores := tput s.cores 0 { core with
      gated := false, splitR := 32, splitS := 2
      chorus := tput core.chorus core.nextChorus x
      nextChorus := core.nextChorus + 1 } }

end Sys2Proof.Machine
end

