-- ==== Sys2Proof/Machine/Bulk.lean ====
section
/-! DEFINITION. Ranges of global memory that hardware reads and writes line by line (cast images, sealed records, snapshot
areas, engine ranges), and the check of their pages (15_die_engines_refresh.md R323; 07_thread_memory_traps.md R187). -/
namespace Sys2Proof.Machine

/-- The bytes of a range that lie in the line of its first byte. -/
def lineLen (a n : Nat) : Nat := Nat.min n (128 - a % 128)

/-- A range read line by line, each line at one key by an agent; whether some line was uncorrectable. -/
def State.readRange (gi : Nat) (priv : Priv) (agent : Nat) :
    Nat → Nat → Nat → State → Res (State × List Byte × Bool)
  | 0, _, _, s => .ok (s, [], false)
  | f + 1, a, n, s =>
    if n = 0 then .ok (s, [], false)
    else
      let k := lineLen a n
      (s.reach agent gi priv (BitVec.ofNat 64 a) 1 .read).bind (fun (s1, l) =>
        let r := s1.get agent l k
        (State.readRange gi priv agent f (a + k) (n - k) r.s).bind (fun (s2, rest, bad2) =>
          .ok (s2, leBytes k r.x ++ rest, r.bad || bad2)))

/-- A range written line by line, each line at one key by an agent. -/
def State.writeRange (gi : Nat) (priv : Priv) (agent : Nat) : Nat → Nat → List Byte → State → Res State
  | 0, _, _, s => .ok s
  | f + 1, a, bs, s =>
    if bs.isEmpty then .ok s
    else
      let k := lineLen a bs.length
      (s.reach agent gi priv (BitVec.ofNat 64 a) 1 .write).bind (fun (s1, l) =>
        (s1.snapGuard l).bind (fun s2 =>
          State.writeRange gi priv agent f (a + k) (bs.drop k) (((s2.put agent l (bs.take k)).1).lineState l k false)))

/-- Lines of n bytes, for the recursions above. -/
def lineFuel (n : Nat) : Nat := n / 128 + 2

def State.readBulk (s : State) (gi : Nat) (priv : Priv) (agent : Nat) (a : DWord) (n : Nat) :
    Res (State × List Byte × Bool) := State.readRange gi priv agent (lineFuel n) a.toNat n s
def State.writeBulk (s : State) (gi : Nat) (priv : Priv) (agent : Nat) (a : DWord) (bs : List Byte) : Res State :=
  State.writeRange gi priv agent (lineFuel bs.length) a.toNat bs s

/-- What the walk of a range's pages finds: each page with its first address, or the first that fails. -/
inductive Pages where
  | ok (ps : List (Nat × Xlat))
  | fail (a fk : Nat)
  | off
  deriving DecidableEq, Repr

/-- The pages of n bytes from an address on, in ascending order. -/
def pagesFrom (m : List Host.Cell) (gi : Nat) (g : Gallery) (priv : Priv) (k : Acc) : Nat → Nat → Nat → Pages
  | 0, _, _ => .ok []
  | f + 1, a, n =>
    if n = 0 then .ok []
    else
      match translate m gi g (BitVec.ofNat 64 a) priv k with
      | .fail fk => .fail a fk
      | .off => .off
      | .ok x =>
        let step := 2 ^ x.bits - a % 2 ^ x.bits
        match pagesFrom m gi g priv k f (a + step) (n - step) with
        | .ok ps => .ok ((a / 2 ^ x.bits * 2 ^ x.bits, x) :: ps)
        | r => r

def State.pages (s : State) (gi : Nat) (g : Gallery) (priv : Priv) (k : Acc) (a n : Nat) : Pages :=
  pagesFrom s.readable gi g priv k (n / 65536 + 2) a n

end Sys2Proof.Machine
end

