-- ==== Sys2Proof/Machine/Crypto.lean ====
section
/-! DEFINITION. The algorithms that sealing names (20_package_protection.md R402, R404, R406, R407): SHA-2, HMAC, HKDF,
AES-256, XTS and CMAC, as their public standards define them. -/
namespace Sys2Proof.Machine

/-! ## SHA-2 -/

/-- The round constants of SHA-512: 64 bits of the cube roots of the first 80 primes. -/
def shaK : List (BitVec 64) :=
  [0x428A2F98D728AE22, 0x7137449123EF65CD, 0xB5C0FBCFEC4D3B2F, 0xE9B5DBA58189DBBC,
    0x3956C25BF348B538, 0x59F111F1B605D019, 0x923F82A4AF194F9B, 0xAB1C5ED5DA6D8118] ++
  [0xD807AA98A3030242, 0x12835B0145706FBE, 0x243185BE4EE4B28C, 0x550C7DC3D5FFB4E2,
    0x72BE5D74F27B896F, 0x80DEB1FE3B1696B1, 0x9BDC06A725C71235, 0xC19BF174CF692694] ++
  [0xE49B69C19EF14AD2, 0xEFBE4786384F25E3, 0x0FC19DC68B8CD5B5, 0x240CA1CC77AC9C65,
    0x2DE92C6F592B0275, 0x4A7484AA6EA6E483, 0x5CB0A9DCBD41FBD4, 0x76F988DA831153B5] ++
  [0x983E5152EE66DFAB, 0xA831C66D2DB43210, 0xB00327C898FB213F, 0xBF597FC7BEEF0EE4,
    0xC6E00BF33DA88FC2, 0xD5A79147930AA725, 0x06CA6351E003826F, 0x142929670A0E6E70] ++
  [0x27B70A8546D22FFC, 0x2E1B21385C26C926, 0x4D2C6DFC5AC42AED, 0x53380D139D95B3DF,
    0x650A73548BAF63DE, 0x766A0ABB3C77B2A8, 0x81C2C92E47EDAEE6, 0x92722C851482353B] ++
  [0xA2BFE8A14CF10364, 0xA81A664BBC423001, 0xC24B8B70D0F89791, 0xC76C51A30654BE30,
    0xD192E819D6EF5218, 0xD69906245565A910, 0xF40E35855771202A, 0x106AA07032BBD1B8] ++
  [0x19A4C116B8D2D0C8, 0x1E376C085141AB53, 0x2748774CDF8EEB99, 0x34B0BCB5E19B48A8,
    0x391C0CB3C5C95A63, 0x4ED8AA4AE3418ACB, 0x5B9CCA4F7763E373, 0x682E6FF3D6B2B8A3] ++
  [0x748F82EE5DEFB2FC, 0x78A5636F43172F60, 0x84C87814A1F0AB72, 0x8CC702081A6439EC,
    0x90BEFFFA23631E28, 0xA4506CEBDE82BDE9, 0xBEF9A3F7B2C67915, 0xC67178F2E372532B] ++
  [0xCA273ECEEA26619C, 0xD186B8C721C0C207, 0xEADA7DD6CDE0EB1E, 0xF57D4F7FEE6ED178,
    0x06F067AA72176FBA, 0x0A637DC5A2C898A6, 0x113F9804BEF90DAE, 0x1B710B35131C471B] ++
  [0x28DB77F523047D84, 0x32CAAB7B40C72493, 0x3C9EBE0A15C9BEBC, 0x431D67C49C100D4C,
    0x4CC5D4BECB3E42B6, 0x597F299CFC657E2A, 0x5FCB6FAB3AD6FAEC, 0x6C44198C4A475817]

/-- 64 bits of the square roots of the first 16 primes: initial words of SHA-512, then of SHA-384. -/
def shaRoots : List (BitVec 64) :=
  [0x6A09E667F3BCC908, 0xBB67AE8584CAA73B, 0x3C6EF372FE94F82B, 0xA54FF53A5F1D36F1,
    0x510E527FADE682D1, 0x9B05688C2B3E6C1F, 0x1F83D9ABFB41BD6B, 0x5BE0CD19137E2179] ++
  [0xCBBB9D5DC1059ED8, 0x629A292A367CD507, 0x9159015A3070DD17, 0x152FECD8F70E5939,
    0x67332667FFC00B31, 0x8EB44A8768581511, 0xDB0C2E0D64F98FA7, 0x47B5481DBEFA4FA4]

/-- The rotations of one SHA-2 function: upper sums, lower sums, and the shifts of the latter. -/
structure ShaRot where
  a : Nat × Nat × Nat
  e : Nat × Nat × Nat
  s : Nat × Nat × Nat
  t : Nat × Nat × Nat

def shaRot256 : ShaRot := ⟨(2, 13, 22), (6, 11, 25), (7, 18, 3), (17, 19, 10)⟩
def shaRot512 : ShaRot := ⟨(28, 34, 39), (14, 18, 41), (1, 8, 7), (19, 61, 6)⟩

/-- Three rotations summed. -/
def rot3 {w : Nat} (r : Nat × Nat × Nat) (x : BitVec w) : BitVec w :=
  x.rotateRight r.1 ^^^ x.rotateRight r.2.1 ^^^ x.rotateRight r.2.2
/-- Two rotations and a shift summed. -/
def rot2 {w : Nat} (r : Nat × Nat × Nat) (x : BitVec w) : BitVec w :=
  x.rotateRight r.1 ^^^ x.rotateRight r.2.1 ^^^ (x >>> r.2.2)

/-- The message schedule: n more words, the last 16 in front, newest first. -/
def shaSchedule {w : Nat} (r : ShaRot) : Nat → List (BitVec w) → List (BitVec w)
  | 0, ws => ws.reverse
  | n + 1, ws =>
    let x := rot2 r.t (ws.getD 1 0) + ws.getD 6 0 + rot2 r.s (ws.getD 14 0) + ws.getD 15 0
    shaSchedule r n (x :: ws)

/-- One round on the eight working words. -/
def shaRound {w : Nat} (r : ShaRot) (h : List (BitVec w)) (kw : BitVec w × BitVec w) : List (BitVec w) :=
  let v (i : Nat) : BitVec w := h.getD i 0
  let ch := (v 4 &&& v 5) ^^^ (~~~(v 4) &&& v 6)
  let maj := (v 0 &&& v 1) ^^^ (v 0 &&& v 2) ^^^ (v 1 &&& v 2)
  let t1 := v 7 + rot3 r.e (v 4) + ch + kw.1 + kw.2
  let t2 := rot3 r.a (v 0) + maj
  [t1 + t2, v 0, v 1, v 2, v 3 + t1, v 4, v 5, v 6]

/-- A word from big-endian bytes, and back. -/
def beWord {w : Nat} (bs : List Byte) : BitVec w := BitVec.ofNat w (leNat bs.reverse)
def beBytes (n x : Nat) : List Byte := (leBytes n x).reverse

/-- The list in groups of k + 1, n groups at most. -/
def groups {α : Type} (k : Nat) : Nat → List α → List (List α)
  | 0, _ => []
  | n + 1, xs => if xs.isEmpty then [] else xs.take (k + 1) :: groups k n (xs.drop (k + 1))

/-- One block of 16 words. -/
def shaBlock {w : Nat} (r : ShaRot) (ks : List (BitVec w)) (h : List (BitVec w)) (block : List Byte) : List (BitVec w) :=
  let ws : List (BitVec w) := (groups (w / 8 - 1) 16 block).map beWord
  let all := shaSchedule r (ks.length - 16) ws.reverse
  let out := (ks.zip all).foldl (shaRound r) h
  (h.zip out).map (fun p => p.1 + p.2)

/-- A SHA-2 digest with words of w bits. -/
def sha2 {w : Nat} (r : ShaRot) (ks h0 : List (BitVec w)) (msg : List Byte) : List Byte :=
  let blk := 2 * w
  let pad := (2 * blk - 1 - (msg.length + w / 4) % blk) % blk
  let full := msg ++ [0x80] ++ List.replicate pad 0 ++ beBytes (w / 4) (8 * msg.length)
  let h := (groups (blk - 1) (full.length / blk) full).foldl (shaBlock r ks) h0
  h.flatMap (fun x => beBytes (w / 8) x.toNat)

def sha256 (msg : List Byte) : List Byte :=
  sha2 shaRot256 ((shaK.take 64).map (fun (x : BitVec 64) => (x >>> 32).setWidth 32))
    ((shaRoots.take 8).map (fun (x : BitVec 64) => (x >>> 32).setWidth 32)) msg
def sha384 (msg : List Byte) : List Byte := (sha2 shaRot512 shaK (shaRoots.drop 8) msg).take 48

/-- HMAC with a hash of a block size. -/
def hmac (hash : List Byte → List Byte) (blk : Nat) (key msg : List Byte) : List Byte :=
  let k0 := if blk < key.length then hash key else key
  let k := k0 ++ List.replicate (blk - k0.length) 0
  hash (k.map (· ^^^ 0x5C) ++ hash (k.map (· ^^^ 0x36) ++ msg))
def hmac256 : List Byte → List Byte → List Byte := hmac sha256 64
def hmac384 : List Byte → List Byte → List Byte := hmac sha384 128

/-- n blocks of HKDF's expansion. -/
def hkdfExpand (prk info : List Byte) : Nat → Nat → List Byte → List Byte
  | 0, _, _ => []
  | n + 1, i, last =>
    let t := hmac384 prk (last ++ info ++ [BitVec.ofNat 8 i])
    t ++ hkdfExpand prk info n (i + 1) t
/-- 96 bytes of HKDF-SHA-384 without a salt. -/
def hkdf (ikm info : List Byte) : List Byte := hkdfExpand (hmac384 (List.replicate 48 0) ikm) info 2 1 []

/-! ## AES-256 -/

def xtime (a : Byte) : Byte := if a.msb then (a <<< 1) ^^^ 0x1B else a <<< 1
/-- The product in the field of AES. -/
def gmul (a b : Byte) : Byte :=
  ((List.range 8).foldl (fun (p : Byte × Byte) i => (if b.getLsbD i then p.1 ^^^ p.2 else p.1, xtime p.2)) (0, a)).1
/-- The power 254: the inverse, and 0 for 0. -/
def ginv (a : Byte) : Byte :=
  ((List.range 7).foldl (fun (p : Byte × Byte) _ => let q := gmul p.2 p.2; (gmul p.1 q, q)) (1, a)).1
def sbox (a : Byte) : Byte :=
  let b := ginv a
  b ^^^ b.rotateLeft 1 ^^^ b.rotateLeft 2 ^^^ b.rotateLeft 3 ^^^ b.rotateLeft 4 ^^^ 0x63
def sboxInv (a : Byte) : Byte := ginv (a.rotateLeft 1 ^^^ a.rotateLeft 3 ^^^ a.rotateLeft 6 ^^^ 0x05)

def xorBytes (a b : List Byte) : List Byte := (a.zip b).map (fun p => p.1 ^^^ p.2)

/-- n more words of the key schedule, newest first, from word i on; rc is the round constant. -/
def keyWords : Nat → Nat → Byte → List (List Byte) → List (List Byte)
  | 0, _, _, ws => ws.reverse
  | n + 1, i, rc, ws =>
    let last := ws.getD 0 []
    let t :=
      if i % 8 = 0 then xorBytes ((last.drop 1 ++ last.take 1).map sbox) [rc, 0, 0, 0]
      else if i % 8 = 4 then last.map sbox else last
    keyWords n (i + 1) (if i % 8 = 0 then xtime rc else rc) (xorBytes (ws.getD 7 []) t :: ws)
/-- The 15 round keys. -/
def roundKeys (key : List Byte) : List (List Byte) :=
  (groups 3 15 (keyWords 52 8 1 (groups 3 8 key).reverse)).map List.flatten

/-- Bytes of the block from columns shifted by row. -/
def shiftRows (d : Nat) (x : List Byte) : List Byte :=
  (List.range 16).map (fun i => x.getD (i % 4 + 4 * ((i / 4 + d * (i % 4)) % 4)) 0)
/-- The columns multiplied by a circulant matrix. -/
def mixColumns (m : List Byte) (x : List Byte) : List Byte :=
  (List.range 16).map (fun i =>
    (List.range 4).foldl (fun (z : Byte) j => z ^^^ gmul (m.getD ((j + 4 - i % 4) % 4) 0) (x.getD (i / 4 * 4 + j) 0)) 0)

/-- AES-256 of one block with its round keys, and back. -/
def aesEnc (ks : List (List Byte)) (x : List Byte) : List Byte :=
  let y := ((ks.drop 1).take 13).foldl (fun (z : List Byte) k =>
    xorBytes (mixColumns [2, 3, 1, 1] (shiftRows 1 (z.map sbox))) k) (xorBytes x (ks.getD 0 []))
  xorBytes (shiftRows 1 (y.map sbox)) (ks.getD 14 [])
def aesDec (ks : List (List Byte)) (x : List Byte) : List Byte :=
  let y := (((ks.drop 1).take 13).reverse).foldl (fun (z : List Byte) k =>
    mixColumns [14, 11, 13, 9] (xorBytes ((shiftRows 3 z).map sboxInv) k)) (xorBytes x (ks.getD 14 []))
  xorBytes ((shiftRows 3 y).map sboxInv) (ks.getD 0 [])

/-- The next tweak of XTS. -/
def xtsNext (t : List Byte) : List Byte :=
  let n := 2 * leNat t
  leBytes 16 (if n < 2 ^ 128 then n else n ^^^ 0x87)
/-- XTS over the blocks of one data unit. -/
def xtsBlocks (f : List Byte → List Byte) : List Byte → List (List Byte) → List Byte
  | _, [] => []
  | t, b :: rest => xorBytes (f (xorBytes b t)) t ++ xtsBlocks f (xtsNext t) rest
/-- A data unit under two keys and a 16-byte tweak. -/
def xtsUnit (dec : Bool) (k1 k2 : List (List Byte)) (tweak data : List Byte) : List Byte :=
  xtsBlocks (if dec then aesDec k1 else aesEnc k1) (aesEnc k2 tweak) (groups 15 (data.length / 16) data)
/-- Data units of 128 bytes, each under its own tweak. -/
def xts (dec : Bool) (keys : List Byte) (tweak : Nat → List Byte) (data : List Byte) : List Byte :=
  let k1 := roundKeys (keys.take 32)
  let k2 := roundKeys ((keys.drop 32).take 32)
  ((groups 127 (data.length / 128) data).zipIdx).flatMap (fun p => xtsUnit dec k1 k2 (tweak p.2) p.1)

/-- Doubling in the field of CMAC, big-endian. -/
def cmacDouble (x : List Byte) : List Byte :=
  let n := 2 * leNat x.reverse
  beBytes 16 (if n < 2 ^ 128 then n else n ^^^ 0x87)
/-- CMAC of a message under an AES-256 key. -/
def cmac (key msg : List Byte) : List Byte :=
  let ks := roundKeys key
  let k1 := cmacDouble (aesEnc ks (List.replicate 16 0))
  let bs := groups 15 (msg.length / 16 + 1) msg
  let last := bs.getD (bs.length - 1) []
  let tail := if last.length = 16 then xorBytes last k1
    else xorBytes (last ++ [0x80] ++ List.replicate (15 - last.length) 0) (cmacDouble k1)
  aesEnc ks (xorBytes ((bs.dropLast).foldl (fun (z : List Byte) b => aesEnc ks (xorBytes z b)) (List.replicate 16 0)) tail)

end Sys2Proof.Machine
end

