-- ==== Sys2Proof/Machine/Names.lean ====
section
/-! DEFINITION. Good cores, logical names and the floor plan (18_package_galleries.md R380 to R386; 20_package_protection.md
R411). -/
namespace Sys2Proof.Machine

/-- The power region of a cluster: two cluster columns of a tile (R14, R382). -/
def regionOf (cluster : Nat) : Nat := cluster / 40 * 4 + cluster % 40 % 8 / 2

/-- The core can compute: its region is good and its compute is on (R380). -/
def State.coreGood (s : State) (k : Nat) : Bool :=
  s.dev.good.contains (regionOf (clusterOf k)) && !(s.core k).routerOnly

/-- The named cores of a position's tile, ascending. -/
def State.tileCores (s : State) (tile : Nat) : List Nat :=
  ((List.range 160).map (tile * 160 + ·)).filter s.coreGood

/-- The cores of a gallery in the order of their names (R382). -/
def State.namedCores (s : State) (g : Gallery) : List Nat := g.tiles.flatMap s.tileCores

/-- The name table written for a gallery's good cores; names at or above the new count read zero up to the old count. -/
def State.writeNames (s : State) (gi : Nat) : State :=
  match s.gal gi with
  | none => s
  | some g =>
    let ks := s.namedCores g
    let m := (ks.zipIdx).foldl (fun m p => setNum m (Loc.dram gi (g.ntbase.toNat + 8 * p.2)).cell 8 (nameEntry p.1))
      (clearCells s.mem (Loc.dram gi g.ntbase.toNat).cell (8 * Nat.max g.names ks.length))
    { s with mem := m }.putG gi { g with names := ks.length }

/-- A position entry of the floor plan (R385). -/
def State.planEntry (s : State) (tile first : Nat) : List Byte :=
  let ks := s.tileCores tile
  let regions := (List.range 4).foldl (fun n r => if s.dev.good.contains (tile * 4 + r) then n + 2 ^ r else n) 0
  let mask := ks.foldl (fun n k => n + 2 ^ (k % 160)) 0
  leBytes 1 tile ++ leBytes 1 regions ++ leBytes 2 ks.length ++ leBytes 4 first ++ leBytes 20 mask ++ leBytes 4 0

/-- The position entries from a first name on. -/
def State.planEntries (s : State) : List Nat → Nat → List Byte
  | [], _ => []
  | t :: rest, first => s.planEntry t first ++ s.planEntries rest (first + (s.tileCores t).length)

/-- The floor plan of a gallery (R385). -/
def State.floorPlan (s : State) (gi : Nat) (g : Gallery) : List Byte :=
  let flags := if g.protect then (if g.debug then 3 else 1) else 0
  leBytes 4 0x4E41_4C50 ++ leBytes 2 1 ++ leBytes 1 gi ++ leBytes 1 g.tiles.length ++ leBytes 8 g.fpgen ++
    leBytes 4 g.names ++ leBytes 4 flags ++ leBytes 8 g.memSize ++ leBytes 8 g.wsSize ++ leBytes 8 s.tick ++
    List.replicate 16 0 ++ s.planEntries g.tiles 0

/-- The signature block over bytes (R411): key 0 signs RSA-3072, key 1 SLH-DSA-SHA2-192s. -/
def signatureBlock (bs : List Byte) : List Byte :=
  let fit (n : Nat) (x : List Byte) : List Byte := (x ++ List.replicate n 0).take n
  leBytes 4 16624 ++ List.replicate 12 0 ++ fit 384 (Config.signature 0 bs) ++ fit 16224 (Config.signature 1 bs)

/-- The floor plan and its signatures written at FPBASE, and kept by the curator (R385, R411). -/
def State.writePlan (s : State) (gi : Nat) : State :=
  match s.gal gi with
  | none => s
  | some g =>
    let bs := s.floorPlan gi g
    { s with mem := setBytes s.mem (Loc.dram gi g.fpbase.toNat).cell (bs ++ signatureBlock bs) }.putG gi
      { g with plan := bs }

end Sys2Proof.Machine
end

