-- ==== Sys2Proof/Machine/Engine.lean ====
section
/-! DEFINITION. Engine operations (15_die_engines_refresh.md R322 to R334, R438; 14_die_memory_order.md R308, R309;
20_package_protection.md R406; 22_fabric_host.md R429 to R433): COPY, GATHER, SCATTER, COLL, PUBLISH and copy nodes. An
operation reads source lines and writes destination lines one by one, in any order, each whole at one key. -/
namespace Sys2Proof.Machine

/-! ## Fields -/

/-- 0 COPY, 1 GATHER, 2 SCATTER, 3 COLL. -/
def EngOp.kind (o : EngOp) : Nat := if fld o.word.toNat 24 6 = 0x1E then 3 else fld o.word.toNat 0 9
def EngOp.ctl (o : EngOp) : Nat := o.sb.toNat
/-- SEAL of a COPY (R406). -/
def EngOp.seal (o : EngOp) : Nat := if o.kind = 0 then fld o.ctl 32 2 else 0
/-- Destination and source space: 0 global, 1 scratchpad, 2 weight store (R327). -/
def EngOp.dsp (o : EngOp) : Nat := if o.kind = 3 then 0 else fld o.ctl 38 2
def EngOp.ssp (o : EngOp) : Nat := if o.kind = 3 then 0 else fld o.ctl 36 2
/-- Fields of a COLL control word (R429). -/
def EngOp.comm (o : EngOp) : Nat := fld o.ctl 48 8
def EngOp.collOp (o : EngOp) : Nat := fld o.ctl 44 4
def EngOp.collType (o : EngOp) : Nat := fld o.ctl 41 3
def EngOp.root (o : EngOp) : Nat := fld o.ctl 28 12
/-- Bytes of an element; a COPY moves elements of 16. -/
def EngOp.size (o : EngOp) : Nat :=
  match o.kind with
  | 0 => 16
  | 3 => (match o.collType with
    | 0 => 4
    | 1 => 4
    | 2 => 2
    | _ => 8)
  | _ => (match fld o.ctl 34 2 with
    | 0 => 4
    | 1 => 8
    | 2 => 16
    | _ => 128)
/-- Elements of the source of one rank, or of the operation. -/
def EngOp.count (o : EngOp) : Nat :=
  match o.kind with
  | 0 => fld o.ctl 0 32 / 16
  | 3 => fld o.ctl 0 28
  | _ => fld o.ctl 0 24
/-- Elements of the destination, with P ranks (R430); of an unsealed page, those of 64 KiB (R406). -/
def EngOp.items (o : EngOp) (P : Nat) : Nat :=
  if o.seal = 2 then 4096
  else if o.kind = 3 then
    (match o.collOp with
    | 3 => P * o.count
    | 5 => o.count / P
    | _ => o.count)
  else o.count
/-- An element's address comes from the index list. -/
def EngOp.indexed (o : EngOp) : Bool := o.kind == 1 || o.kind == 2

/-- The production that an operation runs for. -/
def EngOp.prod (o : EngOp) : Nat := o.node.getD (o.ck / 65536)
/-- The agent of an operation's accesses (R297). -/
def EngOp.agent (o : EngOp) : Nat := engineAgent o.cluster

/-- The contiguous ranges: space, address, bytes, written (R323). -/
def EngOp.ranges (o : EngOp) (P : Nat) : List (Nat × Nat × Nat × Bool) :=
  let n := o.count * o.size
  match o.kind with
  | 0 =>
    (match o.seal with
    | 0 => [(o.dsp, o.sd.toNat, n, true), (o.ssp, o.sa.toNat, n, false)]
    | 1 => [(0, o.sd.toNat, sealedLen, true), (0, o.sa.toNat, 65536, false)]
    | _ => [(0, o.sd.toNat, 65536, true), (0, o.sa.toNat, sealedLen, false)])
  | 1 => [(o.dsp, o.sd.toNat, n, true), (0, o.sa1.toNat, 4 * o.count, false)]
  | 2 => [(o.ssp, o.sa.toNat, n, false), (0, o.sa1.toNat, 4 * o.count, false)]
  | _ => [(0, o.sd.toNat, o.items P * o.size, true), (0, o.sa.toNat, n, false)]

/-! ## The checks of R323 -/

/-- ENGINE with a code and the address concerned (R324). -/
def engineTval (code a : Nat) : DWord := BitVec.ofNat 64 (code * 2 ^ 56 + a % 2 ^ 56)
def engineTrap (code a : Nat) : TrapInfo := trapOf .engine (engineTval code a)

/-- Step 1: PRIV. -/
def EngOp.privileged (o : EngOp) : Bool := o.kind != 3 && (o.dsp == 2 || o.seal != 0)

/-- Step 4: the control word by itself. -/
def EngOp.invalid (o : EngOp) (protect : Bool) : Bool :=
  match o.kind with
  | 0 => copyCtlBad protect o.ctl
  | 3 =>
    fld o.ctl 56 8 != 0 || bit o.ctl 40 || decide (5 < o.collOp) || decide (4 < o.collType) || o.count == 0 ||
      (o.collOp != 4 && o.root != 0)
  | _ => fld o.ctl 40 24 != 0 || fld o.ctl 24 10 != 0 || o.dsp == 3 || o.ssp == 3 || o.count == 0

/-- A leaf that is not one whole unframed 64 KiB page with P for an address (R406). -/
def notSealable (e bits a : Nat) : Bool :=
  bits != 16 || a % 65536 != 0 || !bit e 10 || bit e 11 || fld e 14 2 != 0

/-- The pages of a sealed COPY suit it, whatever they permit: the protected one is a whole page, the others are of host or
pool memory; what has no leaf is left to step 7. -/
def State.sealPages (s : State) (gi : Nat) (g : Gallery) (o : EngOp) : Bool :=
  let inner := (if o.seal = 1 then o.sa else o.sd).toNat
  let outer := (if o.seal = 1 then o.sd else o.sa).toNat
  (match walk s.readable gi g inner with
  | .leaf e _ bits _ => !notSealable e bits inner
  | _ => inner % 65536 == 0) &&
  ((List.range 3).map (fun i => Nat.max outer ((outer / 65536 + i) * 65536))).all (fun a =>
    decide (outer + sealedLen ≤ a) ||
      (match walk s.readable gi g a with
      | .leaf e _ _ _ => fld e 14 2 != 0
      | _ => true))

/-- The lower of two failing addresses. -/
def lowerFail (a b : Option (Nat × TrapInfo)) : Option (Nat × TrapInfo) :=
  match a, b with
  | some x, some y => if y.1 < x.1 then some y else some x
  | none, y => y
  | x, none => x

/-- Step 6: the first address outside a scratchpad or weight-store range. -/
def rangeFails (limit : Nat → Nat) : List (Nat × Nat × Nat × Bool) → Option (Nat × TrapInfo)
  | [] => none
  | (sp, a, n, _) :: rest =>
    let x := Nat.max a (limit sp)
    lowerFail (if sp ≠ 0 ∧ limit sp < a + n then some (x, trapOf .range (BitVec.ofNat 64 x)) else none)
      (rangeFails limit rest)

/-- Step 7: the first address whose page fails; none where every page passes, .off where one is nowhere. -/
def State.pageFails (s : State) (gi : Nat) (g : Gallery) (priv : Priv) :
    List (Nat × Nat × Nat × Bool) → Res (Option (Nat × TrapInfo))
  | [] => .ok none
  | (sp, a, n, w) :: rest =>
    let k := if w then Acc.write else Acc.read
    let here : Res (Option (Nat × TrapInfo)) :=
      if sp ≠ 0 then .ok none
      else
        match s.pages gi g priv k a n with
        | .ok _ => .ok none
        | .fail x fk => .ok (some (x, pageFault (BitVec.ofNat 64 x) fk k))
        | .off => .fault .noSuchAddress
    here.bind (fun x => (s.pageFails gi g priv rest).bind (fun y => .ok (lowerFail x y)))

/-- ok where nothing failed. -/
def passes (x : Option (Nat × TrapInfo)) : Res Unit :=
  match x with
  | none => .ok ()
  | some p => .trap p.2

/-- Step 5: the first misaligned address of destination, source and index list. -/
def EngOp.misaligned (o : EngOp) : Option DWord :=
  ([(o.sd, o.size), (o.sa, o.size)] ++ (if o.indexed then [(o.sa1, 4)] else [])).findSome?
    (fun (p : DWord × Nat) => if p.1.toNat % p.2 ≠ 0 then some p.1 else none)

/-- Steps 1 and 3 to 7 of R323. -/
def State.engineCheck (s : State) (gi : Nat) (g : Gallery) (o : EngOp) (spsize : Nat) (weightLoad : Bool) (P : Nat) :
    Res Unit :=
  if o.privileged && decide (o.priv = .program) then .trap (trapOf .priv 0)
  else if o.dsp = 2 ∧ weightLoad = false then .trap (engineTrap 2 o.sd.toNat)
  else if o.invalid g.protect || (o.seal != 0 && !s.sealPages gi g o) then .trap (engineTrap 1 0)
  else
    match o.misaligned with
    | some a => .trap (trapOf .align a)
    | none =>
      let rs := o.ranges P
      (passes (rangeFails (fun sp => if sp = 1 then spsize else g.wsSize) rs)).bind (fun _ =>
        (s.pageFails gi g o.priv rs).bind passes)

/-! ## Addresses of elements and lines -/

/-- The number of a line: its space and its address over 128. -/
def lineKey (sp a : Nat) : Nat := sp * 2 ^ 57 + a / 128

/-- Bytes of lines that have been read, and whether a line of them was uncorrectable. -/
def EngOp.bytes (o : EngOp) (sp a n : Nat) : Option (List Byte × Bool) :=
  (tfind o.reads (lineKey sp a)).map (fun p => ((p.1.drop (a % 128)).take n, p.2))

/-- Entry i of the index list, where it has been read (R330). -/
def EngOp.index (o : EngOp) (i : Nat) : Option (Int × Bool) :=
  (o.bytes 0 (o.sa1.toNat + 4 * i) 4).map (fun p => ((BitVec.ofNat 32 (leNat p.1)).toInt, p.2))

/-- Address of element i of the source and of the destination; none where its index is not known. -/
def EngOp.srcOf (o : EngOp) (i : Nat) : Option Nat :=
  if o.kind = 1 then (o.index i).map (fun x => (o.sa + BitVec.ofInt 64 (x.1 * o.size)).toNat)
  else some (o.sa.toNat + i * o.size)
def EngOp.dstOf (o : EngOp) (i : Nat) : Option Nat :=
  if o.kind = 2 then (o.index i).map (fun x => (o.sd + BitVec.ofInt 64 (x.1 * o.size)).toNat)
  else some (o.sd.toNat + i * o.size)

/-- Elements from lo to hi whose z bytes, laid out from an address on, lie in the line of a. -/
def inLine (start z lo hi a : Nat) : List Nat :=
  ((List.range (128 / z + 1)).map ((a / 128 * 128 - start) / z + ·)).filter (fun i =>
    decide (lo ≤ i) && decide (i < hi) && decide ((start + i * z) / 128 = a / 128))

/-- Source elements that the operation reads: a stopped one goes on from DONE; of a reduce-scatter the other ranks need every
element (R326, R433). -/
def EngOp.srcSpan (o : EngOp) : Nat × Nat :=
  match o.kind with
  | 0 => if o.seal = 1 then (0, 4096) else if o.seal = 2 then (0, o.count) else (o.base, o.limit)
  | 3 =>
    (match o.collOp with
    | 3 => (o.base - o.rank * o.count, o.count)
    | 4 => if o.rank = o.root then (o.base, o.count) else (0, 0)
    | 5 => (0, o.count)
    | _ => (o.base, o.count))
  | _ => (o.base, o.limit)

/-- Elements of the operation, ascending. -/
def EngOp.elems (o : EngOp) : List Nat := (List.range (o.limit - o.base)).map (o.base + ·)

/-- Elements whose index entry, whose source, whose destination lies in the line of an address. -/
def EngOp.idxIn (o : EngOp) (sp a : Nat) : List Nat :=
  if o.indexed && sp == 0 then inLine o.sa1.toNat 4 o.base o.limit a else []
def EngOp.srcIn (o : EngOp) (sp a : Nat) : List Nat :=
  if sp ≠ o.ssp then []
  else if o.kind = 1 then
    o.elems.filter (fun i => match o.srcOf i with
      | some x => x / 128 == a / 128
      | none => false)
  else inLine o.sa.toNat o.size o.srcSpan.1 o.srcSpan.2 a
def EngOp.dstIn (o : EngOp) (sp a : Nat) : List Nat :=
  if sp ≠ o.dsp then []
  else if o.kind = 2 then
    o.elems.filter (fun i => match o.dstOf i with
      | some x => x / 128 == a / 128
      | none => false)
  else inLine o.sd.toNat o.size o.base o.limit a

/-- Every index that the operation needs has been read. -/
def EngOp.indexed? (o : EngOp) : Bool := !o.indexed || o.elems.all (fun i => (o.index i).isSome)

/-- The lines of n bytes of a space from an address on. -/
def linesFrom (sp a n : Nat) : List Nat :=
  if n = 0 then [] else (List.range ((a + n + 127) / 128 - a / 128)).map (sp * 2 ^ 57 + a / 128 + ·)

/-- Lines of the index list, of the sources, and of the destinations of the elements. -/
def EngOp.idxLines (o : EngOp) : List Nat :=
  if o.indexed then linesFrom 0 (o.sa1.toNat + 4 * o.base) (4 * (o.limit - o.base)) else []
def EngOp.srcLines (o : EngOp) : List Nat :=
  if o.kind = 1 then (o.elems.filterMap (fun i => (o.srcOf i).map (lineKey o.ssp))).eraseDups
  else linesFrom o.ssp (o.sa.toNat + o.srcSpan.1 * o.size) ((o.srcSpan.2 - o.srcSpan.1) * o.size)
def EngOp.dstLines (o : EngOp) : List Nat :=
  if o.kind = 2 then (o.elems.filterMap (fun i => (o.dstOf i).map (lineKey o.dsp))).eraseDups
  else linesFrom o.dsp (o.sd.toNat + o.base * o.size) ((o.limit - o.base) * o.size)

/-- Every source line has been read. -/
def EngOp.sourced (o : EngOp) : Bool := o.srcLines.all (fun l => (tfind o.reads l).isSome)

/-! ## Accesses -/

/-- The scratchpad size of an operation's cast. -/
def State.spsizeOf (s : State) (o : EngOp) : Nat := match s.cast o.ck with
  | some c => c.spsize
  | none => 0

/-- The vaults log the lines with errors over which the walk of an operation's address fails (R339, R404). -/
def State.noteEngineWalk (s : State) (o : EngOp) (sp a : Nat) : State :=
  if sp = 1 ∨ sp = 2 then s else s.noteWalk o.gallery (BitVec.ofNat 64 a)

/-- Where an address of n bytes of an operation lies: range, or translation with the accesses of its walk (R188). -/
def State.engineLocate (s : State) (o : EngOp) (sp a n : Nat) (k : Acc) : Res (State × Loc × Dest) :=
  match s.gal o.gallery with
  | none => .fault .noSuchAddress
  | some g =>
    match sp with
    | 1 =>
      if s.spsizeOf o < a + n then .trap (trapOf .range (BitVec.ofNat 64 a))
      else .ok (s, .scratch o.ck a, .plain (.scratch o.ck a))
    | 2 =>
      if g.wsSize < a + n then .trap (trapOf .range (BitVec.ofNat 64 a))
      else .ok (s, .weights o.gallery a, .plain (.weights o.gallery a))
    | _ =>
      match translate s.readable o.gallery g (BitVec.ofNat 64 a) o.priv k with
      | .fail fk => .trap (pageFault (BitVec.ofNat 64 a) fk k)
      | .off => .fault .noSuchAddress
      | .ok x =>
        .ok (s.walked o.agent o.gallery x k, x.loc, x.dest o.gallery a)

def State.putEng (s : State) (n : Nat) (o : EngOp) : State := { s with ops := tput s.ops n o }

/-- How many elements are still to be done where the access of element i failed: for a COPY, whose lines are made in no order,
none; else those below it; for a source element of a COLL, the elements of the destination below it (R325). -/
def EngOp.limitAt (o : EngOp) (i : Nat) (source : Bool) : Nat :=
  match o.kind with
  | 0 => o.base
  | 3 =>
    if !source then i
    else
      (match o.collOp with
      | 3 => o.rank * o.count + i
      | 5 => Nat.min o.limit (i - o.rank * o.limit)
      | _ => i)
  | _ => i

/-- The operation has met a fault: what it is, and the key of the access that met it. -/
def State.engineErr (s : State) (n : Nat) (o : EngOp) (limit : Nat) (tval : DWord) : State :=
  let r := s.nextKey o.agent 0
  r.1.putEng n { o with limit := Nat.max o.base (Nat.min o.limit limit), err := some tval, errKey := r.2 }

/-- An access of element i failed at an address, which ends the operation and is logged (R325, R339). -/
def State.elementFault (s : State) (n : Nat) (o : EngOp) (i a : Nat) (source : Bool) : State :=
  (s.engineErr n o (o.limitAt i source) (engineTval 3 a)).log logEngine o.cluster 1 o.gallery (BitVec.ofNat 64 (a % 2 ^ 56))

/-- POISON for an address that operation n read at a key: owed to its issuer (R325), or recorded in the status of a copy
node (R346). -/
def State.owe (s : State) (n : Nat) (o : EngOp) (bad : Bool) (a : Nat) (k : Key) : State :=
  if !bad then s
  else
    match o.node with
    | some p => { s with prods := tmod s.prods p (fun x => x.noteFault (BitVec.ofNat 64 a) k) }
    | none =>
      { s with threads := tmod s.threads o.tk (fun t =>
          if t.run = .exited then t else t.owePoison true n (BitVec.ofNat 64 a)) }

/-! ## Collectives (R429 to R433) -/

/-- The members of an operation's communicator. -/
def State.members (s : State) (o : EngOp) : List DWord :=
  match s.gal o.gallery with
  | none => []
  | some g => match tfind g.comms o.comm with
    | some c => c.members
    | none => []
/-- Module, tag and name of a member (log 13). -/
def memberModule (m : DWord) : Nat := fld m.toNat 0 12
def memberTag (m : DWord) : Nat := fld m.toNat 16 8
def memberName (m : DWord) : Nat := fld m.toNat 32 16

/-- The box of a collective. -/
def EngOp.boxKey (o : EngOp) : Nat := o.comm * 2 ^ 32 + o.seq
def Gallery.box (g : Gallery) (k : Nat) : CollBox := (tfind g.inbox k).getD ⟨[], [], []⟩

/-- The byte of a box at a place, with elements of z bytes. -/
def CollBox.byte (b : CollBox) (z p : Nat) : Option (Byte × Bool) :=
  b.data.findSome? (fun e =>
    if e.1 * z ≤ p then (e.2.1[p - e.1 * z]?).map (fun x => (x, e.2.2)) else none)

/-- Bytes of a box from a place on. -/
def CollBox.bytes (b : CollBox) (z : Nat) : Nat → Nat → Option (List Byte × Bool)
  | _, 0 => some ([], false)
  | p, n + 1 =>
    match b.byte z p, b.bytes z (p + 1) n with
    | some x, some y => some (x.1 :: y.1, x.2 || y.2)
    | _, _ => none

/-- A contribution reaches every gallery of this module that bears a rank. -/
def State.contribute (s : State) (o : EngOp) (f : CollBox → CollBox) : State :=
  let gs := ((s.members o).filter (fun m => memberModule m == s.dev.number)).map memberTag
  ((o.gallery :: gs).eraseDups).foldl (fun (x : State) gi =>
    match x.gal gi with
    | some g => x.putG gi { g with inbox := tput g.inbox o.boxKey (f (g.box o.boxKey)) }
    | none => x) s

/-- The fields on which ranks must agree: OP, TYPE, COUNT and ROOT. -/
def agreeBits (x : DWord) : Nat := x.toNat % 2 ^ 48

/-- Every rank has joined. -/
def State.allJoined (s : State) (o : EngOp) : Bool :=
  match s.gal o.gallery with
  | none => false
  | some g => (List.range (s.members o).length).all (fun r => (tfind (g.box o.boxKey).ctls r).isSome)

/-- The fault that all ranks find: disagreement, or a rank's module to which no port leads (R432). -/
def State.collFault (s : State) (o : EngOp) : Option DWord :=
  match s.gal o.gallery with
  | none => none
  | some g =>
    if (s.members o).any (fun m => memberModule m != s.dev.number) && !s.dev.ports.any (fun p => p.2.up) then
      some (engineTval 13 0)
    else if (tvals (g.box o.boxKey).ctls).any (fun x => agreeBits x != agreeBits o.sb) then some (engineTval 12 0)
    else none

/-- The operator of a collective on two values of its type (R430). -/
def collCombine (op type a b : Nat) : Nat :=
  let f := if type = 0 then fp32 else if type = 2 then bf16 else fp64
  let w := if type = 1 then 32 else 64
  if type = 1 ∨ type = 4 then
    (match op with
    | 1 => if signedOf w a < signedOf w b then b else a
    | 2 => if signedOf w b < signedOf w a then b else a
    | _ => (a + b) % 2 ^ w)
  else
    (match op with
    | 1 => (f.minMax true a b).1
    | 2 => (f.minMax false a b).1
    | _ => (f.addBits rne a b).1)

/-- A floating-point NaN made canonical (R94). -/
def collCanon (type x : Nat) : Nat :=
  let f := if type = 0 then fp32 else if type = 2 then bf16 else fp64
  if type = 1 ∨ type = 4 then x
  else
    match f.value x with
    | .nan _ => f.nan
    | _ => x

/-- The fold over the ranks in ascending order; a NaN result is canonical, of one rank too (R430). -/
def collFold (op type : Nat) : List Nat → Nat
  | [] => 0
  | x :: rest => collCanon type (rest.foldl (collCombine op type) x)

/-- Values of one element in several places of the box, where all are there. -/
def CollBox.values (b : CollBox) (z : Nat) : List Nat → Option (List Nat × Bool)
  | [] => some ([], false)
  | i :: rest =>
    match b.bytes z (i * z) z, b.values z rest with
    | some x, some y => some (leNat x.1 :: y.1, x.2 || y.2)
    | _, _ => none

/-- Element i of the destination of a collective, as bytes (R430). -/
def State.collElem (s : State) (o : EngOp) (i : Nat) : Option (List Byte × Bool) :=
  match s.gal o.gallery with
  | none => none
  | some g =>
    let b := g.box o.boxKey
    let P := (s.members o).length
    let z := o.size
    let one (j : Nat) : Option (List Byte × Bool) := b.bytes z (j * z) z
    match o.collOp with
    | 3 => one i
    | 4 => one (o.root * o.count + i)
    | op =>
      let j := if op = 5 then o.rank * (o.count / P) + i else i
      (b.values z ((List.range P).map (fun r => r * o.count + j))).map (fun v =>
        (leBytes z (collFold op o.collType v.1), v.2))

/-! ## One unit of an operation -/

/-- Where a sealed COPY keeps what it writes, among its lines. -/
def sealKey : Nat := 2 ^ 60

/-- Element i of a sealed COPY's output: of the ciphertext, poisoned with its line of the page; else with any line (R325,
R406). -/
def EngOp.sealElem (o : EngOp) (i : Nat) : Option (List Byte × Bool) :=
  (tfind o.reads sealKey).map (fun out =>
    ((out.1.drop (16 * i)).take 16,
      if o.seal = 1 ∧ i < 4096 then ((o.bytes o.ssp (o.sa.toNat + 16 * i) 16).map (·.2)).getD false else out.2))

/-- The bytes of element i for its destination, where its sources have been read. -/
def State.elemBytes (s : State) (o : EngOp) (i : Nat) : Option (List Byte × Bool) :=
  if o.kind = 3 then s.collElem o i
  else if o.seal ≠ 0 then o.sealElem i
  else
    match o.srcOf i with
    | none => none
    | some a => (o.bytes o.ssp a o.size).map (fun p =>
        (p.1, p.2 || (match o.index i with
          | some x => o.indexed && x.2
          | none => false)))

/-- The first of the elements, and the address that concerns it. -/
def firstElem (xs : List Nat) : Option Nat := xs.head?

/-- The read of a line at a place: of the weight store, what it held when the production started (R294). -/
def State.engineRead (s : State) (o : EngOp) (l : Loc) : Got :=
  match l with
  | .weights _ _ => ⟨s.notePoison l, s.weightValue o.prod l 128, s.poisoned l, Key.zero⟩
  | _ => s.get o.agent l 128

/-- A source or index line is read whole at one key (R308). -/
def State.readLine (s : State) (n : Nat) (o : EngOp) (sp a : Nat) : State :=
  let idx := o.idxIn sp a
  let src := o.srcIn sp a
  if (tfind o.reads (lineKey sp a)).isSome || (idx.isEmpty && src.isEmpty) then s
  else
    let i := ((idx ++ src).foldl Nat.min (o.count + o.limit))
    let at_ := if idx.contains i then o.sa1.toNat + 4 * i else (o.srcOf i).getD a
    match s.engineLocate o sp a 128 .read with
    | .ok (s1, l, _) =>
      let r := s1.engineRead o l
      let bad := r.bad || o.lost
      let bs := leBytes 128 (if bad then 0 else r.x)
      let s3 := (r.s.owe n o bad at_ r.key).putEng n { o with
        reads := tput o.reads (lineKey sp a) (bs, bad), lost := false }
      if o.kind = 3 then
        match src.head? with
        | none => s3
        | some j =>
          let off := (o.sa.toNat + j * o.size) % 128
          s3.contribute o (fun b => { b with
            data := b.data ++ [(o.rank * o.count + j, (bs.drop off).take (src.length * o.size), bad)] })
      else s3
    | .trap _ => (s.noteEngineWalk o sp a).elementFault n o i at_ (!idx.contains i)
    | _ => s

/-- The pieces of a destination line: each element's place and bytes, ascending; none where a source is missing. -/
def State.linePieces (s : State) (o : EngOp) : List Nat → Option (List (Nat × List Byte) × Bool)
  | [] => some ([], false)
  | i :: rest =>
    match o.dstOf i, s.elemBytes o i, s.linePieces o rest with
    | some a, some x, some y => some ((a, x.1) :: y.1, x.2 || y.2)
    | _, _, _ => none

/-- A destination shifted within its line. -/
def Dest.plus (d : Dest) (n : Nat) : Dest :=
  match d with
  | .plain l => .plain (l.plus n)
  | .understudy g b k off => .understudy g b k (off + n)

/-- Adjoining pieces made one. -/
def joinPieces : List (Nat × List Byte) → List (Nat × List Byte)
  | [] => []
  | (a, x) :: rest =>
    match joinPieces rest with
    | (b, y) :: more => if a + x.length = b then (a, x ++ y) :: more else (a, x) :: (b, y) :: more
    | [] => [(a, x)]

/-- A destination line is written at one key (R308). -/
def State.writeLine (s : State) (n : Nat) (o : EngOp) (sp a : Nat) : State :=
  let els := o.dstIn sp a
  if o.writes.contains (lineKey sp a) || els.isEmpty || !o.indexed? then s
  else
    let line := a / 128 * 128
    match s.linePieces o els with
    | none => s
    | some (ps, bad) =>
      match s.engineLocate o sp line 128 .write with
      | .ok (s1, _, d) =>
        let qs := (if o.kind = 2 then ps else joinPieces ps).map (fun p => (d.plus (p.1 - line), p.2))
        match s1.engineWrite o.agent bad qs with
        | .ok s2 => s2.putEng n { o with writes := lineKey sp a :: o.writes }
        | _ => s
      | .trap _ =>
        let i := (els.head?).getD 0
        (s.noteEngineWalk o sp line).elementFault n o i ((o.dstOf i).getD line) false
      | _ => s

/-! ## Sealed COPY (R406) -/

/-- The keys that a label derives from a gallery's key: two of XTS and one for MACs (R402). -/
def galleryKeys (g : Gallery) (label : List Byte) : List Byte :=
  hkdf (leBytes 32 (Config.randomKey g.keyDraw).toNat) label
/-- The label "page". -/
def pageLabel : List Byte := [0x70, 0x61, 0x67, 0x65]

/-- The tweak of line i of a page, and the text of its MAC. -/
def pageTweak (va ver i : Nat) : List Byte := leBytes 16 (ver * 2 ^ 64 + va / 65536 * 2 ^ 24 + i)
def pageMac (keys : List Byte) (va ver i : Nat) (line : List Byte) : List Byte :=
  (cmac (keys.drop 64) (leBytes 8 va ++ leBytes 8 ver ++ leBytes 8 i ++ line)).take 8

/-- The record of a page's bytes. -/
def sealRecord (g : Gallery) (gi va ver : Nat) (page : List Byte) : List Byte :=
  let keys := galleryKeys g pageLabel
  let c := xts false keys (pageTweak va ver) page
  let macs := ((groups 127 512 c).zipIdx).flatMap (fun p => pageMac keys va ver p.2 p.1)
  let tail := macs ++ leBytes 8 va ++ leBytes 8 ver ++ leBytes 1 gi ++ List.replicate 15 0
  c ++ tail ++ hmac256 (keys.drop 64) tail

/-- The page that a record of the version in force holds; none where a check fails. -/
def unsealRecord (g : Gallery) (gi va ver : Nat) (r : List Byte) : Option (List Byte) :=
  let keys := galleryKeys g pageLabel
  let c := r.take 65536
  let tail := (r.drop 65536).take 0x1020
  let macs := ((groups 127 512 c).zipIdx).flatMap (fun p => pageMac keys va ver p.2 p.1)
  if leNat ((r.drop 0x11000).take 8) = va ∧ leNat ((r.drop 0x11008).take 8) = ver ∧
      leNat ((r.drop 0x11010).take 1) = gi ∧ (r.drop 0x11020).take 32 = hmac256 (keys.drop 64) tail ∧
      (r.drop 65536).take 4096 = macs then
    some (xts true keys (pageTweak va ver) c)
  else none

/-- The version of a 64 KiB page of a gallery. -/
def Gallery.version (g : Gallery) (va : Nat) : Nat := (tget g.vers (va / 65536) 0).toNat

/-- What a sealed COPY that has read all its source writes; none where the record is refused. -/
def sealOutput (g : Gallery) (o : EngOp) (src : List Byte) : Option (List Byte) :=
  if o.seal = 1 then some (sealRecord g o.gallery o.sa.toNat (g.version o.sa.toNat + 1) src)
  else unsealRecord g o.gallery o.sd.toNat (g.version o.sd.toNat) src

/-- The source of a sealed COPY: its bytes, and whether a line of them was uncorrectable. -/
def EngOp.sealSource (o : EngOp) : List Byte × Bool :=
  let xs := (List.range o.srcSpan.2).filterMap (fun i => o.bytes o.ssp (o.sa.toNat + 16 * i) 16)
  (xs.flatMap (·.1), xs.any (·.2))

/-- Another seal-out of the page has begun to write its record: this one's version follows it (log 20). -/
def State.sealBusy (s : State) (n : Nat) (o : EngOp) : Bool :=
  s.ops.any (fun p => p.1 != n && p.2.gallery == o.gallery && p.2.seal == 1 && decide (p.2.sa = o.sa) && !p.2.owed &&
    !p.2.writes.isEmpty)

/-- A write of a sealed COPY: once its whole source has been read, the record is made, or checked, and its lines written
(R406). -/
def State.sealedWrite (s : State) (n : Nat) (o : EngOp) (sp a : Nat) : State :=
  if !o.sourced || (o.seal == 1 && s.sealBusy n o) then s
  else if (tfind o.reads sealKey).isSome then s.writeLine n o sp a
  else
    match s.gal o.gallery with
    | none => s
    | some g =>
      let src := o.sealSource
      match sealOutput g o src.1 with
      | none => s.engineErr n o 0 (engineTval 9 o.sa.toNat)
      | some out =>
        let o1 := { o with reads := tput o.reads sealKey (out, src.2) }
        (s.putEng n o1).writeLine n o1 sp a

/-! ## Unspecified destinations (R432) -/

/-- n bytes that nothing constrains. -/
def freeBytes (k n : Nat) : List Byte := (List.range n).map (fun i => Config.freeByte (k + i))

/-- The destination line of a collective whose ranks disagree receives bytes that nothing constrains. -/
def State.scrambleLine (s : State) (o : EngOp) (key : Nat) : State :=
  let line := key % 2 ^ 57 * 128
  match o.dstIn 0 line with
  | [] => s
  | i :: rest =>
    let a := (o.dstOf i).getD line
    match s.engineLocate o 0 line 128 .write with
    | .ok (s1, _, d) =>
      (match ({ s1 with free := s1.free + 128 } : State).engineWrite o.agent false
          [(d.plus (a - line), freeBytes s1.free ((rest.length + 1) * o.size))] with
      | .ok s2 => s2
      | _ => s)
    | _ => s

/-- Ranks disagree: the operation ends, and its destinations are unspecified (R432). -/
def State.disagree (s : State) (n : Nat) (o : EngOp) (tval : DWord) : State :=
  let s1 := if fld tval.toNat 56 4 = 12 then o.dstLines.foldl (fun (z : State) l => z.scrambleLine o l) s else s
  s1.engineErr n o 0 tval

/-- One unit: 2 · line reads it, 2 · line + 1 writes it. A collective makes no progress before every rank has joined. -/
def State.engineUnit (s : State) (n u : Nat) : State :=
  match tfind s.ops n with
  | none => s
  | some o =>
    if o.owed || o.stopped || o.limit ≤ o.base then s
    else
      let sp := u / 2 / 2 ^ 57
      let a := u / 2 % 2 ^ 57 * 128
      if o.kind = 3 then
        match s.collFault o with
        | some x => s.disagree n o x
        | none => if u % 2 = 0 then s.readLine n o sp a else if s.allJoined o then s.writeLine n o sp a else s
      else if u % 2 = 0 then s.readLine n o sp a
      else if o.seal ≠ 0 then s.sealedWrite n o sp a
      else s.writeLine n o sp a

/-- Every element that the operation is to do is written; of a collective, every source line contributed as well (R431). -/
def EngOp.finished (o : EngOp) : Bool :=
  decide (o.limit ≤ o.base) ||
    (o.indexed? && o.dstLines.all (fun l => o.writes.contains l) && (o.kind != 3 || o.err.isSome || o.sourced))

/-! ## Issue (R322, R323) -/

/-- Outstanding operations of the casts of a core, owed ones among them (R322, R438). -/
def State.enginesOn (s : State) (k : Nat) : List (Nat × EngOp) :=
  s.ops.filter (fun p => p.2.node.isNone &&
    (match s.cast p.2.ck with
    | some c => c.coreNo == some k
    | none => false))

/-- The lowest record number that a cast does not use. -/
def State.freeRecord (s : State) (ck : Nat) : Nat :=
  let used := (s.ops.filter (fun p => p.2.node.isNone && p.2.ck == ck)).map (fun p => p.2.slot)
  ((List.range 33).find? (fun i => !used.contains i)).getD 32

/-- An operation as a thread or a node describes it. -/
def EngOp.make (tk : Nat) (priv : Priv) (ck gallery cluster : Nat) (node : Option Nat) (cue : Nat) (word : Word)
    (sd sa sa1 sb : DWord) : EngOp :=
  { tk := tk, priv := priv, ck := ck, gallery := gallery, cluster := cluster, node := node, cue := cue, word := word,
    sd := sd, sa := sa, sa1 := sa1, sb := sb, base := 0, reads := [], writes := [], slot := 0, seq := 0, rank := 0,
    limit := 0, owed := false, ftval := 0, err := none, errKey := Key.zero, stopped := false, lost := false }

/-- Fields of an engine word. -/
def engD (w : Word) : Nat := fld w.toNat 19 5
def engA (w : Word) : Nat := fld w.toNat 14 5
def engB (w : Word) : Nat := fld w.toNat 9 5

/-- The operation of a thread's word. -/
def Thread.engineOp (t : Thread) (tk : Nat) (c : Cast) (w : Word) : EngOp :=
  let o := EngOp.make tk t.priv (castOf tk) c.gallery (clusterOf c.onCore) none t.cueB (putBit w 30 false)
    (t.uni (engD w)) (t.uni (engA w)) 0 (t.uni (engB w))
  if o.indexed then { o with sa1 := t.uni (engA w + 1) } else o

/-- The further checks of COLL (R432), and its sequence and rank. -/
def State.collCheck (s : State) (o : EngOp) (k : Nat) : Res EngOp :=
  let ms := s.members o
  if o.collOp = 5 ∧ o.count % Nat.max ms.length 1 ≠ 0 then .trap (engineTrap 1 0)
  else if ms.isEmpty then .trap (engineTrap 10 0)
  else if ms.length ≤ o.root then .trap (engineTrap 1 0)
  else
    match (List.range ms.length).find? (fun r =>
      let m := ms.getD r 0
      memberModule m == s.dev.number && memberTag m == o.gallery && s.nameOf o.gallery k == some (memberName m)) with
    | none => .trap (engineTrap 11 0)
    | some r => .ok { o with rank := r }

/-- COLL takes its place on the communicator: its control word reaches the other ranks. -/
def State.join (s : State) (o : EngOp) : State × EngOp :=
  match s.gal o.gallery with
  | none => (s, o)
  | some g =>
    let k := o.comm * 4096 + o.rank
    let o1 := { o with seq := tget g.seqs k 0 % 2 ^ 32 }
    ((s.putG o.gallery { g with seqs := tput g.seqs k (o1.seq + 1) }).contribute o1 (fun b =>
      { b with ctls := tput b.ctls o1.rank o1.sb }), o1)

/-- An engine instruction of a thread: checks, the queue, and the record (R322, R323). -/
def State.issueEngine (s0 : State) (tk : Nat) (t0 : Thread) (c : Cast) (w : Word) : Res State :=
  if t0.cueFull t0.cueB then .wait
  else
    let o0 := t0.engineOp tk c w
    let ch := s0.charge t0 ([engD w, engA w] ++ (if o0.indexed then [engA w + 1] else []) ++ [engB w])
    let s := ch.1
    let t := ch.2
    match s.gal c.gallery with
    | none => .fault .noSuchAddress
    | some g =>
      let load := match tfind s.prods c.prod with
        | some p => p.weightLoad
        | none => false
      let P := Nat.max (s.members o0).length 1
      (s.engineCheck c.gallery g o0 c.spsize load P).bind (fun _ =>
        (if o0.kind = 3 then s.collCheck o0 c.onCore else .ok o0).bind (fun o1 =>
          if 32 ≤ (s.enginesOn c.onCore).length then .hold (.slot w)
          else
            let j := if o1.kind = 3 then s.join o1 else (s, o1)
            let o := { j.2 with slot := s.freeRecord (castOf tk), limit := o1.items P }
            let s0 := j.1.ptsAfter o.agent (j.1.nowKey c.agent)
            let s1 := { s0.putEng s0.nextOp o with nextOp := s0.nextOp + 1 }
            .ok (s1.finish tk { t.incCue t.cueB with held := none } c (w.getLsbD 30) 4)))

/-- Step 1 of R323, before budget and hazard. -/
def enginePriv (w : Word) (t : Thread) : Option TrapInfo :=
  let o := EngOp.make 0 t.priv 0 0 0 none 15 w 0 0 0 (t.uni (engB w))
  if o.privileged && decide (t.priv = .program) then some (trapOf .priv 0) else none

/-- An engine word: sa + 1 is read by GATHER and SCATTER. -/
def engineWord (w : Word) (regs : List Nat) (s : State) : Out :=
  issue (enginePriv w) (fun _ => regs) (fun t c => s.issueEngine s.focus t c w) s

def execCopy (e : Bool) (d a b : BitVec 5) : State → Out :=
  engineWord (insWord (.copy e d a b)) [sReg d.toNat, sReg a.toNat, sReg b.toNat]
def execGather (e : Bool) (d a b : BitVec 5) : State → Out :=
  engineWord (insWord (.gather e d a b)) [sReg d.toNat, sReg a.toNat, sReg (a.toNat + 1), sReg b.toNat]
def execScatter (e : Bool) (d a b : BitVec 5) : State → Out :=
  engineWord (insWord (.scatter e d a b)) [sReg d.toNat, sReg a.toNat, sReg (a.toNat + 1), sReg b.toNat]
def execColl (e : Bool) (d a b : BitVec 5) : State → Out :=
  engineWord (insWord (.coll e d a b)) [sReg d.toNat, sReg a.toNat, sReg b.toNat]

/-- An engine instruction that waited for a queue slot issues (R322). -/
def execEngineSlotFree (tk : Nat) (s : State) : Out :=
  match s.thread tk, s.cast (castOf tk) with
  | some t, some c =>
    match t.held with
    | some (.slot w) => s.settle tk t c (s.issueEngine tk { t with held := none } c w)
    | _ => .next s
  | _, _ => .next s

/-! ## Completion -/

/-- A rank that has completed a collective needs its box no more; the last rank of the gallery takes it away. One that has
stopped still needs it (R433). -/
def State.leaveBox (s : State) (o : EngOp) : State :=
  if o.kind ≠ 3 then s
  else
    match s.gal o.gallery with
    | none => s
    | some g =>
      let own := (List.range (s.members o).length).filter (fun r =>
        let m := (s.members o).getD r 0
        memberModule m == s.dev.number && memberTag m == o.gallery)
      let b := g.box o.boxKey
      let b1 := { b with left := if b.left.contains o.rank then b.left else o.rank :: b.left }
      s.putG o.gallery { g with
        inbox := if own.all b1.left.contains then tdel g.inbox o.boxKey else tput g.inbox o.boxKey b1 }

/-- The fault of an operation whose issuer exited, or of a copy node, goes to the completion status (R325, R346). -/
def State.recordFault (s : State) (prod : Nat) (x : DWord) (k : Key) : State :=
  { s with prods := tmod s.prods prod (fun p => p.noteFault x k) }

/-- A seal-out that has written its record takes the page's version (R406). -/
def State.takeVersion (s : State) (o : EngOp) : State :=
  if o.seal = 1 ∧ o.err.isNone then
    { s with gals := tmod s.gals o.gallery (fun g =>
        { g with vers := tput g.vers (o.sa.toNat / 65536) (BitVec.ofNat 64 (g.version o.sa.toNat + 1)) }) }
  else s

/-- Completion: cue B falls, and ENGINE is owed where the operation met a fault (R322, R325); the issuer's core goes on above
its accesses (R308); a copy node finishes (R345). -/
def State.completeEngine (s : State) (n : Nat) (o : EngOp) : State :=
  let s0 := (({ s with ops := tdel s.ops n } : State).leaveBox o).takeVersion o
  match o.node with
  | some p =>
    (match o.err with
    | some x => s0.recordFault p x o.errKey
    | none => s0).finishNode p
  | none =>
    let gone : State := match (s0.cast o.ck).bind Cast.coreNo with
      | some k => s0.ptsAfter k (s0.nowKey o.agent)
      | none => s0
    match gone.thread o.tk with
    | none => gone
    | some t =>
      let exited := decide (t.run = .exited)
      match o.err with
      | none => if exited then gone else gone.putT o.tk (t.decCue o.cue)
      | some x =>
        if exited then gone.recordFault o.prod x o.errKey
        else (gone.putEng n { o with owed := true, ftval := x, reads := [], writes := [] }).putT o.tk (t.decCue o.cue)

/-- An engine operation whose accesses are all made completes (R322). -/
def execEngineOpComplete (op : Nat) (s : State) : Out :=
  match tfind s.ops op with
  | some o => if o.finished && !o.owed && !o.stopped then .next (s.completeEngine op o) else .next s
  | none => .next s

/-- A ready copy node starts: its checks, and the engines of the gallery's first tile (R342, R345). -/
def State.startCopy (s0 : State) (n : Nat) (p : Prod) (g : Gallery) (l : Loc) : State :=
  let r := s0.put curatorAgent (l.plus 0x7E) (leBytes 1 4)
  let priv := if p.weightLoad then Priv.supervisor else Priv.program
  let o1 := EngOp.make 0 priv 0 p.gallery (g.tiles.getD 0 0 * 40) (some n) 15 0x9C00_0000 (p.arg 0) (p.arg 1) 0 (p.arg 2)
  let o := { o1 with limit := o1.items 1 }
  let started := { p with started := true, startKey := r.2, startHost := s0.hostCount, code := r.1.mem, copyOp := some r.1.nextOp }
  let s2 := ({ r.1 with prods := tput r.1.prods n started } : State).ptsAfter o.agent r.2
  match s2.engineCheck p.gallery g o 0 p.weightLoad 1 with
  | .trap x => (s2.recordFault n x.tval (s2.nowKey o.agent)).finishNode n
  | .ok _ => { s2.putEng s2.nextOp o with nextOp := s2.nextOp + 1 }
  | _ => s0

/-- COPY_NODE_START: a copy node in STATE 3 starts, where no weight load excludes it (R331). -/
def execCopyNodeStart (node : Nat) (s : State) : Out :=
  match tfind s.prods node with
  | none => .next s
  | some p =>
    match s.gal p.gallery, s.reachHw p.gallery p.recAddr 128 .rmw with
    | some g, some (s1, l) =>
      if p.isCopy && !p.started && decide (g.state = .opened) && s1.value (l.plus 0x7E) 1 == 3 && s.mayRun node p then
        .next (s1.startCopy node p g l)
      else .next s
    | _, _ => .next s

/-! ## PUBLISH (R332, R333) -/

/-- The range is empty or not made of whole pages: a page that fails the walk is left to step 7. -/
def State.notPages (s : State) (gi : Nat) (g : Gallery) (a n : Nat) : Bool :=
  let cut (x : Nat) : Bool := match walk s.readable gi g x with
    | .leaf _ _ bits _ => x % 2 ^ bits != 0
    | _ => x % 65536 != 0
  n == 0 || cut a || (match walk s.readable gi g (a + n - 1) with
    | .leaf _ _ bits _ => (a + n) % 2 ^ bits != 0
    | _ => (a + n) % 65536 != 0)

/-- An operation writes a page of the range, or may: a SCATTER's element lies there, or its index is still unread. -/
def EngOp.writesRange (o : EngOp) (P a n : Nat) : Bool :=
  o.dsp == 0 &&
    (if o.kind = 2 then
      !o.indexed? || o.elems.any (fun i => match o.dstOf i with
        | some x => decide (x < a + n) && decide (a < x + o.size)
        | none => true)
    else decide (o.sd.toNat < a + n) && decide (a < o.sd.toNat + o.items P * o.size))

/-- A thread has engine operations that write the range, or a page of its frame pairs: those that R333 waits for. -/
def State.writesRange (s : State) (tk a n : Nat) (pairs : List (Nat × Nat)) : Bool :=
  s.ops.any (fun p => p.2.node.isNone && p.2.tk == tk && !p.2.owed &&
    p.2.writesRange (Nat.max (s.members p.2).length 1) a n) ||
  s.cores.any (fun p => p.2.order.any (fun o => o.tk == some tk && o.places.any (fun d => match d with
    | .understudy _ b _ _ => pairs.any (fun x => x.1 == b)
    | .plain _ => false)))

/-- Lines of a frozen frame that the merge of a pair would write and that the snapshot has still to stream or copy
(R395). -/
def frozenLines (n : Snap) (ub size : Nat) : List Nat :=
  (List.range (size / 128)).map (ub / 128 + ·) |>.filter (fun l =>
    match streamPos n.pages (l * 128) 0 with
    | none => false
    | some pos => decide (n.streamed ≤ pos) && !n.copied.contains l)

/-- The frozen lines that a PUBLISH overwrites go to the reserve; a full reserve holds it (R395). -/
def State.guardPairs (s : State) (gi : Nat) (g : Gallery) (pairs : List (Nat × Nat)) : Res State :=
  match g.snap with
  | none => .ok s
  | some n =>
    let ls := (pairs.flatMap (fun p => frozenLines n (understudyBase s.mem gi g p.1 p.2) (2 ^ p.2))).eraseDups
    if (n.copied.length + ls.length) * 128 + g.imaged ≤ g.snapres.toNat ∨ ls = [] then
      .ok (s.putG gi { g with snap := some { n with copied := n.copied ++ ls } })
    else .hold .snapshot

/-- PUBLISH for a thread: the checks of R323, the wait for its own engine operations, and the key P (R333). -/
def State.publishBody (s0 : State) (tk : Nat) (t0 : Thread) (c : Cast) (w : Word) : Res State :=
  if t0.cueFull t0.cueB then .wait
  else
    let ch := s0.charge t0 [engA w, engB w]
    let s := ch.1
    let t := ch.2
    let a := (t.uni (engA w)).toNat
    let n := (t.uni (engB w)).toNat
    match s.gal c.gallery with
    | none => .fault .noSuchAddress
    | some g =>
      if s.notPages c.gallery g a n then .trap (engineTrap 6 a)
      else
        match s.pages c.gallery g t.priv .write a n with
        | .off => .fault .noSuchAddress
        | .fail x fk => .trap (pageFault (BitVec.ofNat 64 x) fk .write)
        | .ok ps =>
          match ps.find? (fun p => !p.2.framed) with
          | some p => .trap (engineTrap 5 p.1)
          | none =>
            let pairs := ps.map (fun p => (p.2.page, p.2.bits))
            if s.writesRange tk a n pairs then .hold (.publish w)
            else
              let agent := engineAgent (clusterOf c.onCore)
              (s.guardPairs c.gallery g pairs).bind (fun s1 =>
                let s2 := (s1.ptsAfter agent (s1.nowKey c.agent)).walkPages agent c.gallery pairs ps
                let r := s2.publishPairs agent c.gallery pairs
                .ok ((r.1.ptsAfter c.agent r.2).finish tk { t with held := none } c (w.getLsbD 30) 4))

def execPublish (e : Bool) (a b : BitVec 5) (s : State) : Out :=
  issue anyPriv (fun _ => [sReg a.toNat, sReg b.toNat])
    (fun t c => s.publishBody s.focus t c (insWord (.publish e a b))) s

/-- A PUBLISH that waited takes its key (R333). -/
def execPublishTake (tk : Nat) (s : State) : Out :=
  match s.thread tk, s.cast (castOf tk) with
  | some t, some c =>
    match t.held with
    | some (.publish w) => s.settle tk t c (s.publishBody tk { t with held := none } c w)
    | _ => .next s
  | _, _ => .next s

end Sys2Proof.Machine
end

