-- ==== Sys2Proof/Machine/Image.lean ====
section
/-! DEFINITION. The cast image (16_package_launch_power.md R367; 20_package_protection.md R407, R408): its size, its bytes
from a stopped cast, its sealing and its writing in two stages (21_program_protected_preemption.md R414), the checks that
CTXLOAD makes of it (R370), and what a cast takes back from it. The layouts that R367 leaves open inside the cast block are
the model's (log 8). -/
namespace Sys2Proof.Machine

/-! ## Sizes (R367) -/

/-- The cast block's offset for a number of threads. -/
def imageToff (ntid : Nat) : Nat := roundUp4K (0x100 + ntid * 640)
/-- The tiles that a mask grants, ascending. -/
def maskTiles (m : BitVec 8) : List Nat := (List.range 8).filter (fun d => m.getLsbD d)
/-- The image's bytes. -/
def imageSizeOf (ntid spsize : Nat) (tiles : Nat) : Nat :=
  roundUp4K (imageToff ntid + 0x8000 + spsize + 16448 * tiles)
def Cast.imageSize (c : Cast) : Nat := imageSizeOf c.ntid c.spsize (maskTiles c.amask).length

/-- Bytes filled with zeros to n. -/
def padTo (n : Nat) (bs : List Byte) : List Byte := (bs ++ List.replicate (n - bs.length) 0).take n
def bytes8 (x : DWord) : List Byte := leBytes 8 x.toNat

/-! ## A stopped thread -/

/-- A thread at rest: withdrawn from what held it, Filed at its word; a Waiting one with TEPC at its WAIT and the time spent
kept (R90, R365 steps 3 and 4). -/
def Thread.atRest (t0 : Thread) (tick : Nat) : Thread :=
  let pc := t0.instrPc
  let t := (t0.pauseWait tick).withdraw
  { t with
    tepc := if t0.run = .waiting then pcBits pc else t.tepc
    pc := pc, pfx := none, inScene := false, cueA := 15, cueB := 15, waitOn := none
    run := if t.run = .exited then .exited else .filed
    age := tick }

/-- The run state of a thread block (R367). -/
def Thread.runCode (t : Thread) : Nat :=
  match t.run with
  | .exited => 3
  | .waiting => 2
  | .queued => 1
  | _ => match t.held with
    | some (.gbar _ _ _ _) => 4
    | _ => 0

/-- A grid barrier arrival that a thread keeps: its number and phase, where it is not held at the word. -/
def Thread.keptArrival (t : Thread) : Option (Nat × Word) := t.gbarAt

/-- A thread's block: code is its run state when it stopped, t the thread at rest. A suppress that RETT has taken and that
no instruction has used yet is written as TSTAT.SKIP (log 8). -/
def Thread.block (t : Thread) (code : Nat) : List Byte :=
  let ts := { t.tstat with
    pendHalt := t.tstat.pendHalt || t.haltDue, pendSlice := t.tstat.pendSlice || t.sliceDue
    skip := t.tstat.skip || t.suppress }
  let g : Nat × Word := t.gbarAt.getD (0, 0)
  let flags := code + (decide (t.priv = .supervisor)).toNat * 8 + g.1 * 16 + (t.gbarAt.isSome && code != 4).toNat * 64
  (List.range 64).flatMap (fun i => leBytes 4 (t.lane i).toNat) ++
    (List.range 32).flatMap (fun i => bytes8 (t.uni i)) ++
    [t.pc, t.pidx, t.tcause.setWidth 64, t.tepc, t.tval, ts.bits, t.tscratch, t.lodc.setWidth 64].flatMap bytes8 ++
    leBytes 2 t.predSet.toNat ++
    leBytes 6 ((List.range 12).foldl (fun n i => n + t.cue i * 2 ^ (4 * i)) 0) ++
    leBytes 1 t.fflags.toNat ++ leBytes 1 t.frm.toNat ++ leBytes 1 t.step.toNat ++ leBytes 1 flags ++
    leBytes 4 g.2.toNat ++ leBytes 8 (if t.poison.isSome then 2 ^ 9 else 0) ++
    bytes8 ((t.poison.map (·.2)).getD 0) ++
    leBytes 1 (if code = 3 then 0 else ((t.pc - t.hdr).toNat / 4)) ++ List.replicate 31 0

/-- An FRM that a block holds: 1 where it is no mode (R106, log 34). -/
def frmOf (x : Nat) : BitVec 3 := if x = 0 ∨ 5 < x then 1 else BitVec.ofNat 3 x

/-- The thread that a block describes (R367): a Waiting thread stands Filed at its WAIT, a thread held at GBAR Filed at
it with its arrival; v is what it kept of its accesses (R304). -/
def Thread.ofBlock (p : Prod) (gidx tid tick : Nat) (v : View) (b : List Byte) : Thread :=
  let r (o n : Nat) : Nat := recNat b o n
  let d (o : Nat) : DWord := BitVec.ofNat 64 (r o 8)
  let st := r 0x24B 1
  let code := st % 8
  let ts := TStat.ofBits (d 0x228)
  let priv := if bit st 3 then Priv.supervisor else .program
  let pc := pcBits (d 0x200)
  { pc := pc
    v := (List.range 64).foldl (fun (t : Tab Word) i => tset t i (BitVec.ofNat 32 (r (4 * i) 4)) 0) []
    u := (List.range 32).foldl (fun (t : Tab DWord) i => tset t i (d (0x100 + 8 * i)) 0) []
    p := BitVec.ofNat 15 (r 0x240 2)
    k := (List.range 12).foldl (fun (t : Tab Nat) i => tset t i (fld (r 0x242 6) (4 * i) 3) 0) []
    priv := priv
    run := if code = 3 then .exited else .filed
    fflags := BitVec.ofNat 5 (r 0x248 1)
    frm := frmOf (r 0x249 1)
    lodc := BitVec.ofNat 32 (r 0x238 8)
    ident := .of p gidx tid
    pidx := d 0x208
    tcause := BitVec.ofNat 23 (r 0x210 8)
    tepc := pcBits (d 0x218)
    tval := d 0x220
    tstat := { ts with skip := ts.skip && decide (priv = .supervisor) }
    tscratch := d 0x230
    step := bit (r 0x24A 1) 0
    hdr := pc - BitVec.ofNat 64 (4 * r 0x260 1)
    inScene := false, cueA := 15, cueB := 15, pfx := none, outst := [], held := none, haltDue := false, sliceDue := false
    poison := if bit (r 0x250 8) 9 then some (0, d 0x258) else none
    kept := []
    suppress := ts.skip && decide (priv = .program)
    age := tick, filedAt := 0, waitOn := none, waitSince := tick, v2s := 0
    sliceIn := decide (priv = .supervisor) && bit (r 0x210 8) 22
    haltIn := decide (priv = .supervisor) && bit (r 0x210 8) 21
    seen := v.seen, fenceR := v.fenceR, hostFrom := v.hostFrom, hostLines := v.hostLines, repFrom := v.repFrom, late := []
    gbarAt := if code = 4 ∨ bit st 6 = true then some (fld st 4 2, BitVec.ofNat 32 (r 0x24C 4)) else none }

/-! ## The cast block -/

/-- An entry of a register q: W, M, kind and state, GEN, progress, and the cue of the issued operation's signers. -/
def QReg.block (r : QReg) : List Byte :=
  bytes8 r.w ++ leBytes 4 r.m.toNat ++ leBytes 1 (r.quartet.toNat + r.state.code * 2) ++ leBytes 3 r.gen.toNat ++
    bytes8 r.progress ++ leBytes 1 ((r.signers.head?.map (fun x => x.2.1)).getD 15) ++ List.replicate 7 0

/-- A reservation record; bit 0 of the flags tells that it is one, bit 1 that a curve was copied, bit 2 its format. -/
def recordBlock (r : Option VRec) : List Byte :=
  match r with
  | none => List.replicate 256 0
  | some x =>
    let c := x.curve.isSome
    let f := match x.curve with
      | some y => y.tf6
      | none => false
    padTo 256 (bytes8 x.base ++ bytes8 x.sbase ++ bytes8 x.desc ++ leBytes 8 (1 + c.toNat * 2 + f.toNat * 4) ++
      (match x.curve with
      | some y => y.entries.flatMap bytes8
      | none => []))
/-- The record of a block, its copied curve as it stands (log 8). -/
def recordOf (b : List Byte) : Option VRec :=
  let f := recNat b 0x18 8
  if !bit f 0 then none
  else
    some { base := BitVec.ofNat 64 (recNat b 0 8), sbase := BitVec.ofNat 64 (recNat b 8 8)
           desc := BitVec.ofNat 64 (recNat b 0x10 8)
           curve := if bit f 1 then
               some ⟨(List.range 16).map (fun i => BitVec.ofNat 64 (recNat b (0x20 + 8 * i) 8)), bit f 2⟩
             else none }

/-- The slot of an issued operation of q: word, privilege, coefficients, its place in the matrix order of the cast's issued
operations, reservations, the declaration that waits, and the TVAL of an owed DIVERGE (log 8). -/
def opBlock (r : QReg) (o : Option (MatOp × Nat)) : List Byte :=
  let next : List Byte := match r.next with
    | some (w, m, q) => bytes8 w ++ leBytes 4 m.toNat ++ leBytes 4 (1 + q.toNat * 2)
    | none => List.replicate 16 0
  let body := match o with
    | none => []
    | some (x, n) =>
      leBytes 4 x.word.toNat ++ leBytes 4 (decide (x.priv = .supervisor)).toNat ++
        padTo 64 ((x.words.take 8).flatMap bytes8) ++ leBytes 8 n ++ recordBlock x.ra ++ recordBlock x.rb
  padTo 0x300 body ++ padTo 0xF8 next ++ bytes8 (if r.owed.isEmpty then 0 else r.owedTval)

/-- The signing privileges of an issued operation, with the map of owed signers (R437). -/
def owedBlock (r : QReg) : List Byte :=
  let map := r.owed.foldl (fun n x => n + 2 ^ x.1) 0
  let privs := r.owed.foldl (fun n x => if x.2 = .supervisor then n + 2 ^ x.1 else n) 0
  leBytes 256 map ++ leBytes 256 privs

/-- The progress word of an engine record (R326, R433). -/
def EngOp.progressWord (o : EngOp) : Nat :=
  match o.kind with
  | 0 => 7 * 2 ^ 60 + o.base * 16 * 2 ^ 28
  | 1 => 8 * 2 ^ 60 + o.base * 2 ^ 36
  | 2 => 9 * 2 ^ 60 + o.base * 2 ^ 36
  | _ => 10 * 2 ^ 60 + o.base / 32 * 2 ^ 24

/-- An engine record (R438). -/
def EngOp.block (o : EngOp) : List Byte :=
  let ctl := 1 + o.owed.toNat * 2 + (decide (o.priv = .supervisor)).toNat * 4 + o.cue * 16
  leBytes 8 o.progressWord ++ leBytes 8 (if o.kind = 3 then o.seq else 0) ++ leBytes 4 o.word.toNat ++
    leBytes 2 (tidOf o.tk) ++ leBytes 1 ctl ++ [0] ++ [o.sd, o.sa, o.sa1, o.sb].flatMap bytes8 ++
    bytes8 (if o.owed then o.ftval else 0)

/-- The registers of 256 bytes at 0x1C00. -/
def Cast.csrBlock (c : Cast) (core : Core) : List Byte :=
  bytes8 c.tvec ++ leBytes 8 (c.notify.toNat * 2 ^ 32 + c.ticks) ++ leBytes 8 c.rdvto ++
    (List.range 8).flatMap (fun i => bytes8 (tget c.bpaddr i 0)) ++ (List.range 8).flatMap (fun i => bytes8 (tget c.bpctl i 0)) ++
    (List.range 4).flatMap (fun i => bytes8 (tget c.wpaddr i 0)) ++ (List.range 4).flatMap (fun i => bytes8 (tget c.wpctl i 0)) ++
    leBytes 8 c.qmmas ++
    (List.range 8).flatMap (fun i => leBytes 4 (if c.cgrant then (tget core.coef i 0).toNat else 0))

/-- The 32 KiB of the cast block, from the cast at rest, its issued operations and its engine records. -/
def Cast.block (c : Cast) (core : Core) (issued : List MatOp) (engines : List EngOp) : List Byte :=
  let op (q : Nat) : Option (MatOp × Nat) := issued.zipIdx.find? (fun o => o.1.q == q)
  (List.range 16).flatMap (fun q => (c.qreg q).block) ++
    (List.range 16).flatMap (fun n => recordBlock (tfind c.vt n)) ++
    padTo 0x180 ([1, 2, 3].flatMap (fun n => padTo 128 (match tfind c.curves n with
      | some x => x.entries.flatMap bytes8
      | none => []))) ++
    padTo 0x80 ([1, 2, 3].map (fun n => match tfind c.curves n with
      | some x => if x.tf6 then (2 : Byte) else 1
      | none => 0)) ++
    (List.range 32).flatMap (fun i => match engines.find? (fun o => o.slot == i) with
      | some o => o.block
      | none => List.replicate 64 0) ++
    padTo 0x400 (c.csrBlock core) ++
    (List.range 16).flatMap (fun q => opBlock (c.qreg q) (op q)) ++
    (List.range 16).flatMap (fun q => owedBlock (c.qreg q))

/-- A tile entry. -/
def tileBlock (core : Core) (d : Nat) : List Byte :=
  let st := core.status d
  (core.tile d).flatMap (fun x => leBytes 4 x.toNat) ++
    [st.event.setWidth 64, st.report, st.res.setWidth 64, st.prev.setWidth 64].flatMap bytes8 ++ List.replicate 32 0

/-- The header of 256 bytes, its tag zero. -/
def imageHeader (flags isize : Nat) (rec : DWord) (gidx cnt wage : Nat) : List Byte :=
  leBytes 4 0x474D_4943 ++ leBytes 2 1 ++ leBytes 2 flags ++ leBytes 8 isize ++ bytes8 rec ++ leBytes 4 gidx ++
    leBytes 4 0 ++ leBytes 8 cnt ++ List.replicate 72 0 ++ leBytes 8 wage ++ List.replicate 136 0

/-! ## Sealing (R407, R408) -/

/-- The label of a context: "ctx", the record and the cast index (log 8). -/
def ctxLabel (rec : DWord) (gidx : Nat) : List Byte := [0x63, 0x74, 0x78] ++ bytes8 rec ++ leBytes 4 gidx

/-- An image under its context's keys, from 0x100 on; dec opens it. -/
def sealBody (dec : Bool) (keys : List Byte) (cnt : Nat) (img : List Byte) : List Byte :=
  img.take 0x100 ++ xts dec keys (fun i => leBytes 16 (cnt * 2 ^ 64 + (i + 2))) (img.drop 0x100)

/-- The tag of an image, its own place taken as zero. -/
def imageTag (keys img : List Byte) : List Byte :=
  hmac256 (keys.drop 64) (img.take 0x30 ++ List.replicate 32 0 ++ img.drop 0x50)

/-- An image sealed. -/
def sealImage (g : Gallery) (rec : DWord) (gidx cnt : Nat) (img : List Byte) : List Byte :=
  let keys := galleryKeys g (ctxLabel rec gidx)
  let body := sealBody false keys cnt img
  body.take 0x30 ++ imageTag keys body ++ body.drop 0x50

/-! ## Writing (R365 step 8, R369, R414) -/

/-- The issued operations of a cast in the matrix order of a core. -/
def Core.issuedOf (k : Core) (ck : Nat) : List MatOp := k.order.filter (fun o => o.ck == ck && o.tk.isNone)

/-- The engine records of a cast. -/
def State.engineRecords (s : State) (ck : Nat) : List EngOp :=
  (s.ops.filter (fun p => p.2.node.isNone && p.2.ck == ck)).map (·.2)

/-- The plain image of a cast whose work is stopped. run tells of each thread what it was when it stopped. -/
def State.plainImage (s : State) (ck : Nat) (c : Cast) (p : Prod) (core : Core) (issued : List MatOp) (flags : Nat)
    (run : Nat → Nat) : List Byte :=
  let size := c.imageSize
  let ths := s.castThreads ck
  let threads := (List.range c.ntid).flatMap (fun i => match ths.find? (fun x => x.1 == i) with
    | some x => x.2.block (run i)
    | none => List.replicate 640 0)
  padTo size (padTo (imageToff c.ntid) (imageHeader flags size p.recAddr c.gidx 0 c.wage ++ threads) ++
    c.block core issued (s.engineRecords ck) ++ bytesAt s.mem (Loc.scratch ck 0).cell c.spsize ++
    (maskTiles c.amask).flatMap (tileBlock core))

/-- The count moves, and the image is sealed, in a protected gallery (R407, R414). -/
def State.sealed (s : State) (ck : Nat) (c : Cast) (p : Prod) (img : List Byte) : State × List Byte :=
  match s.gal c.gallery with
  | none => (s, img)
  | some g =>
    if !g.protect then (s, img)
    else
      let cnt := g.sc + 1
      let img1 := img.take 6 ++ leBytes 2 (recNat img 6 2 + 1) ++ (img.drop 8).take 0x18 ++ leBytes 8 cnt ++ img.drop 0x28
      (s.putG c.gallery { g with sc := cnt, cur := tput g.cur ck (BitVec.ofNat 64 cnt) },
        sealImage g p.recAddr c.gidx cnt img1)

/-- Every page of an image's extent permits a kind of access. -/
def State.extentFails (s : State) (gi : Nat) (priv : Priv) (k : Acc) (a n : Nat) : Res (Option (Nat × Nat)) :=
  match s.gal gi with
  | none => .fault .noSuchAddress
  | some g =>
    match s.pages gi g priv k a n with
    | .ok _ => .ok none
    | .fail x fk => .ok (some (x, fk))
    | .off => .fault .noSuchAddress

/-- The image of a cast on a core written in two stages, its first doubleword last (R414), after all that the core has done
and before all that it does from then on. -/
def State.putImage (s : State) (gi k : Nat) (a : DWord) (img : List Byte) : Res State :=
  ((s.ptsAfter curatorAgent (s.nowKey k)).writeBulk gi .supervisor curatorAgent (a + 8) (img.drop 8)).bind (fun s1 =>
    (s1.writeBulk gi .supervisor curatorAgent a (img.take 8)).bind (fun s2 =>
      .ok (s2.ptsAfter k (s2.nowKey curatorAgent))))

/-- Where hardware keeps the image of a cast that it holds itself: beyond the cast's scratchpad (R366, R370). -/
def heldImage (ck : Nat) : Loc := .scratch ck (2 ^ 40)
/-- An image held by hardware, sealed where it is. -/
def State.holdImage (s : State) (ck : Nat) (img : List Byte) : State :=
  { s with mem := setBytes (clearCells s.mem (heldImage ck).cell (2 ^ 24)) (heldImage ck).cell img }

/-! ## What a cast takes back -/

/-- Register q of a cast block; old is the register as the cast last had it (log 8). -/
def qregOf (b : List Byte) (ck : Nat) (ths : List (Nat × Thread)) (old : QReg) (q : Nat) : QReg :=
  let x := (b.drop (32 * q)).take 32
  let y := (b.drop (0x2000 + 0x400 * q)).take 0x400
  let z := (b.drop (0x6000 + 0x200 * q)).take 0x200
  let f := recNat x 0x0C 1
  let st := match fld f 1 2 with
    | 0 => QState.empty
    | 1 => .opened
    | 2 => .issued
    | _ => .done
  let r : QReg := { QReg.initial with
    w := BitVec.ofNat 64 (recNat x 0 8), m := BitVec.ofNat 32 (recNat x 8 4), quartet := bit f 0, state := st
    gen := BitVec.ofNat 24 (recNat x 0x0D 3), progress := BitVec.ofNat 64 (recNat x 0x10 8) }
  let signers := (ths.filter (fun t => r.declares t.1 && !decide (t.2.run = .exited))).map (fun t =>
    match old.signers.find? (fun o => o.1 == thrKey ck t.1) with
    | some o => o
    | none => (thrKey ck t.1, recNat x 0x18 1, t.2.priv))
  let owedMap := recNat z 0 256
  let owedPriv := recNat z 256 256
  { r with
    key := ⟨BitVec.ofNat 32 (recNat y 0 4), []⟩
    signers := if st = .issued then signers else []
    next := if bit (recNat y 0x30C 4) 0 then
        some (BitVec.ofNat 64 (recNat y 0x300 8), BitVec.ofNat 32 (recNat y 0x308 4), bit (recNat y 0x30C 4) 1)
      else none
    owed := (ths.filter (fun t => bit owedMap t.1)).map (fun t =>
      (t.1, if bit owedPriv t.1 then Priv.supervisor else .program))
    owedTval := BitVec.ofNat 64 (recNat y 0x3F8 8) }

/-- The number that a restored operation of q has: one for the four casts of a quartet. -/
def restoredOp (ck q : Nat) (w : Word) : Nat :=
  if isQmma w then 2 ^ 40 + ck / 4 * 16 + q else 2 ^ 41 + ck * 16 + q

/-- The issued operation of q in a cast block, at its recorded boundary (R252). -/
def opOf (b : List Byte) (ck : Nat) (key : Key) (q : Nat) (progress : DWord) : MatOp :=
  let y := (b.drop (0x2000 + 0x400 * q)).take 0x400
  let w : Word := BitVec.ofNat 32 (recNat y 0 4)
  let fn := isMpoly w || isMiter w
  let o := MatOp.cast (restoredOp ck q w) ck w (if bit (recNat y 4 4) 0 then .supervisor else .program) key
    (recordOf ((y.drop 0x50).take 256)) (recordOf ((y.drop 0x150).take 256))
    (if fn then (List.range 8).map (fun i => BitVec.ofNat 64 (recNat y (8 + 8 * i) 8)) else [])
  o.resume progress.toNat

/-- The place of the issued operation of q among those of its cast, and its q. -/
def opPlace (b : List Byte) (q : Nat) : Nat × Nat := (recNat (b.drop (0x2000 + 0x400 * q + 0x48)) 0 8, q)
/-- An issued operation placed among ordered ones. -/
def insertPlace (x : Nat × Nat) : List (Nat × Nat) → List (Nat × Nat)
  | [] => [x]
  | y :: rest => if x.1 < y.1 ∨ (x.1 = y.1 ∧ x.2 < y.2) then x :: y :: rest else y :: insertPlace x rest
/-- The registers whose operations are issued, in the matrix order that the image records (R252). -/
def issuedOrder (b : List Byte) (c : Cast) : List Nat :=
  (((List.range 16).filter (fun (q : Nat) => decide ((c.qreg q).state = QState.issued))).foldl
    (fun xs q => insertPlace (opPlace b q) xs) []).map (·.2)

/-- The engine operation of a record (R438), for a cast on a core. -/
def engineOf (b : List Byte) (ck gi cluster slot : Nat) : EngOp :=
  let ctl := recNat b 0x16 1
  let d (o : Nat) : DWord := BitVec.ofNat 64 (recNat b o 8)
  let o := EngOp.make (thrKey ck (recNat b 0x14 2)) (if bit ctl 2 then .supervisor else .program) ck gi cluster none
    (fld ctl 4 4) (BitVec.ofNat 32 (recNat b 0x10 4)) (d 0x18) (d 0x20) (d 0x28) (d 0x30)
  let pw := recNat b 0 8
  { o with
    slot := slot, owed := bit ctl 1, ftval := d 0x38, err := if bit ctl 1 then some (d 0x38) else none
    seq := recNat b 8 8 % 2 ^ 32
    base := if bit ctl 1 then 0 else match o.kind with
      | 0 => fld pw 28 32 / 16
      | 3 => fld pw 24 36 * 32
      | _ => fld pw 36 24 }

/-- An engine record that CTXLOAD refuses (R326, R433, R438), for a cast of ntid threads; P is the size of its
communicator. -/
def recordBad (b : List Byte) (ntid : Nat) (P : EngOp → Nat) : Bool :=
  let ctl := recNat b 0x16 1
  let w := recNat b 0x10 4
  let pw := recNat b 0 8
  let o := engineOf b 0 0 0 0
  let major := fld w 24 8
  let low := match o.kind with
    | 0 => 28
    | 3 => 24
    | _ => 36
  if !bit ctl 0 then b.any (· != 0)
  else
    bit ctl 3 || (decide (12 ≤ fld ctl 4 4) && decide (fld ctl 4 4 ≤ 14)) || recNat b 0x17 1 != 0 || decide (ntid ≤ recNat b 0x14 2) ||
      !(major == 0x9E && fld w 0 9 == 0 || major == 0x9C && decide (fld w 0 9 ≤ 2)) ||
      (o.indexed && fld w 14 5 == 31) || (!o.indexed && o.sa1 != 0) ||
      (o.kind == 3 && decide (2 ^ 32 ≤ recNat b 8 8)) || (o.kind != 3 && recNat b 8 8 != 0) ||
      (!bit ctl 1 && (o.ftval != 0 || fld pw 60 4 != 7 + o.kind || fld pw 0 low != 0 ||
        (o.kind == 0 && (fld pw 28 32 % 128 != 0 || decide (fld o.ctl 0 32 ≤ fld pw 28 32))) ||
        (o.kind == 0 && o.seal != 0 && fld pw 28 32 != 0) ||
        (o.kind != 0 && decide (o.items (P o) ≤ o.base))))

/-- The cast registers of an image's block (R367); a curve is taken as it stands, also one that breaks R109 (log 8). -/
def Cast.ofBlock (c : Cast) (b : List Byte) (ck : Nat) (ths : List (Nat × Thread)) : Cast :=
  let r (o n : Nat) : Nat := recNat b o n
  let csr := (b.drop 0x1C00).take 0x100
  let w (o : Nat) : DWord := BitVec.ofNat 64 (recNat csr o 8)
  let col (o n : Nat) (m : DWord) : Tab DWord :=
    (List.range n).foldl (fun (t : Tab DWord) i => tset t i (w (o + 8 * i) &&& m) 0) []
  { c with
    tvec := w 0 &&& 0x00FF_FFFF_FFFF_FFFD
    notify := bit (recNat csr 8 8) 32, ticks := Nat.max 1000 (fld (recNat csr 8 8) 0 32)
    rdvto := Nat.min (fld (recNat csr 0x10 8) 0 25) (2 ^ 24)
    bpaddr := col 0x18 8 0x00FF_FFFF_FFFF_FFFC, bpctl := col 0x58 8 bpctlMask
    wpaddr := col 0x98 4 addr56, wpctl := col 0xB8 4 wpctlMask
    qmmas := recNat csr 0xD8 8
    q := (List.range 16).foldl (fun (t : Tab QReg) q => tset t q (qregOf b ck ths (c.qreg q) q) QReg.initial) []
    vt := (List.range 16).foldl (fun (t : Tab VRec) n => match recordOf ((b.drop (0x200 + 256 * n)).take 256) with
      | some x => tput t n x
      | none => t) []
    curves := [1, 2, 3].foldl (fun (t : Tab Curve) n =>
      let f := r (0x1380 + n - 1) 1
      if f = 0 then t
      else tput t n ⟨(List.range 16).map (fun i => BitVec.ofNat 64 (r (0x1200 + 128 * (n - 1) + 8 * i) 8)), f == 2⟩) [] }

/-- A tile from its entry. -/
def Core.putTile (k : Core) (d : Nat) (b : List Byte) : Core :=
  let w (o : Nat) : Nat := recNat b (16384 + o) 8
  (k.setTile d ((groups 3 4096 b).map (fun x => BitVec.ofNat 32 (leNat x)))).setStatus d
    ⟨BitVec.ofNat 9 (w 0), BitVec.ofNat 64 (w 8), BitVec.ofNat 32 (w 16), BitVec.ofNat 32 (w 24)⟩

/-- The tiles of an image, onto a core. -/
def Core.putTiles (k : Core) : List Nat → List Byte → Core
  | [], _ => k
  | d :: rest, b => (k.putTile d b).putTiles rest (b.drop 16448)

/-- The key of the fault that a restored record owes: that of the fault itself where the cast has it, else now (R346, log 35). -/
def State.owedKey (s : State) (ck i : Nat) (o : EngOp) : Key :=
  match (s.cast ck).bind (fun c => tfind c.owedKeys i) with
  | some x => if x.1 = o.ftval then x.2 else s.nowKey o.agent
  | none => s.nowKey o.agent

/-- The engine operations of a cast block resume, each from DONE (R326); a rank of a collective joins it again (R433). -/
def State.resumeEngines (s : State) (ck gi cluster : Nat) (b : List Byte) : List Nat → State
  | [] => s
  | i :: rest =>
    let r := (b.drop (0x1400 + 64 * i)).take 64
    if !bit (recNat r 0x16 1) 0 then s.resumeEngines ck gi cluster b rest
    else
      let o0 := engineOf r ck gi cluster i
      let ms := s.members o0
      let k := ((s.cast ck).map Cast.onCore).getD 0
      let rank := (List.range ms.length).find? (fun j =>
        let m := ms.getD j 0
        memberModule m == s.dev.number && memberTag m == gi && s.nameOf gi k == some (memberName m))
      let o := { o0 with
        limit := o0.items (Nat.max ms.length 1), rank := rank.getD 0, errKey := s.owedKey ck i o0
        stopped := o0.kind == 3 && rank.isNone && !o0.owed }
      let s1 := if o.kind = 3 ∧ !o.stopped ∧ !o.owed then
          s.contribute o (fun x => { x with ctls := tput x.ctls o.rank o.sb, left := x.left.filter (· != o.rank) })
        else s
      ({ s1.putEng s1.nextOp o with nextOp := s1.nextOp + 1 } : State).resumeEngines ck gi cluster b rest

/-- A snapshot that its thread waits for, or that has ended meanwhile, for a thread that is admitted again (R391, R395). -/
def Gallery.resumeSnap (g : Gallery) (tk : Nat) (t : Thread) : Thread :=
  let t1 : Thread := match g.snapOwed.find? (fun x => x.tk == tk) with
    | some x => (t.putUni (x.reg - 64) (BitVec.ofNat 64 x.status)).decCue x.cue
    | none => t
  match g.snap with
  | some n => if n.tk = tk then { t1 with outst := [⟨n.op, n.cue, [n.reg], [], false, none, 0, none⟩] } else t1
  | none => t1

/-- A thread of an image, as its cast takes it up. -/
def State.restored (s : State) (ck : Nat) (c : Cast) (p : Prod) (img : List Byte) (i : Nat) : Thread :=
  let v := (tfind c.views i).getD ⟨[], Key.zero, s.hostCount, [], 0⟩
  let t := Thread.ofBlock p c.gidx i s.tick v ((img.drop (0x100 + 640 * i)).take 640)
  let t1 := if c.haltReq then t.requestHalt else t
  match s.gal c.gallery with
  | some g => g.resumeSnap (thrKey ck i) t1
  | none => t1

/-- An issued operation of a restored cast: where it is the one that stopped when the cast left its core, it goes on with the
operand lines that it had read (R239, R247, R267). -/
def Cast.rejoined (c : Cast) (gen : Nat) (o : MatOp) : MatOp :=
  match tfind c.fetched o.q with
  | some (n, x) =>
    if n = gen ∧ x.word = o.word ∧ x.ra = o.ra ∧ x.rb = o.rb then
      { o with
        key := x.key, hosts := x.hosts, bytesA := x.bytesA, bytesB := x.bytesB, gotA := x.gotA, gotB := x.gotB
        deadA := x.deadA, deadB := x.deadB }
    else o
  | none => o

/-- A cast takes up its image on a core, whose next accesses come after all that the cast made before (R252, R304, R326, R365,
R370). -/
def State.restore (s00 : State) (ck k : Nat) (c : Cast) (p : Prod) (img : List Byte) : State :=
  let s0 := s00.putPts k (Nat.max (s00.pts k) c.lastT)
  let ths := (List.range c.ntid).map (fun i => (i, s0.restored ck c p img i))
  let s : State := { s0 with gals := tmod s0.gals c.gallery (fun g => { g with
    snapOwed := g.snapOwed.filter (fun x => castOf x.tk != ck)
    imaged := if c.image = some .reserve then g.imaged - c.imageSize else g.imaged }) }
  let toff := imageToff c.ntid
  let b := (img.drop toff).take 0x8000
  let c1 := { c.ofBlock b ck ths with
    res := .core k, image := none, haltReq := false, fq := [], stop := none, notified := none, sliceStart := s.tick
    views := [], fetched := [] }
  let core := s.core k
  let core1 := core.putTiles (maskTiles c.amask) (img.drop (toff + 0x8000 + c.spsize))
  let core2 := if c.cgrant then
      { core1 with coef := (List.range 8).foldl (fun (t : Tab Word) i =>
          tset t i (BitVec.ofNat 32 (recNat b (0x1CE0 + 4 * i) 4)) 0) [] }
    else core1
  let core3 := { core2 with
    order := core2.order ++ (issuedOrder b c1).map (fun (q : Nat) =>
      c.rejoined (c1.qreg q).gen.toNat { opOf b ck (s.nowKey k) q (c1.qreg q).progress with hosts := s.hostCount }) }
  let mem := setBytes (clearCells s.mem (Loc.scratch ck 0).cell (2 ^ 41)) (Loc.scratch ck 0).cell
    ((img.drop (toff + 0x8000)).take c.spsize)
  let s1 := { s with mem := mem, threads := ths.foldl (fun (t : Tab Thread) (x : Nat × Thread) => tput t (thrKey ck x.1) x.2) s.threads }
  let s2 := (s1.putC ck c1).putCore k (core3.giveSlots ck (s.clock (tileOf k)) (c.ntid / 32))
  (s2.ptsAfter (engineAgent (clusterOf k)) (s2.nowKey k)).resumeEngines ck c.gallery (clusterOf k) b (List.range 32)

/-! ## The checks of CTXLOAD (R370, R408) -/

/-- A header that is wrong: order 2. -/
def headerBad (h : List Byte) : Bool :=
  let flags := recNat h 6 2
  let size := recNat h 8 8
  recNat h 0 4 != 0x474D_4943 || recNat h 4 2 != 1 || decide (4 ≤ flags) || size % 4096 != 0 || decide (size < 0xE000) ||
    decide (imageSizeOf 2048 (34 * 65536) 8 < size) || recNat h 0x1C 4 != 0 || recNat h 0x28 8 != 0 ||
    ((h.drop 0x50).take 32).any (· != 0) || (h.drop 0x78).any (· != 0)

/-- Order 7: the progress words of issued operations, and the engine records. -/
def State.blockBad (s : State) (c : Cast) (b : List Byte) : Bool :=
  (List.range 16).any (fun q =>
    let x := (b.drop (32 * q)).take 32
    let y := (b.drop (0x2000 + 0x400 * q)).take 0x400
    fld (recNat x 0x0C 1) 1 2 == 2 &&
      (let w : Word := BitVec.ofNat 32 (recNat y 0 4)
       let k := match recordOf ((y.drop 0x50).take 256) with
         | some r => dK r.desc.toNat
         | none => 0
       progressBad w k (recNat x 0x10 8))) ||
  (List.range 32).any (fun i =>
    recordBad ((b.drop (0x1400 + 64 * i)).take 64) c.ntid
      (fun o => Nat.max (s.members { o with gallery := c.gallery }).length 1))

/-- The casts of a cast's ensemble in its node. -/
def ensembleOf (p : Prod) (ck : Nat) : List Nat :=
  let g := ck % 65536 / p.cpe * p.cpe
  (List.range p.cpe).map (fun i => ck / 65536 * 65536 + g + i)

/-- Order 8: the cast is resident or queued, or another cast of its ensemble is resident. -/
def State.placedElsewhere (s : State) (p : Prod) (ck : Nat) (c : Cast) : Bool :=
  c.placed || decide (c.res = .available) ||
    (ensembleOf p ck).any (fun j => j != ck && (match s.cast j with
      | some x => x.placed
      | none => false))

/-- The cast that RECORD and CASTIDX of a header name, in STATE 4 (order 3); one that was never placed waits in the ready
queue. -/
def State.imageCast (s : State) (gi : Nat) (h : List Byte) : Option (Nat × Cast × Prod) :=
  match s.nodeAt gi (BitVec.ofNat 64 (recNat h 0x10 8)) with
  | none => none
  | some (n, p) =>
    let ck := castKey n (recNat h 0x18 4)
    if p.started && !p.isCopy && decide (recNat h 0x18 4 < p.total) then
      some (ck, (s.cast ck).getD (Cast.fresh n (recNat h 0x18 4) p .available s.tick), p)
    else none

/-- What CTXLOAD answers: a trap, or a code, with the cast, its image as read and its image opened where the code is 0. -/
def State.checkImage (s : State) (agent gi : Nat) (priv : Priv) (a : DWord) :
    Res (State × Nat × Option (Nat × Cast × List Byte × List Byte)) :=
  match s.gal gi with
  | none => .fault .noSuchAddress
  | some g =>
    (s.reach agent gi priv a 128 .read).bind (fun _ =>
      (s.readBulk gi priv agent a 256).bind (fun (s1, h, _) =>
        if headerBad h then .ok (s1, 1, none)
        else
          match s1.imageCast gi h with
          | none => .ok (s1, 2, none)
          | some (ck, c, p) =>
            let size := recNat h 8 8
            if size ≠ c.imageSize then .ok (s1, 1, none)
            else
              (s1.extentFails gi priv .read a.toNat size).bind (fun bad =>
                match bad with
                | some (x, fk) => .trap (pageFault (BitVec.ofNat 64 x) fk .read)
                | none =>
                  (s1.readBulk gi priv agent a size).bind (fun (s2, img, _) =>
                    let prot := bit (recNat h 6 2) 0
                    let cnt := recNat h 0x20 8
                    let keys := galleryKeys g (ctxLabel p.recAddr c.gidx)
                    if prot != g.protect || (prot && (tfind g.cur ck != some (BitVec.ofNat 64 cnt) ||
                        (img.drop 0x30).take 32 != imageTag keys img)) then .ok (s2, 4, none)
                    else
                      let plain := if prot then sealBody true keys cnt img else img
                      if s2.blockBad c ((plain.drop (imageToff c.ntid)).take 0x8000) then .ok (s2, 3, none)
                      else if s2.placedElsewhere p ck c then .ok (s2, 5, none)
                      else .ok (s2, 0, some (ck, c, img, plain))))))

end Sys2Proof.Machine
end

