-- ==== Sys2Proof/Machine/Office.lean ====
section
/-! DEFINITION. The box office: the end of a cast (03_thread_execution.md R85), the order of service of the ready queue
(16_package_launch_power.md R350), placement and its arithmetic (R351 to R354, R357, R358; 09_core.md R209, R210),
admission (R59, R344, R365), gating (R361) and time slices (R363, R364). -/
namespace Sys2Proof.Machine

/-! ## Casts and the cores that hold them -/

/-- The core that a cast takes room on: it is on it, kept on it, or placed on it while it wakes. -/
def Cast.seat (c : Cast) : Option Nat :=
  match c.res with
  | .waking k | .core k | .kept k => some k
  | _ => none

/-- The casts that take room on a core, and on the cores of a cluster. -/
def State.castsOn (s : State) (k : Nat) : List (Nat × Cast) := s.casts.filter (fun p => p.2.seat == some k)
def State.castsIn (s : State) (cluster : Nat) : List (Nat × Cast) :=
  s.casts.filter (fun p => match p.2.seat with
    | some k => clusterOf k == cluster
    | none => false)

/-- What a thread keeps of its accesses while it is off every core. -/
def Thread.view (t : Thread) : View := ⟨t.seen, t.fenceR, t.hostFrom, t.hostLines, t.repFrom⟩

/-- The issued operations of a cast in a core's matrix order, by register, each with its GEN. -/
def Cast.stopped (c : Cast) (ck : Nat) (order : List MatOp) : Tab (Nat × MatOp) :=
  (order.filter (fun o => o.ck == ck && o.tk.isNone)).foldl (fun t o => tput t o.q ((c.qreg o.q).gen.toNat, o)) []

/-- A cast leaves a core: its slots, choruses, places in matrix order, threads and scratchpad go; it keeps what orders the
accesses that it makes later, and the operand lines of its stopped operations (R239, R304, R305). -/
def State.vacate (s : State) (ck k : Nat) : State :=
  let core := s.core k
  let alone := (s.castsOn k).all (fun p => p.1 == ck)
  let views := (s.castThreads ck).foldl (fun (t : Tab View) x => tput t x.1 x.2.view) []
  let top := Nat.max (s.pts k) (s.pts (engineAgent (clusterOf k))) + 1
  { s.putCore k { core with
      slots := core.slots.filter (fun p => p.2.ck != ck)
      chorus := core.chorus.filter (fun p => p.2.ck != ck)
      order := core.order.filter (fun o => o.ck != ck)
      hold := if alone then s.tick else core.hold } with
    casts := tmod s.casts ck (fun c =>
      { c with
        views := if views.isEmpty then c.views else views
        fetched := if views.isEmpty then c.fetched else c.stopped ck core.order
        lastT := Nat.max c.lastT top })
    threads := s.threads.filter (fun p => castOf p.1 != ck)
    mem := clearCells s.mem (Loc.scratch ck 0).cell (2 ^ 40) }

/-- Every thread is Exited and every operation of the cast has completed (R81, R85). -/
def State.castDone (s : State) (ck k : Nat) (c : Cast) : Bool :=
  (s.castThreads ck).all (fun p => decide (p.2.run = .exited) && p.2.outst.isEmpty) &&
    !s.ops.any (fun p => p.2.node.isNone && p.2.ck == ck) && !(s.core k).order.any (fun o => o.ck == ck) &&
    !c.q.any (fun p => decide (p.2.state = .issued))

/-- A cast has ended: it keeps no resource, and the node of which it is the last finishes (R85, R345). -/
def State.endCast (s : State) (ck : Nat) (c : Cast) : State :=
  let s0 := match c.seat with
    | some k => (s.putC ck c).vacate ck k
    | none => s.putC ck c
  let s1 := { s0 with casts := tmod s0.casts ck (fun x =>
    { x with res := .ended, stop := none, notified := none, fq := [], vt := [], live := 0, fetched := [] }) }
  let s2 := { s1 with
    mem := clearCells s1.mem (Loc.scratch ck 0).cell (2 ^ 41)
    prods := tmod s1.prods c.prod (fun p => { p with ended := p.ended + 1 }) }
  match tfind s2.prods c.prod with
  | some p => if p.ended = p.casts then s2.finishNode c.prod else s2
  | none => s2

/-- CAST_END: the cast has ended, and frees its resources (R85). -/
def execCastEnd (ck : Nat) (s : State) : Out :=
  match s.cast ck with
  | some c =>
    match c.coreNo with
    | some k => if s.castDone ck k c then .next (s.endCast ck c) else .next s
    | none => .next s
  | none => .next s

/-! ## The order of service (R350) -/

/-- Ticks that an ensemble has waited. -/
def Wait.waited (w : Wait) (tick : Nat) : Nat := w.wage + (tick - w.since)
/-- The launch priority of a node. -/
def State.nodePrio (s : State) (n : Nat) : Nat := match tfind s.prods n with
  | some p => p.prio
  | none => 0
/-- The effective priority of a waiting ensemble. -/
def State.waitPrio (s : State) (w : Wait) : Nat := Nat.min 7 (s.nodePrio w.node + w.waited s.tick / 100000)

/-- What orders the queue: effective priority, wait, creation key, ensemble index. -/
def State.waitRank (s : State) (w : Wait) : Nat × Nat × Key × Nat :=
  let p := tfind s.prods w.node
  let key := match p with
    | some x => x.key
    | none => Key.zero
  let epc := match p with
    | some x => x.epc
    | none => 0
  (s.waitPrio w, w.waited s.tick, key, w.company * epc + w.ensemble)

/-- The first is served before the second. -/
def rankBefore (a b : Nat × Nat × Key × Nat) : Bool :=
  decide (b.1 < a.1) || (a.1 == b.1 && (decide (b.2.1 < a.2.1) || (a.2.1 == b.2.1 &&
    (a.2.2.1.before b.2.2.1 || (decide (a.2.2.1 = b.2.2.1) && decide (a.2.2.2 < b.2.2.2))))))

/-- A waiting ensemble placed among ordered ones. -/
def State.insertWait (s : State) (w : Wait) : List Wait → List Wait
  | [] => [w]
  | x :: rest => if rankBefore (s.waitRank w) (s.waitRank x) then w :: x :: rest else x :: s.insertWait w rest

/-- The ready queue in the order of service. -/
def State.inService (s : State) (ws : List Wait) : List Wait := ws.foldr (fun w xs => s.insertWait w xs) []

/-! ## Companies and tiles (R352) -/

/-- The casts of an ensemble: key and global cast index, in CASTID order. -/
def ensembleCasts (n : Nat) (p : Prod) (company ensemble : Nat) : List (Nat × Nat) :=
  (List.range p.cpe).map (fun i =>
    let g := (company * p.epc + ensemble) * p.cpe + i
    (castKey n g, g))

/-- The cast has ended. -/
def State.castEnded (s : State) (ck : Nat) : Bool := match s.cast ck with
  | some c => decide (c.res = .ended)
  | none => false

/-- Every cast of a company has ended. -/
def State.companyEnded (s : State) (n : Nat) (p : Prod) (company : Nat) : Bool :=
  (List.range (p.epc * p.cpe)).all (fun i => s.castEnded (castKey n (company * (p.epc * p.cpe) + i)))

/-- The position of a company: where it is bound, else the first that holds no other company of the production. -/
def State.positionFor (s : State) (n : Nat) (p : Prod) (g : Gallery) (company : Nat) : Option Nat :=
  match tfind p.bind company with
  | some t => some t
  | none => (List.range g.tiles.length).find? (fun t =>
      !p.bind.any (fun b => b.2 == t && !s.companyEnded n p b.1))

/-! ## Arithmetic (R209, R210, R353, R354, R358) -/

/-- Register area of a resident cast (R210). -/
def Cast.regArea (c : Cast) : Nat := roundUp4K (c.ntid * (4 * c.vbud + 8 * c.sbud))
def sumNat (xs : List Nat) : Nat := xs.foldl (· + ·) 0

/-- Steps 1 and 2 of R353 for one more cast of a node on a core, which holds no other cast of it (R13). -/
def State.coreFits (s : State) (k n : Nat) (p : Prod) : Bool :=
  let cs := (s.castsOn k).map (·.2)
  let units := if cs.isEmpty then (p.regs, p.scr) else ((s.core k).splitR, (s.core k).splitS)
  s.coreGood k && cs.all (fun c => c.prod != n) &&
    decide (sumNat (cs.map Cast.regArea) + recRegs p.bytes ≤ units.1 * 65536) &&
    decide (sumNat (cs.map (·.spsize)) + recSpsize p.bytes ≤ units.2 * 65536) &&
    decide (sumNat (cs.map (·.ntid)) + p.ntid ≤ Config.coreThreads) &&
    decide (sumNat (cs.map (fun c => c.ntid / 32)) + p.ntid / 32 ≤ Config.wingSlots) &&
    cs.all (fun c => c.amask &&& BitVec.ofNat 8 p.amask == 0 && !(c.cgrant && p.cgrant))

/-- Energy that the floors of other nodes hold back at a cluster (R358). -/
def State.reserve (s : State) (n : Nat) (p : Prod) (cluster : Nat) : Nat :=
  sumNat ((s.liveNodes p.gallery).map (fun x =>
    if x.1 == n || x.2.isCopy then 0
    else
      floorEighths x.2.floorClass * 7000 -
        sumNat (((s.castsIn cluster).filter (fun c => c.2.prod == x.1)).map (fun c => c.2.energy))))

/-- SHARE of a band, in thousandths (R353). -/
def shareOf (band : Nat) : Int := if band = 0 then 16 else if band = 1 then 32 else 64

/-- The coefficient TC of a cluster in µ°C per nJ (R354). -/
def thermalCoef (cluster : Nat) : Nat := 300 + Config.thermalCoefficient cluster % 401

/-- The refresh charge of a cast placed now (R354). -/
def State.chargeFor (s : State) (p : Prod) (cluster : Nat) : Int :=
  let c := s.cluster cluster
  let pred := c.temp * 1000000 + thermalCoef cluster * (p.energy + c.spent)
  let band := if pred < 85000000 then 0 else if pred < 95000000 then 1 else 2
  shareOf band - shareOf c.band + p.bw

/-- Steps 3 to 5 of R353 for one more cast of a node. -/
def State.clusterFits (s : State) (cluster n : Nat) (p : Prod) : Bool :=
  let cs := (s.castsIn cluster).map (·.2)
  decide (sumNat (cs.map (·.energy)) + p.energy + s.reserve n p cluster ≤ 56000) &&
    decide (sumNat (cs.map (·.current)) + p.current ≤ 24000) &&
    decide (shareOf (s.cluster cluster).band + (cs.map (·.charge)).foldl (· + ·) 0 + s.chargeFor p cluster ≤ 1000)

/-! ## Admission -/

/-- The node starts with its first cast: STATE 4, and the code that its threads fetch (R28, R345). -/
def State.startNode (s : State) (n : Nat) (p : Prod) : State :=
  if p.started then s
  else
    let r : State × Key := match s.reachHw p.gallery p.recAddr 128 .rmw with
      | some (s1, l) => s1.put curatorAgent (l.plus 0x7E) (leBytes 1 4)
      | none => s.nextKey curatorAgent 0
    { r.1 with prods := tput r.1.prods n { p with started := true, startKey := r.2, startHost := s.hostCount, code := r.1.mem } }

/-- Granted tiles and coefficients read zero (R241, R268, R269). -/
def Core.clearGrants (k : Core) (amask : BitVec 8) (cgrant : Bool) : Core :=
  let k1 := (maskTiles amask).foldl (fun (x : Core) d => (x.setTile d []).clearStatus d) k
  if cgrant then { k1 with coef := [] } else k1

/-- A cast starts afresh on a core; a halt asked for before is delivered to its threads (R59, R203, R211, R344). -/
def State.admitFresh (s : State) (ck k : Nat) (c : Cast) (p : Prod) : State :=
  let new := { Cast.fresh c.prod c.gidx p (.core k) s.tick with charge := c.charge, wage := c.wage }
  let core := ((s.core k).clearGrants new.amask new.cgrant).giveSlots ck (s.clock (tileOf k)) (p.ntid / 32)
  let s1 := { s with mem := clearCells s.mem (Loc.scratch ck 0).cell (2 ^ 41) }
  let s2 := ((s1.putC ck new).putCore k core).putThreads ck c.gidx p (List.range p.ntid)
  if c.haltReq then s2.haltCast ck none else s2

/-- The image that a cast's admission restores, opened; none where its area cannot be read or it is not whole (R365,
R407). -/
def State.readImage (s : State) (ck : Nat) (c : Cast) (p : Prod) (a : ImageAt) : Option (State × List Byte) :=
  let raw : Res (State × List Byte × Bool) := match a with
    | .area x => s.readBulk c.gallery .supervisor curatorAgent x c.imageSize
    | .reserve | .loaded => .ok (s, bytesAt s.mem (heldImage ck).cell c.imageSize, false)
  match s.gal c.gallery, raw with
  | some g, .ok (s1, img, _) =>
    let cnt := recNat img 0x20 8
    let keys := galleryKeys g (ctxLabel p.recAddr c.gidx)
    if headerBad (img.take 256) || recNat img 8 8 != c.imageSize then none
    else if !g.protect then some (s1, img)
    else if tfind g.cur ck == some (BitVec.ofNat 64 cnt) && (img.drop 0x30).take 32 == imageTag keys img then
      some (s1, sealBody true keys cnt img)
    else none
  | _, _ => none

/-- A placed cast is admitted to its core, whose accesses come after the start of its production (R59, R305, R361, R365). -/
def State.letIn (s : State) (ck k : Nat) : State :=
  match s.cast ck with
  | none => s
  | some c =>
    match tfind s.prods c.prod with
    | none => s
    | some p =>
      let s0 := s.startNode c.prod p
      let s1 := s0.ptsAfter k (s0.startOf c.prod)
      match c.image with
      | none => s1.admitFresh ck k c p
      | some a =>
        match s1.readImage ck c p a with
        | some (s2, img) => s2.restore ck k c p img
        | none => s1

/-! ## Placement -/

/-- A cast is placed on a core: the split of an empty core is set, the cluster's terms are charged, and a gated core is
asked to wake (R209, R353, R361). -/
def State.placeCast (s : State) (ck gidx k : Nat) (n : Nat) (p : Prod) (waited : Nat) : State :=
  let cl := clusterOf k
  let charge := s.chargeFor p cl
  let core := s.core k
  let core1 := if (s.castsOn k).isEmpty then { core with splitR := p.regs, splitS := p.scr } else core
  let core2 := if core.gated && core.waking.isNone then { core1 with waking := some s.nextOp } else core1
  let c := match s.cast ck with
    | some x => { x with res := .waking k, charge := charge, wage := waited, energy := p.energy, current := p.current }
    | none => { Cast.fresh n gidx p (.waking k) s.tick with charge := charge, wage := waited }
  let s1 := (s.putC ck c).putCore k core2
  let s2 := s1.putCluster cl { s1.cluster cl with spent := (s1.cluster cl).spent + p.energy }
  { s2 with nextOp := s2.nextOp + 1 }

/-- The cores of a cluster, ungated ones first (R352). -/
def State.coreOrder (s : State) (cluster : Nat) : List Nat :=
  let ks := (List.range 4).map (cluster * 4 + ·)
  ks.filter (fun k => !(s.core k).gated) ++ ks.filter (fun k => (s.core k).gated)

/-- The casts of an ensemble, each on the first core that fits; none where one fits nowhere (R351, R352). -/
def State.placeAll (s : State) (cluster n : Nat) (p : Prod) (waited : Nat) : List (Nat × Nat) → Option State
  | [] => some s
  | (ck, gidx) :: rest =>
    if s.castEnded ck then s.placeAll cluster n p waited rest
    else if !s.clusterFits cluster n p then none
    else
      match (s.coreOrder cluster).find? (fun k => s.coreFits k n p) with
      | none => none
      | some k => (s.placeCast ck gidx k n p waited).placeAll cluster n p waited rest

/-- The first of some clusters that takes the ensemble. -/
def State.firstCluster (s : State) (n : Nat) (p : Prod) (waited : Nat) (cks : List (Nat × Nat)) :
    List Nat → Option (Nat × State)
  | [] => none
  | cl :: rest =>
    match s.placeAll cl n p waited cks with
    | some s1 => some (cl, s1)
    | none => s.firstCluster n p waited cks rest

/-- A placed cast may start: its gallery is open, and its ensemble is not being stopped (R366, R391). -/
def State.mayStart (s : State) (ck : Nat) : Bool :=
  match s.cast ck with
  | none => false
  | some c =>
    (match s.gal c.gallery with
      | some g => decide (g.state = .opened)
      | none => false) &&
    (match tfind s.prods c.prod with
      | some p => (ensembleOf p ck).all (fun j => match s.cast j with
        | some x => decide (x.stop ≠ some .preempt)
        | none => true)
      | none => false)

/-- Casts that were placed on awake cores are admitted. -/
def State.admitPlaced (s : State) : List (Nat × Nat) → State
  | [] => s
  | (ck, _) :: rest =>
    match (s.cast ck).map Cast.res with
    | some (.waking k) => (if (s.core k).gated || !s.mayStart ck then s else s.letIn ck k).admitPlaced rest
    | _ => s.admitPlaced rest

/-- The images that casts of an ensemble resume from can be read. -/
def State.imagesReadable (s : State) (p : Prod) (cks : List (Nat × Nat)) : Bool :=
  cks.all (fun x => match s.cast x.1 with
    | some c => (match c.image with
      | some a => (s.readImage x.1 c p a).isSome
      | none => true)
    | none => true)

/-- An ensemble that may run is offered to the clusters of its company's tile, from the one after the last taken (R331,
R352). -/
def State.tryPlace (s : State) (gi : Nat) (g : Gallery) (w : Wait) (p : Prod) (t : Nat) : Option State :=
  let tile := g.tiles.getD t 0
  let cks := ensembleCasts w.node p w.company w.ensemble
  let order := (List.range 40).map (fun i => tile * 40 + ((s.tile tile).cursor + 1 + i) % 40)
  if !s.mayRun w.node p || !s.imagesReadable p cks then none
  else
    match s.firstCluster w.node p (w.waited s.tick) cks order with
    | none => none
    | some (cl, s1) =>
      let s2 := s1.putTile tile { s1.tile tile with cursor := cl % 40 }
      let s3 := { s2 with
        prods := tmod s2.prods w.node (fun x => { x with bind := tput x.bind w.company t })
        gals := tmod s2.gals gi (fun x => { x with ready := x.ready.filter (· != w) }) }
      some (s3.admitPlaced cks)

/-- One pass: every waiting ensemble in order; the tiles that blockers hold take no later one (R351). -/
def State.passOver (gi : Nat) : List Wait → List Nat → State → State
  | [], _, s => s
  | w :: rest, blocked, s =>
    match tfind s.prods w.node, s.gal gi with
    | some p, some g =>
      match s.positionFor w.node p g w.company with
      | none => State.passOver gi rest blocked s
      | some t =>
        match (if blocked.contains t then none else s.tryPlace gi g w p t) with
        | some s1 => State.passOver gi rest blocked s1
        | none => State.passOver gi rest (if w.blocker then t :: blocked else blocked) s
    | _, _ => State.passOver gi rest blocked s

/-- BOX_OFFICE_PASS (R351). -/
def execBoxOfficePass (gi : Nat) (s : State) : Out :=
  match s.gal gi with
  | none => .next s
  | some g => if g.state = .opened then .next (State.passOver gi (s.inService g.ready) [] s) else .next s

/-- BLOCKER_TIMEOUT: ensembles that have waited 200,000 ticks become blockers (R351). -/
def execBlockerTimeout (gi : Nat) (s : State) : Out :=
  match s.gal gi with
  | none => .next s
  | some g =>
    .next (s.putG gi { g with ready := g.ready.map (fun w =>
      if 200000 ≤ w.waited s.tick then { w with blocker := true } else w) })

/-! ## Gating (R361) -/

/-- CORE_GATE: a core that has held no cast for the hold is gated. -/
def execCoreGate (core : Nat) (s : State) : Out :=
  let k := s.core core
  if !k.gated && (s.castsOn core).isEmpty && decide (k.hold + 2000 ≤ s.tick) then
    .next (s.putCore core { k with gated := true })
  else .next s

/-- The wake asked for first in a core's cluster. -/
def State.wakesFirst (s : State) (core n : Nat) : Bool :=
  (List.range 4).all (fun i => match (s.core (clusterOf core * 4 + i)).waking with
    | some m => decide (n ≤ m)
    | none => true)

/-- CORE_WAKE_COMPLETE: the core is awake, and the casts placed on it are admitted. -/
def execCoreWakeComplete (core : Nat) (s : State) : Out :=
  let k := s.core core
  match k.waking with
  | none => .next s
  | some n =>
    if s.wakesFirst core n then
      let s1 := s.putCore core { k with gated := false, waking := none, hold := s.tick }
      .next (s1.admitPlaced ((s1.castsOn core).map (fun p => (p.1, p.2.gidx))))
    else .next s

/-! ## Time slices (R364) -/

/-- Every thread that is not Exited has taken HALT and has not returned (R364). -/
def State.haltedByDebugger (s : State) (ck : Nat) : Bool :=
  let ts := ((s.castThreads ck).map (·.2)).filter (fun t => !decide (t.run = .exited))
  !ts.isEmpty && ts.all (fun t => t.haltIn)

/-- The cast runs under its slice: on a core of an open gallery, and not being stopped. -/
def State.slicing (s : State) (c : Cast) : Bool :=
  c.coreNo.isSome && c.stop.isNone && (match s.gal c.gallery with
    | some g => decide (g.state = .opened)
    | none => false)

/-- A slice that has run expires, and threads are notified where NOTIFY is set. -/
def State.sliceEnds (s : State) (ck : Nat) : State :=
  match s.cast ck with
  | none => s
  | some c =>
    if s.slicing c && c.notified.isNone && !s.haltedByDebugger ck && decide (c.sliceStart + c.ticks ≤ s.tick) then
      let s1 := s.putC ck { c with notified := some s.tick }
      if c.notify then
        { s1 with threads := tmap s1.threads (fun tk t => if castOf tk == ck then t.requestSlice else t) }
      else s1
    else s

/-- SLICE_EXPIRY. -/
def execSliceExpiry (ck : Nat) (s : State) : Out := .next (s.sliceEnds ck)

/-- A thread still has SLICE to take or to return from. -/
def Thread.inSlice (t : Thread) : Bool :=
  !decide (t.run = .exited) && (t.sliceDue || t.tstat.pendSlice || t.sliceIn)

/-- Step 1 of R364 is over. -/
def State.noticeOver (s : State) (ck t : Nat) : Bool :=
  decide (t + 100000 ≤ s.tick) || (s.castThreads ck).all (fun p => !p.2.inSlice)

end Sys2Proof.Machine
end

