-- ==== Sys2Proof/Machine/Stops.lean ====
section
/-! DEFINITION. Stopping casts (16_package_launch_power.md R365, R366, R369; 11_cluster_matrix.md R252, R262;
15_die_engines_refresh.md R326): pre-emption, the stop of a quiesce, SLICE_DECISION, CTXSAVE and CTXLOAD (R368 to R370;
20_package_protection.md R407, R408; 21_program_protected_preemption.md R414). -/
namespace Sys2Proof.Machine

/-! ## When a cast stands still: steps 1 to 7 of R365 -/

/-- The thread is stopped where it is, or will execute nothing before its next scene. -/
def Thread.still (t : Thread) : Bool :=
  match t.run with
  | .member =>
    match t.held with
    | some (.rdv _ _) | some (.sign _ _ _ _) | some (.bar _ _ _) | some (.gbar _ _ _ _) | some (.ctxsave _) => true
    | some _ => false
    | none => !t.inScene
  | _ => true

/-- An issued operation stands at a boundary at which it may stop; the four parts of a QMMA at the same one (R252, R262,
R284). -/
def State.opStill (s : State) (o : MatOp) : Bool :=
  !o.finished && o.atStop && (!isQmma o.word || (s.opParts o).all (fun p => p.2.groups == o.groups))

/-- The operation is the snapshot in flight of a gallery, whose stream only pauses under a stop (R391). -/
def State.isSnap (s : State) (gi : Nat) (o : Outst) : Bool :=
  match (s.gal gi).bind Gallery.snap with
  | some n => n.op == o.op
  | none => false

/-- The cast has come through steps 1 to 6 of R365, and none of its engine operations is about to complete. A core whose
compute is off executes nothing more (R380). -/
def State.castStill (s : State) (ck k : Nat) : Bool :=
  let gi := ((s.cast ck).map Cast.gallery).getD 0
  (s.castThreads ck).all (fun p => (p.2.still || (s.core k).routerOnly) && p.2.outst.all (s.isSnap gi)) &&
    (s.core k).order.all (fun o => o.ck != ck || (o.tk.isNone && s.opStill o)) &&
    !s.ops.any (fun p => p.2.node.isNone && p.2.ck == ck && !p.2.owed && p.2.finished)

/-! ## Engine operations at rest (R326) -/

/-- Elements in one step of DONE. -/
def EngOp.grain (o : EngOp) : Nat := if o.kind = 0 then 8 else if o.kind = 3 then 32 else 1

/-- Elements from base on of which each is written, and every one before it. -/
def EngOp.writtenRun (o : EngOp) : List Nat → Nat
  | [] => 0
  | i :: rest =>
    match o.dstOf i with
    | some a => if o.writes.contains (lineKey o.dsp a) then 1 + o.writtenRun rest else 0
    | none => 0

/-- DONE of an operation that stops now, in elements: below the length of its destination, also where a collective has written
all of that and not read every source line (R326, R433). -/
def EngOp.doneNow (o : EngOp) : Nat :=
  if o.seal ≠ 0 then 0
  else Nat.min ((o.base + o.writtenRun o.elems) / o.grain * o.grain) ((o.limit - 1) / o.grain * o.grain)

/-- The operation stops at DONE; what it read is read again. One whose accesses are all made has only to complete. -/
def EngOp.atRest (o : EngOp) : EngOp :=
  if o.owed then o
  else if o.finished then { o with stopped := true }
  else { o with base := o.doneNow, reads := [], writes := [], stopped := true }

/-- The engine operations of a cast stop, or go on from DONE. -/
def State.restEngines (s : State) (ck : Nat) : State :=
  { s with ops := tmap s.ops (fun _ o => if o.node.isNone && o.ck == ck then o.atRest else o) }
def State.wakeEngines (s : State) (ck : Nat) : State :=
  { s with ops := tmap s.ops (fun _ o => if o.node.isNone && o.ck == ck then { o with stopped := false } else o) }

/-! ## A cast at rest -/

/-- The progress of issued operations is kept in their registers (R252). -/
def Cast.saveProgress (c : Cast) : List MatOp → Cast
  | [] => c
  | o :: rest => (c.setQ o.q { c.qreg o.q with progress := o.progress }).saveProgress rest

/-- What each thread was when it stopped, as its block records it; an Exited or unlisted thread is 3. -/
def State.runCodes (s : State) (ck : Nat) (self : Option Nat) : Nat → Nat :=
  fun tid => match s.thread (thrKey ck tid) with
    | some t => if self = some (thrKey ck tid) then 0 else t.runCode
    | none => 3

/-- Threads at rest: withdrawn, Filed at their words, and the one that saves its cast past its CTXSAVE (R365, R369). -/
def State.restThreads (s : State) (ck : Nat) (self : Option Nat) (e : Bool) : State :=
  { s with threads := tmap s.threads (fun tk t =>
      if castOf tk != ck then t
      else if self == some tk then ({ t.advance e 4 with held := none } : Thread).atRest s.tick
      else t.atRest s.tick) }

/-- The cast at rest on its core. -/
def State.restCast (s : State) (ck k : Nat) (c : Cast) (self : Option Nat) (e : Bool) : State :=
  let s1 := (s.restThreads ck self e).restEngines ck
  let core := s1.core k
  let c1 := { c.saveProgress (core.issuedOf ck) with
    fq := [], live := ((s1.castThreads ck).filter (fun p => !decide (p.2.run = .exited))).length }
  (s1.putC ck c1).putCore k { core with chorus := core.chorus.filter (fun p => p.2.ck != ck) }

/-- The cast goes on where it stands: in a new slice after an abandoned pre-emption (R366), else in the slice that it is in
(R369, R391). -/
def State.goOn (s : State) (ck : Nat) (c : Cast) (newSlice : Bool) : State :=
  let c1 := { c with stop := none }
  (s.wakeEngines ck).putC ck (if newSlice then { c1 with notified := none, sliceStart := s.tick } else c1)

/-- The image of a cast at rest, sealed where its gallery is protected. -/
def State.imageOf (s : State) (ck k : Nat) (c : Cast) (p : Prod) (flags : Nat) (run : Nat → Nat) : State × List Byte :=
  let core := s.core k
  s.sealed ck c p (s.plainImage ck c p core (core.issuedOf ck) flags run)

/-- The keys at which the faults that the operations of a cast still owe were found, by record, each with its TVAL. -/
def State.owedKeys (s : State) (ck : Nat) : Tab (DWord × Key) :=
  (s.ops.filter (fun x => x.2.node.isNone && x.2.ck == ck && x.2.owed)).foldl (fun t x =>
    tput t x.2.slot (x.2.ftval, x.2.errKey)) []

/-- The cast leaves its core with what its image holds; its operations of engines and array with it. -/
def State.takeOff (s : State) (ck k : Nat) (c : Cast) (res : Residence) (image : Option ImageAt) : State :=
  let s1 := (s.putC ck c).vacate ck k
  { s1 with
    casts := tmod s1.casts ck (fun x =>
      { x with res := res, image := image, stop := none, notified := none, fq := [], owedKeys := s.owedKeys ck })
    ops := s1.ops.filter (fun x => !(x.2.node.isNone && x.2.ck == ck)) }

/-- Where the images of a node's casts lie (R346). -/
def imagePlace (p : Prod) (c : Cast) : DWord := BitVec.ofNat 64 (p.saveArea + 4096 + c.gidx * c.imageSize)

/-! ## Ensembles that wait -/

/-- Every cast of an ensemble that has not ended is available, and one is. -/
def State.ensembleWaits (s : State) (cks : List Nat) : Bool :=
  let cs := cks.filterMap s.cast
  cs.length == cks.length && cs.all (fun c => decide (c.res = .available) || decide (c.res = .ended)) &&
    cs.any (fun c => decide (c.res = .available))

/-- Ensembles of a ready or running node whose casts are available join the ready queue, with their waits (R350, R370). -/
def State.queueAvailable (s : State) (n : Nat) : State :=
  match tfind s.prods n with
  | none => s
  | some p =>
    if !p.ready then s
    else (List.range (p.comp * p.epc)).foldl (fun (z : State) i =>
      let cks := (ensembleCasts n p (i / p.epc) (i % p.epc)).map (·.1)
      match z.gal p.gallery with
      | none => z
      | some g =>
        if !z.ensembleWaits cks || g.ready.any (fun w => w.node == n && w.company * p.epc + w.ensemble == i) then z
        else
          let wage := (cks.filterMap z.cast).foldl (fun a c => if c.res = .available then Nat.max a c.wage else a) 0
          z.putG p.gallery { g with ready := g.ready ++
            [{ node := n, company := i / p.epc, ensemble := i % p.epc, wage := wage, since := z.tick, blocker := false }] }) s

/-! ## Pre-emption and the stop of a quiesce -/

/-- The casts of an ensemble that are on cores, with their cores. -/
def State.onCores (s : State) (cks : List Nat) : List (Nat × Nat × Cast) :=
  cks.filterMap (fun ck => (s.cast ck).bind (fun c => c.coreNo.map (fun k => (ck, k, c))))

/-- Casts of an ensemble that are placed on cores that wake give up their places: none of their threads has run. -/
def State.dropPlaced (s : State) (cks : List Nat) : State :=
  cks.foldl (fun (z : State) ck =>
    match z.cast ck with
    | none => z
    | some c =>
      match c.res with
      | .waking k => z.takeOff ck k c .available c.image
      | _ => z) s

/-- A stop begins for the casts of an ensemble that are on cores. Those whose cores still wake keep their places until the
others have left theirs (R366). -/
def State.beginStop (s : State) (cks : List Nat) (why : Stop) : State :=
  let onOne (c : Cast) : Bool := match c.res with
    | .core _ | .kept _ => true
    | _ => false
  if (cks.filterMap s.cast).all (fun c => !onOne c) then s.dropPlaced cks
  else
    cks.foldl (fun (z : State) ck =>
      match z.cast ck with
      | none => z
      | some c =>
        if c.coreNo.isSome && (c.stop.isNone || (decide (c.stop = some .preempt) && decide (why ≠ .preempt))) then
          z.putC ck { c with stop := some why }
        else z) s

/-- Every cast of an ensemble on a core is under a stop of a kind, and stands still; there is one. -/
def State.stopReady (s : State) (cks : List Nat) (why : Stop) : Bool :=
  let on := s.onCores cks
  !on.isEmpty && on.all (fun x => decide (x.2.2.stop = some why) && s.castStill x.1 x.2.1)

/-- The pages of a cast's image do not all permit its writing. -/
def State.imageFails (s : State) (p : Prod) (c : Cast) : Bool :=
  match s.extentFails c.gallery .supervisor .write (imagePlace p c).toNat c.imageSize with
  | .ok none => false
  | _ => true

/-- An image's failing write is logged (R339, R366). -/
def State.logImage (s : State) (p : Prod) (c : Cast) : State :=
  s.log logCurator 0 4 p.gallery (recordDetail p.recAddr c.gidx)

/-- Images of casts at rest are written and the casts leave their cores (R365 steps 8 and 9); none where a write is held, for
no cast ever resumes from a partly written image (R366, R395). -/
def State.writeImages (s : State) (p : Prod) : List (Nat × Nat × (Nat → Nat)) → Option State
  | [] => some s
  | (ck, k, run) :: rest =>
    match s.cast ck with
    | none => s.writeImages p rest
    | some c =>
      let r := s.imageOf ck k c p 0 run
      let a := imagePlace p c
      match r.1.putImage c.gallery k a r.2 with
      | .ok s1 => (s1.takeOff ck k c .available (some (.area a))).writeImages p rest
      | _ => none

/-- Every cast of an ensemble is brought to rest; what their threads were is told with them. -/
def State.restAll (s : State) : List (Nat × Nat × Cast) → State × List (Nat × Nat × (Nat → Nat))
  | [] => (s, [])
  | (ck, k, c) :: rest =>
    let run := s.runCodes ck none
    let r := (s.restCast ck k c none false).restAll rest
    (r.1, (ck, k, run) :: r.2)

/-- The ensemble's stop ends: its images are written and it leaves, or the stop goes on while a write is held; where an image's
page fails, a pre-emption is abandoned, and under a quiesce the casts stay on their cores (R365, R366). -/
def State.finishStop (s : State) (n : Nat) (p : Prod) (cks : List Nat) (why : Stop) : State :=
  let r := s.restAll (s.onCores cks)
  let bad := r.2.filterMap (fun x => (r.1.cast x.1).bind (fun c => if r.1.imageFails p c then some c else none))
  if bad.isEmpty then
    match r.1.writeImages p r.2 with
    | some s1 =>
      let s2 := s1.dropPlaced cks
      if why = .preempt then s2.queueAvailable n else s2
    | none => s
  else
    let s1 := bad.foldl (fun (z : State) c => z.logImage p c) r.1
    let s2 := r.2.foldl (fun (z : State) x =>
      match z.cast x.1 with
      | none => z
      | some c =>
        if why = .preempt then z.goOn x.1 c true
        else z.putC x.1 { c with res := .kept x.2.1, stop := none }) s1
    s2.admitPlaced (cks.map (fun ck => (ck, 0)))

/-- Ensembles whose stop can end now. -/
def State.finishStops (s : State) : State :=
  s.prods.foldl (fun (z : State) x =>
    match tfind z.prods x.1 with
    | none => z
    | some p =>
      (List.range (p.comp * p.epc)).foldl (fun (y : State) i =>
        let cks := (ensembleCasts x.1 p (i / p.epc) (i % p.epc)).map (·.1)
        if y.stopReady cks .preempt then y.finishStop x.1 p cks .preempt
        else if y.stopReady cks .quiesce then y.finishStop x.1 p cks .quiesce
        else y) z) s

/-- SLICE_DECISION: the ensemble is pre-empted where one that waits is of the cast's priority, else a new slice starts
(R364). -/
def execSliceDecision (ck : Nat) (s : State) : Out :=
  match s.cast ck with
  | none => .next s
  | some c =>
    match c.notified, s.gal c.gallery, tfind s.prods c.prod with
    | some t, some g, some p =>
      if !s.slicing c || !s.noticeOver ck t then .next s
      else if g.ready.any (fun w => decide (c.prio ≤ s.waitPrio w)) then
        .next ((s.putC ck { c with notified := none }).beginStop (ensembleOf p ck) .preempt).finishStops
      else .next (s.putC ck { c with notified := none, sliceStart := s.tick })
    | _, _, _ => .next s

/-! ## CTXSAVE (R368, R369) -/

/-- The register field of a system word. -/
def sysField (w : Word) : Nat := fld w.toNat 7 5

/-- The pre-emption that other casts of an ensemble are under takes in a cast whose save kept it from it (R365). -/
def State.joinStop (s : State) (p : Prod) (ck : Nat) : State :=
  if (ensembleOf p ck).any (fun j => match s.cast j with
    | some x => decide (x.stop = some .preempt)
    | none => false) then s.beginStop [ck] .preempt
  else s

/-- The save ends where the cast stands still: the image is written, and the cast leaves its core or goes on; a write that a
frozen page holds is tried again. -/
def State.trySave (s : State) (ck : Nat) : State :=
  match s.cast ck with
  | none => s
  | some c =>
    match c.stop, c.coreNo, tfind s.prods c.prod with
    | some (.ctxsave tk), some k, some p =>
      match s.thread tk with
      | none => s
      | some t =>
        match t.held with
        | some (.ctxsave w) =>
          if !s.castStill ck k then s
          else
            let x := t.uni (sysField w)
            let cont := x.getLsbD 0
            let run := s.runCodes ck (some tk)
            let s1 := s.restCast ck k c (some tk) (w.getLsbD 30)
            let c1 := (s1.cast ck).getD c
            let r := s1.imageOf ck k c1 p (if cont then 2 else 0) run
            let a := x &&& 0xFFFF_FFFF_FFFF_F000
            match r.1.putImage c.gallery k a r.2 with
            | .ok s2 => if cont then (s2.goOn ck c1 false).joinStop p ck else s2.takeOff ck k c1 .off none
            | _ => s
        | _ => s
    | _, _, _ => s

/-- Saves whose cast stands still now. -/
def State.finishSaves (s : State) : State := (s.casts.map (·.1)).foldl (fun (z : State) ck => z.trySave ck) s

/-- CTXSAVE: the checks, and the stop of the thread's own cast. -/
def execCtxsave (e : Bool) (n : BitVec 5) (s : State) : Out :=
  issue supervisorOnly (fun _ => [sReg n.toNat])
    (fun t0 c =>
      let ch := s.charge t0 [n.toNat]
      let t := ch.2
      let x := t.uni n.toNat
      let bad : Res State := .trap (trapOf .illegal (BitVec.ofNat 64 (sReg n.toNat)))
      let ck := castOf s.focus
      match s.gal c.gallery, tfind s.prods c.prod with
      | some g, some p =>
        if fld x.toNat 1 11 ≠ 0 then bad
        else if x.getLsbD 0 = false ∧ p.cpe ≠ 1 then bad
        else if x.getLsbD 0 && g.protect then bad
        else
          let a := x &&& 0xFFFF_FFFF_FFFF_F000
          (ch.1.extentFails c.gallery t.priv .write a.toNat c.imageSize).bind (fun f =>
            match f with
            | some (y, fk) => .trap (pageFault (BitVec.ofNat 64 y) fk .write)
            | none =>
              let w := insWord (.ctxsave e n)
              if c.stop.isSome then .hold (.ctxsave w)
              else
                .ok (((ch.1.putC ck { c with stop := some (.ctxsave s.focus) }).putT s.focus
                  { t with held := some (.ctxsave w) }).trySave ck))
      | _, _ => .fault .noSuchAddress)
    s

/-! ## CTXLOAD (R370) -/

/-- Threads of an image that are not Exited. -/
def imageLive (ntid : Nat) (img : List Byte) : Nat :=
  ((List.range ntid).filter (fun i => recNat img (0x100 + 640 * i + 0x24B) 1 % 8 != 3)).length

/-- An accepted image, as read and opened: its cast is available, and its ensemble waits once every cast of it is. -/
def State.acceptImage (s : State) (ck : Nat) (c : Cast) (raw img : List Byte) : State :=
  let s1 := s.holdImage ck raw
  let s2 := s1.putC ck { c with
    res := .available, image := some .loaded, wage := recNat img 0x70 8, live := imageLive c.ntid img }
  let s3 := if c.res = .ended then
      { s2 with prods := tmod s2.prods c.prod (fun p => { p with ended := p.ended - 1 }) }
    else s2
  s3.queueAvailable c.prod

/-- CTXLOAD. -/
def execCtxload (e : Bool) (n : BitVec 5) (s : State) : Out :=
  issue supervisorOnly (fun _ => [sReg n.toNat])
    (fun t0 c =>
      let ch := s.charge t0 [n.toNat]
      let t := ch.2
      let x := t.uni n.toNat
      if fld x.toNat 1 11 ≠ 0 then .trap (trapOf .illegal (BitVec.ofNat 64 (sReg n.toNat)))
      else
        (ch.1.checkImage c.agent c.gallery t.priv (x &&& 0xFFFF_FFFF_FFFF_F000)).bind (fun (s1, code, found) =>
          let s2 := match found with
            | some (ck, k, raw, img) => s1.acceptImage ck k raw img
            | none => s1
          .ok (s2.finish s.focus (t.putUni n.toNat (BitVec.ofNat 64 code)) ((s2.cast (castOf s.focus)).getD c) e 4)))
    s

end Sys2Proof.Machine
end

