-- ==== Sys2Proof/Machine/Galleries.lean ====
section
/-! DEFINITION. Galleries (18_package_galleries.md): free and connected tiles (R377, R379), the curator's tables and their
mappings (R381, R384 to R386), creation and removal (R379), the steps of a quiesce (R391, R393), and the failures of
regions, cores and packets (R378, R380). -/
namespace Sys2Proof.Machine

/-! ## Tiles (R377, R379) -/

/-- A tile that a gallery may take: on the wafer, in no gallery, with a good region. -/
def State.tileFree (s : State) (t : Nat) : Bool :=
  decide (t < Config.tilesPerWafer) && !s.gals.any (fun p => p.2.tiles.contains t) &&
    (List.range 4).any (fun r => s.dev.good.contains (t * 4 + r))

/-- Two tiles share an edge of the wafer's grid of 7 columns. -/
def neighbours (a b : Nat) : Bool :=
  (a / 7 == b / 7 && (a % 7 + 1 == b % 7 || b % 7 + 1 == a % 7)) ||
    (a % 7 == b % 7 && (a / 7 + 1 == b / 7 || b / 7 + 1 == a / 7))

/-- The tiles of a set that some tiles reach in n steps. -/
def reached (set : List Nat) : Nat → List Nat → List Nat
  | 0, xs => xs
  | n + 1, xs => reached set n (xs ++ set.filter (fun t => !xs.contains t && xs.any (neighbours t)))

/-- Every two tiles are joined within the set. -/
def connected (set : List Nat) : Bool :=
  match set with
  | [] => false
  | t :: _ => set.all (fun x => (reached set set.length [t]).contains x)

/-- The tiles of a bitmap, ascending. -/
def bitmapTiles (x : DWord) : List Nat := (List.range Config.tilesPerWafer).filter (fun t => x.getLsbD t)

/-! ## Page tables -/

/-- The entry at a level for a virtual address, reached through pointers from a table at a level. -/
def slotFrom (m : List Host.Cell) (gi bound target : Nat) : Nat → Nat → Nat → Nat → Option Nat
  | 0, _, _, _ => none
  | n + 1, level, table, va =>
    let ea := table + 8 * (va / 2 ^ pageBits level % 1024)
    if bound < ea + 8 then none
    else if level = target then some ea
    else
      let e := numAt m (Loc.dram gi ea).cell 8
      if !bit e 0 || bit e 1 || pteMalformed e level then none
      else slotFrom m gi bound target n (level + 1) (fld e 16 40 * 2 ^ 16) va

/-- Every valid leaf under a table: virtual address, log2 of the page, entry; ascending. -/
def leavesFrom (m : List Host.Cell) (gi bound : Nat) : Nat → Nat → Nat → Nat → List (Nat × Nat × Nat)
  | 0, _, _, _ => []
  | n + 1, level, table, va =>
    ((cellsIn m (Loc.dram gi table).cell 8192).map (fun c => (c.1 - (Loc.dram gi table).cell) / 8)).eraseDups.flatMap
      (fun i =>
        let ea := table + 8 * i
        let e := numAt m (Loc.dram gi ea).cell 8
        let a := va + i * 2 ^ pageBits level
        if bound < ea + 8 || !bit e 0 || pteMalformed e level then []
        else if bit e 1 then [(a, pageBits level, e)]
        else leavesFrom m gi bound n (level + 1) (fld e 16 40 * 2 ^ 16) a)

/-- The tables of a gallery's page tables, the one at the top first: their gallery physical addresses. -/
def tablesFrom (m : List Host.Cell) (gi bound : Nat) : Nat → Nat → Nat → List Nat
  | 0, _, _ => []
  | n + 1, level, table =>
    table ::
    ((cellsIn m (Loc.dram gi table).cell 8192).map (fun c => (c.1 - (Loc.dram gi table).cell) / 8)).eraseDups.flatMap
      (fun i =>
        let ea := table + 8 * i
        let e := numAt m (Loc.dram gi ea).cell 8
        if bound < ea + 8 || !bit e 0 || pteMalformed e level || bit e 1 then []
        else tablesFrom m gi bound n (level + 1) (fld e 16 40 * 2 ^ 16))

/-- Every valid leaf of a gallery's page tables. -/
def State.leaves (s : State) (gi : Nat) (g : Gallery) : List (Nat × Nat × Nat) :=
  leavesFrom s.mem gi g.memSize 4 1 g.groot.toNat 0

/-! ## The curator's tables (R319, R381, R384 to R386; log 12) -/

/-- Bytes of the stage table of a gallery. -/
def Gallery.stageSize (g : Gallery) : Nat := g.tiles.length * 2 ^ 23

/-- The mappings of the curator's tables, each at the virtual address that its physical address is: address, level and
permission bits. -/
def Gallery.tableMaps (g : Gallery) : List (Nat × Nat × Nat) :=
  let stage := if g.stbase.toNat % 2 ^ 26 = 0 then
      (List.range ((g.stageSize + 2 ^ 26 - 1) / 2 ^ 26)).map (fun i => (g.stbase.toNat + i * 2 ^ 26, 3, 0x27))
    else (List.range (g.stageSize / 65536)).map (fun i => (g.stbase.toNat + i * 65536, 4, 0x27))
  stage ++ [(g.ntbase.toNat, 4, 0x27), (g.ntbase.toNat + 65536, 4, 0x27), (g.fpbase.toNat, 4, 7)]

/-- The lowest page of 64 KiB from 0x6_0000 on that holds only zeros, that no leaf maps and in which no table
lies (log 12). -/
def State.freePage (s : State) (gi : Nat) (g : Gallery) : Option Nat :=
  let ls := s.leaves gi g
  let ts := tablesFrom s.mem gi g.memSize 4 1 g.groot.toNat
  let isFree (a : Nat) : Bool :=
    !ts.any (fun x => x / 65536 == a / 65536) && (cellsIn s.mem (Loc.dram gi a).cell 65536).isEmpty && !g.tableMaps.any (fun x => x.1 / 65536 == a / 65536) &&
      !ls.any (fun x => fld x.2.2 14 2 == 0 && decide (fld x.2.2 16 40 * 2 ^ 16 < a + 65536) &&
        decide (a < fld x.2.2 16 40 * 2 ^ 16 + 2 ^ (x.2.1 + 1)))
  match ((List.range 1018).map (fun i => (i + 6) * 65536)).find? isFree with
  | some a => some a
  | none => ((List.range (g.memSize / 65536 - 1024)).map (fun i => (i + 1024) * 65536)).find? isFree

/-- The entry at a level for a virtual address that is to map a page, with the upper tables that are missing put into free
pages; none where a leaf, a malformed entry or the mapping of another page stands in the way. -/
def State.makeSlot (gi : Nat) (g : Gallery) (target page va : Nat) : Nat → Nat → Nat → State → Option (State × Nat)
  | 0, _, _, _ => none
  | n + 1, level, table, s =>
    let ea := table + 8 * (va / 2 ^ pageBits level % 1024)
    let e := numAt s.mem (Loc.dram gi ea).cell 8
    if g.memSize < ea + 8 then none
    else if level = target then (if bit e 0 && fld e 16 40 != page / 65536 then none else some (s, ea))
    else
      if !bit e 0 then
        match s.freePage gi g with
        | none => none
        | some p =>
          State.makeSlot gi g target page va n (level + 1) p { s with mem := setNum s.mem (Loc.dram gi ea).cell 8 (p + 1) }
      else if bit e 1 || pteMalformed e level then none
      else State.makeSlot gi g target page va n (level + 1) (fld e 16 40 * 2 ^ 16) s

/-- The virtual addresses at which the curator may map a page: its physical address, and those 64 TiB apart above it, for where
software has mapped something else there (log 12). -/
def mapPlaces (a : Nat) : List Nat := (List.range 1024).map (fun j => a + j * 2 ^ 46)

/-- Mappings written, each at its first place that can take it, with the tables that they need. -/
def State.setMaps (s : State) (gi : Nat) (g : Gallery) (ms : List (Nat × Nat × Nat)) : State :=
  ms.foldl (fun (z : State) (x : Nat × Nat × Nat) =>
    match (mapPlaces x.1).findSome? (fun va => State.makeSlot gi g x.2.1 x.1 va 4 1 g.groot.toNat z) with
    | some (z1, ea) => { z1 with mem := setNum z1.mem (Loc.dram gi ea).cell 8 (x.1 / 65536 * 65536 + x.2.2) }
    | none => z) s
/-- Mappings removed, from the first of their places that maps the page. -/
def State.dropMaps (s : State) (gi : Nat) (g : Gallery) (ms : List (Nat × Nat × Nat)) : State :=
  { s with mem := ms.foldl (fun m (x : Nat × Nat × Nat) =>
      match (mapPlaces x.1).findSome? (fun va =>
        (slotFrom m gi g.memSize x.2.1 4 1 g.groot.toNat va).filter (fun ea =>
          bit (numAt m (Loc.dram gi ea).cell 8) 0 && fld (numAt m (Loc.dram gi ea).cell 8) 16 40 == x.1 / 65536)) with
      | some ea => setNum m (Loc.dram gi ea).cell 8 0
      | none => m) s.mem }

/-- The page tables of a new gallery: one table of each level for the first 64 MiB, themselves writable at supervisor
privilege, and the curator's tables. -/
def State.firstTables (s : State) (gi : Nat) (g : Gallery) : State :=
  let put (m : List Host.Cell) (a x : Nat) : List Host.Cell := setNum m (Loc.dram gi a).cell 8 x
  let m := put (put (put s.mem 0 0x1_0001) 0x1_0000 0x2_0001) 0x2_0000 0x3_0001
  ({ s with mem := m } : State).setMaps gi g
    ([(0, 4, 0x2F), (0x1_0000, 4, 0x2F), (0x2_0000, 4, 0x2F), (0x3_0000, 4, 0x2F)] ++ g.tableMaps)

/-- The placement of the tables at creation (log 12). -/
def Gallery.firstBases (g : Gallery) : Gallery :=
  { g with
    groot := 0, fpbase := 0x4_0000, ntbase := 0x5_0000, stbase := 0x400_0000
    grootW := 0, fpbaseW := 0x4_0000, ntbaseW := 0x5_0000, stbaseW := 0x400_0000 }

/-! ## Creation and removal (R379, R401, R402, R420) -/

/-- n cells from one on hold nothing more, and neither do caches and replicas of them: they read zero, without errors. -/
def State.forget (s : State) (cell n : Nat) : State :=
  let out (line : Nat) : Bool := !(decide (cell / 128 ≤ line) && decide (line * 128 < cell + n))
  { s.cleanLines cell n with
    mem := clearCells s.mem cell n
    wts := s.wts.filter (fun p => out p.1)
    rts := s.rts.filter (fun p => out p.1)
    pubs := s.pubs.filter (fun p => out (p.1 / 128))
    freezes := s.freezes.filter (fun p => out (p.1 / 128))
    past := s.past.filter (fun p => out (p.cell / 128))
    cores := tmap s.cores (fun _ c => { c with copies := c.copies.filter (fun p => out p.1) }) }

/-- Everything that a gallery's memory and weight store hold goes. -/
def State.wipe (s : State) (gi : Nat) : State := s.forget (Loc.dram gi 0).cell (2 ^ 65)

/-- Regions of some tiles that have failed their test are retired (R380). -/
def State.retireRegions (s : State) (tiles : List Nat) : State :=
  (s.dev.failing.filter (fun r => tiles.contains (r / 4))).foldl (fun (z : State) r =>
    ({ z with dev := { z.dev with good := z.dev.good.filter (· != r), failing := z.dev.failing.filter (· != r) } } : State).log
      logCurator 0 1 noGallery (BitVec.ofNat 64 r)) s

/-- A new gallery of a tag on some tiles. -/
def State.makeGallery (s : State) (gi : Nat) (tiles : List Nat) (flags : DWord) : State :=
  let g0 := (Gallery.fresh tiles (flags.getLsbD 0) (flags.getLsbD 0 && flags.getLsbD 1) s.dev.draws).firstBases
  let g := { g0 with tdi := if s.dev.errTags.contains gi then .error else .unlocked }
  let s1 := (s.wipe gi).putG gi g
  let s2 := { s1 with dev := { s1.dev with draws := s1.dev.draws + 1 } }
  ((s2.firstTables gi g).writeNames gi).writePlan gi

/-- The productions, casts, threads and operations of a gallery end, and it goes; regions of its tiles that have failed are
retired at once (R379, R380). -/
def State.dropGallery (s : State) (gi : Nat) : State :=
  let mine := (s.casts.filter (fun p => p.2.gallery == gi)).map (·.1)
  let s1 := mine.foldl (fun (z : State) ck =>
    match (z.cast ck).bind Cast.seat with
    | some k => z.vacate ck k
    | none => z) s
  let s2 := (mine.foldl (fun (z : State) ck =>
    ({ z with mem := clearCells z.mem (Loc.scratch ck 0).cell (2 ^ 41) } : State)) s1).wipe gi
  ({ s2 with
    gals := tdel s2.gals gi
    casts := s2.casts.filter (fun p => p.2.gallery != gi)
    prods := s2.prods.filter (fun p => p.2.gallery != gi)
    ops := s2.ops.filter (fun p => p.2.gallery != gi)
    cores := s2.cores.map (fun p => (p.1, { p.2 with tlb := p.2.tlb.filter (fun x => x.1 != gi) }))
    dev := { s2.dev with errTags := if s2.dev.errTags.contains gi then s2.dev.errTags else gi :: s2.dev.errTags } } :
      State).retireRegions (((s.gal gi).map Gallery.tiles).getD [])

/-- The lowest tag that no gallery bears. -/
def State.freeTag (s : State) : Option Nat := ((List.range 255).map (· + 1)).find? (fun t => (s.gal t).isNone)

/-! ## Engine operations run to their end (R81) -/

/-- The next read or write that the operation needs, in the order that the model takes. -/
def EngOp.nextUnit (o : EngOp) : Option Nat :=
  if o.owed || o.stopped || decide (o.limit ≤ o.base) then none
  else
    match (o.idxLines ++ o.srcLines).find? (fun l => (tfind o.reads l).isNone) with
    | some l => some (2 * l)
    | none => (o.dstLines.find? (fun l => !o.writes.contains l)).map (fun l => 2 * l + 1)

/-- One more unit of an operation. -/
def State.nextEngine (s : State) (n : Nat) : State :=
  match tfind s.ops n with
  | none => s
  | some o =>
    match o.nextUnit with
    | some u => s.engineUnit n u
    | none => s

/-- An operation runs to its end; a collective that others hold up is given up. -/
def State.runEngine (s : State) (n : Nat) : State :=
  match tfind s.ops n with
  | none => s
  | some o =>
    let s1 := (List.range (3 * o.limit + 8)).foldl (fun (z : State) _ => z.nextEngine n) s
    match tfind s1.ops n with
    | none => s1
    | some x =>
      if x.owed then s1
      else if x.finished then s1.completeEngine n x
      else { s1 with ops := tdel s1.ops n }

/-- The engine operations of a cast run to their ends. -/
def State.runEngines (s : State) (ck : Nat) : State :=
  ((s.ops.filter (fun p => p.2.node.isNone && p.2.ck == ck)).map (·.1)).foldl (fun (z : State) n => z.runEngine n)
    (s.wakeEngines ck)

/-! ## Ends without a trap (R366, R393) -/

/-- The threads of a cast that had not ended: TID and TEPC. -/
def State.liveOf (s : State) (ck : Nat) (c : Cast) : List (Nat × DWord) :=
  match c.res with
  | .core _ | .kept _ =>
    ((s.castThreads ck).filter (fun x => !decide (x.2.run = .exited))).map (fun x => (x.1, x.2.tepc))
  | .ended => []
  | _ => (List.range c.live).map (fun i => (i, 0))

/-- Every thread of a cast ends as unhandled, with UCAUSE 0 where it has the lowest key (R346), and the cast with them. -/
def State.killCast (s : State) (ck gidx n ntid : Nat) : State :=
  let c? := s.cast ck
  let s1 : State := match c? with
    | some c => (if c.seat.isSome then s.runEngines ck else s)
    | none => s
  let live := match s1.cast ck with
    | some c => s1.liveOf ck c
    | none => (List.range ntid).map (fun i => (i, 0))
  let key := s1.nowKey ((c?.map Cast.agent).getD curatorAgent)
  let s2 := { s1 with prods := tmod s1.prods n (fun p => live.foldl (fun (q : Prod) (x : Nat × DWord) =>
    q.noteEnd [BitVec.ofNat 64 gidx, BitVec.ofNat 64 x.1, 0, x.2] key) p) }
  match s2.cast ck with
  | some c =>
    if c.res = .ended then s2
    else
      let mine := s2.ops.filter (fun x => x.2.node.isNone && x.2.ck == ck)
      let s3 : State := { s2 with ops := s2.ops.filter (fun x => !(x.2.node.isNone && x.2.ck == ck)) }
      let s4 := mine.foldl (fun (z : State) x => if x.2.owed then z.recordFault n x.2.ftval x.2.errKey else z) s3
      let s5 := (if c.seat.isSome then [] else c.owedKeys).foldl (fun (z : State) x => z.recordFault n x.2.1 x.2.2) s4
      s5.endCast ck c
  | none =>
    match tfind s2.prods n with
    | none => s2
    | some p => (s2.putC ck (Cast.fresh n gidx p .off s2.tick)).endCast ck (Cast.fresh n gidx p .off s2.tick)

/-- The arrival of a company is withdrawn from a grid barrier (R393). -/
def Grid.retire (g : Grid) (k : Nat) : Grid :=
  ({ g with member := putBit g.member k false, arrive := putBit g.arrive k false, locals := tset g.locals k 0 0 } : Grid).check

/-- A company is retired: its arrivals are withdrawn at one key, and its threads end (R393). -/
def State.retireCompany (s : State) (n k : Nat) : State :=
  match tfind s.prods n with
  | none => s
  | some p =>
    let grids := (List.range 4).foldl (fun (gs : Tab Grid) b => tput gs b ((p.grid b).retire k)) p.grids
    let s1 := s.putGrids n p grids
    let s2 : State := match s1.gal p.gallery with
      | some g => s1.putG p.gallery { g with ready := g.ready.filter (fun w => !(w.node == n && w.company == k)) }
      | none => s1
    (List.range (p.epc * p.cpe)).foldl (fun (z : State) i =>
      let gidx := k * (p.epc * p.cpe) + i
      z.killCast (castKey n gidx) gidx n p.ntid) s2

/-- The companies that a position holds: node and company. -/
def State.boundTo (s : State) (gi t : Nat) : List (Nat × Nat) :=
  (s.liveNodes gi).flatMap (fun x =>
    (x.2.bind.filter (fun b => b.2 == t && !s.companyEnded x.1 x.2 b.1)).map (fun b => (x.1, b.1)))

/-! ## Quiesce (R391) -/

/-- The ensembles of a gallery's productions: node, company and the keys of the casts. -/
def State.ensembles (s : State) (gi : Nat) : List (Nat × Nat × List Nat) :=
  (s.liveNodes gi).flatMap (fun x =>
    (List.range (x.2.comp * x.2.epc)).map (fun i =>
      (x.1, i / x.2.epc, (ensembleCasts x.1 x.2 (i / x.2.epc) (i % x.2.epc)).map (·.1))))

/-- The companies that the request of a quiesce retires: code 7 names a position in ARG3. -/
def State.retiring (s : State) (gi : Nat) (g : Gallery) : List (Nat × Nat) :=
  match g.request with
  | some (7, args) => s.boundTo gi (args.getD 3 0).toNat
  | _ => []

/-- Every resident ensemble of a gallery is under a stop: step 2. -/
def State.stopAll (s : State) (gi : Nat) (g : Gallery) : State :=
  let out := s.retiring gi g
  (s.ensembles gi).foldl (fun (z : State) x =>
    z.beginStop x.2.2 (if out.contains (x.1, x.2.1) then .retire else .quiesce)) s

/-- Step 1, and the start of step 2. -/
def State.beginQuiesce (s : State) (gi : Nat) (g : Gallery) (code : Nat) (args : List DWord) : State :=
  let g1 := { g with state := .quiescing, request := some (code, args) }
  ((s.putG gi g1).log logCurator 0 2 gi (BitVec.ofNat 64 g.fpgen)).stopAll gi g1

/-- Casts of retiring companies that stand still. -/
def State.retireReady (s : State) : List Nat :=
  (s.casts.filter (fun p => decide (p.2.stop = some .retire) && (match p.2.coreNo with
    | some k => s.castStill p.1 k
    | none => false))).map (·.1)

/-- A company under retirement whose casts all stand still is retired (R393). -/
def State.finishRetire (s : State) (gi : Nat) (g : Gallery) : State :=
  (s.retiring gi g).foldl (fun (z : State) x =>
    match tfind z.prods x.1 with
    | none => z
    | some p =>
      let cks := (List.range (p.epc * p.cpe)).map (fun i => castKey x.1 (x.2 * (p.epc * p.cpe) + i))
      if (z.onCores cks).all (fun y => z.castStill y.1 y.2.1) then z.retireCompany x.1 x.2 else z) s

/-- No cast of the gallery is on a core any more. -/
def State.quiet (s : State) (gi : Nat) : Bool := !s.casts.any (fun p => p.2.gallery == gi && p.2.coreNo.isSome)

/-- The first cluster of the first tile of a gallery in floor-plan order, whose engines perform its copy nodes (R342). -/
def State.copyCluster (s : State) (gi : Nat) : Nat :=
  match s.gal gi with
  | some g => g.tiles.getD 0 0 * 40
  | none => 0

/-- Copy nodes of a gallery stop at DONE, or go on on the engines of what is now its first tile (R342; steps 3 and 8). -/
def State.copyNodes (s : State) (gi : Nat) (stop : Bool) : State :=
  { s with ops := tmap s.ops (fun _ o =>
      if o.node.isSome && o.gallery == gi then
        { o.atRest with stopped := stop, cluster := if stop then o.cluster else s.copyCluster gi }
      else o) }

/-- A leaf of the gallery maps an address at or above a bound. -/
def State.leafAbove (s : State) (gi : Nat) (g : Gallery) (bound : Nat) : Bool :=
  (s.leaves gi g).any (fun x => fld x.2.2 14 2 == 0 &&
    decide (bound < fld x.2.2 16 40 * 2 ^ 16 + 2 ^ x.2.1 * (if bit x.2.2 11 then 2 else 1)))

/-- What keeps positions from T − k on from being removed (R379). -/
def State.shrinkRefused (s : State) (gi : Nat) (g : Gallery) (k : Nat) : Bool :=
  let T := g.tiles.length
  s.leafAbove gi g ((T - k) * Config.dramPerTile) ||
    (cellsIn s.mem (Loc.weights gi ((T - k) * Config.weightsPerTile)).cell (2 ^ 60)).length != 0 ||
    ((List.range k).any (fun i => !(s.boundTo gi (T - k + i)).isEmpty))

/-- The tiles that a request leaves the gallery with; none where R379 refuses it. The codes are those of R423, and the
arguments the tile bitmap, the flags, k, the position and the tile. -/
def State.newTiles (s : State) (gi : Nat) (g : Gallery) (code : Nat) (args : List DWord) : Option (List Nat) :=
  let a (n : Nat) : DWord := args.getD n 0
  let T := g.tiles.length
  let pos := (a 3).toNat
  match code with
  | 3 =>
    let new := bitmapTiles (a 0)
    if new.all s.tileFree && connected new && connected (g.tiles ++ new) then some (g.tiles ++ new) else none
  | 4 =>
    let k := (a 2).toNat
    if s.shrinkRefused gi g k || !connected (g.tiles.take (T - k)) then none else some (g.tiles.take (T - k))
  | 5 =>
    let t := (a 4).toNat
    let new := g.tiles.set pos t
    if s.tileFree t && connected new then some new else none
  | 6 =>
    let new := bitmapTiles (a 0)
    if new.all (fun t => g.tiles.contains t || s.tileFree t) && connected new then some new else none
  | 7 =>
    let moved := g.tiles.eraseIdx pos
    if T = 1 || !connected moved || s.leafAbove gi g ((T - 1) * Config.dramPerTile) ||
        (cellsIn s.mem (Loc.weights gi ((T - 1) * Config.weightsPerTile)).cell (2 ^ 60)).length != 0 then none
    else some moved
  | _ => some g.tiles

/-- What a gallery holds beyond its size goes with the tiles that held it. -/
def State.cutMemory (s : State) (gi : Nat) (g : Gallery) : State :=
  ((s.forget (Loc.dram gi g.memSize).cell (2 ^ 64 - g.memSize)).forget (Loc.weights gi g.wsSize).cell
    (2 ^ 64 - g.wsSize)).putG gi { g with under := g.under.filter (fun x => decide (x.1 < g.memSize)) }

/-- A position is gone: the companies that it held have ended, and those of higher positions move down with their tiles
(R393, R398; log 23). -/
def State.shiftBinds (s : State) (gi pos : Nat) : State :=
  { s with prods := tmap s.prods (fun _ p =>
      if p.gallery ≠ gi then p
      else { p with bind := (p.bind.filter (fun b => b.2 != pos)).map (fun b => (b.1, if pos < b.2 then b.2 - 1 else b.2)) }) }

/-- The tile that holds the position of a cast's company (R398). -/
def State.boundTile (s : State) (g : Gallery) (c : Cast) : Option Nat :=
  match tfind s.prods c.prod with
  | none => none
  | some p => (tfind p.bind (p.companyOf c.gidx)).bind (fun t => g.tiles[t]?)

/-- Bytes of the snapshot reserve that hold neither copied lines nor images (R366, R395). -/
def Gallery.reserveLeft (g : Gallery) : Nat :=
  g.snapres.toNat - g.imaged - (match g.snap with
    | some n => n.copied.length * 128
    | none => 0)

/-- A cast kept on a core of a position that is moved: its image, sealed where it must be, goes to the snapshot reserve, or
its threads end (R366, R407). -/
def State.moveOne (s : State) (gi ck k : Nat) (c : Cast) (p : Prod) : State :=
  match s.gal gi with
  | none => s
  | some g =>
    if c.imageSize ≤ g.reserveLeft then
      let r := s.imageOf ck k c p 0 (s.runCodes ck none)
      let s1 := { r.1 with gals := tmod r.1.gals gi (fun g => { g with imaged := g.imaged + c.imageSize }) }
      (s1.holdImage ck r.2).takeOff ck k c .available (some .reserve)
    else s.killCast ck c.gidx c.prod c.ntid

/-- Casts kept on cores that hold their positions no more, or placed on such cores. -/
def State.moveKept (s : State) (gi : Nat) (g : Gallery) : State :=
  let left := s.casts.filter (fun p => p.2.gallery == gi && (match p.2.res with
    | .kept k | .waking k => s.boundTile g p.2 != some (tileOf k) || !s.coreGood k
    | _ => false))
  left.foldl (fun (z : State) x =>
    match z.cast x.1, x.2.res, tfind z.prods x.2.prod with
    | some c, .kept k, some p => z.moveOne gi x.1 k c p
    | some _, .waking _, some _ => z.dropPlaced [x.1]
    | _, _, _ => z) s

/-- Step 6: new bases are taken, and the tables follow them; the stage words of new positions are zero (R319, R384).
old is the gallery before the change. -/
def State.takeBases (s : State) (gi : Nat) (old g : Gallery) : State :=
  let g1 := { g with groot := g.grootW, ntbase := g.ntbaseW, stbase := g.stbaseW, fpbase := g.fpbaseW, pend := false }
  let s1 := s.dropMaps gi old old.tableMaps
  let st (x : Gallery) : Nat := (Loc.dram gi x.stbase.toNat).cell
  let m1 := clearCells s1.mem (st old + old.stageSize) (g1.stageSize - old.stageSize)
  let m2 := if g1.stbase = old.stbase then m1 else copyCells m1 (st old) (st g1) g1.stageSize
  (({ s1 with mem := m2 } : State).putG gi g1).setMaps gi g1 g1.tableMaps

/-- Queues of names that are used no more are discarded and logged (R388). -/
def State.dropQueues (s : State) (gi : Nat) (lost : Nat → Bool) : State :=
  match s.gal gi with
  | none => s
  | some g =>
    let gone := g.channels.filter (fun p => lost (p.1 / 16))
    let s1 := s.putG gi { g with channels := g.channels.filter (fun p => !lost (p.1 / 16)) }
    gone.foldl (fun (z : State) p =>
      if p.2.isEmpty then z
      else z.log logCurator 0 9 gi (BitVec.ofNat 64 (p.1 / 16 + p.1 % 16 * 2 ^ 16 + p.2.length * 2 ^ 32))) s1

/-- The highest timestamp that any access or lease has, of any agent (R302). -/
def State.topStamp (s : State) : Nat :=
  ((s.rts.map (·.2)) ++ (s.wts.map (·.2.t)) ++ (s.pubs.map (·.2.2.t)) ++ (s.freezes.map (·.2.2)) ++ (s.stamps.map (·.2)) ++
    s.cores.flatMap (fun p => p.2.pts.toNat :: p.2.copies.map (·.2.rts)) ++ (s.casts.map (·.2.lastT))).foldl Nat.max 0

/-- Timestamps after a quiesce, of the cores and engines of the gallery, the host port and the curator: above every one in
use (R304). -/
def State.raiseStamps (s : State) (gi : Nat) (g : Gallery) : State :=
  let top := s.topStamp + 1
  let agents := g.tiles.flatMap (fun t =>
    (List.range 160).map (t * 160 + ·) ++ (List.range 40).map (fun i => engineAgent (t * 40 + i)))
  (agents ++ [hostAgent, curatorAgent]).foldl (fun (z : State) k => z.putPts k top) (s.putG gi g)

/-- A cast kept on its core goes on there (R366, R391). -/
def State.resumeKept (s : State) (gi : Nat) : State :=
  (s.casts.filter (fun p => p.2.gallery == gi)).foldl (fun (z : State) p =>
    match p.2.res with
    | .kept k =>
      let z1 := z.goOn p.1 { p.2 with res := .core k, haltReq := false } false
      if p.2.haltReq then z1.haltCast p.1 none else z1
    | _ => z) s

/-- A management request is answered (R423). -/
def State.answer (s : State) (st : Nat) : State :=
  { s with dev := { s.dev with mstatus := BitVec.ofNat 64 st, mgo := 0 } }

/-- Step 8: the gallery reopens; its casts go on or wait again, and one placed on a core that woke meanwhile starts. -/
def State.reopen (s : State) (gi : Nat) : State :=
  match s.gal gi with
  | none => s
  | some g =>
    let s1 := (s.raiseStamps gi { g with state := .opened, request := none }).resumeKept gi
    let s2 := (s1.liveNodes gi).foldl (fun (z : State) p => z.queueAvailable p.1)
      (s1.admitPlaced ((s1.casts.filter (fun p => p.2.gallery == gi)).map (fun p => (p.1, p.2.gidx))))
    (s2.copyNodes gi false).log logCurator 0 3 gi (BitVec.ofNat 64 g.fpgen)

/-- Steps 3 to 8 of a quiesce that has stopped everything; a request that R379 refuses by now changes no tile. -/
def State.completeQuiesce (s : State) (gi : Nat) (g : Gallery) (code : Nat) (args : List DWord) : State :=
  let s0 := s.copyNodes gi true
  match s0.newTiles gi g code args with
  | none => (s0.reopen gi).answer 1
  | some tiles =>
    let g1 := { g with tiles := tiles, fpgen := g.fpgen + 1 }
    let s0 := if code = 7 then (s0.putG gi g1).shiftBinds gi (args.getD 3 0).toNat else s0.putG gi g1
    let s1 := (s0.retireRegions (g.tiles ++ tiles)).cutMemory gi g1
    let s2 := s1.moveKept gi ((s1.gal gi).getD g1)
    let s3 := (s2.takeBases gi g ((s2.gal gi).getD g1)).writeNames gi
    let g3 := (s3.gal gi).getD g1
    let s4 := (s3.dropQueues gi (fun n => decide (g3.names ≤ n))).writePlan gi
    (s4.reopen gi).answer 0

/-! ## Failures (R378, R380) -/

/-- REGION_TEST_FAIL: the region is retired at the next quiesce of its gallery, or at once where no gallery holds its
tile. -/
def execRegionTestFail (region : Nat) (s : State) : Out :=
  if s.dev.failing.contains region || !s.dev.good.contains region then .next s
  else
    let s1 := { s with dev := { s.dev with failing := s.dev.failing ++ [region] } }
    .next (if s.gals.any (fun p => p.2.tiles.contains (region / 4)) then s1 else s1.retireRegions [region / 4])

/-- CORE_COMPUTE_FAIL: the core is router-only; its name is unused from now and its queues are lost. -/
def execCoreComputeFail (core : Nat) (s : State) : Out :=
  let s1 := s.putCore core { s.core core with routerOnly := true }
  match s.gals.find? (fun p => p.2.tiles.contains (tileOf core)) with
  | none => .next s1
  | some (gi, g) =>
    match s.nameOf gi core with
    | none => .next s1
    | some n =>
      .next ((s1.put curatorAgent (.dram gi (g.ntbase.toNat + 8 * n)) (leBytes 8 (nameEntry core - 2 ^ 63))).1.dropQueues gi
        (· == n))

/-- A read that has still to complete: a thread's load or atomic, the next line of an engine operation, the next line of an
operation of the matrix units, by number. -/
inductive OpenRead where
  | load (tk : Nat) (o : Outst)
  | engine (n : Nat)
  | operand (op : Nat)
  deriving DecidableEq, Repr

/-- Nothing has come after a write at its line, and no thread has seen it but by the access that made it. -/
def State.unseen (s : State) (p : Past) : Bool :=
  s.lineWts (p.cell / 128) == p.key && s.lineRts (p.cell / 128) == p.key.t &&
    s.threads.all (fun x => !p.key.before (lastSeen x.2.seen p.cell p.size)) &&
    s.casts.all (fun x => x.2.views.all (fun v => !p.key.before (lastSeen v.2.seen p.cell p.size)))

/-- What an atomic wrote, where it wrote. -/
def State.wroteBy (s : State) (o : Outst) : Option Past :=
  o.wrote.bind (fun k => s.past.find? (fun p => p.key == k))

/-- The request of a load or atomic may have been dropped: of an atomic that wrote, while nothing has followed from its
write. -/
def State.droppable (s : State) (o : Outst) : Bool :=
  o.store.isSome && (match s.wroteBy o with
    | some p => s.unseen p
    | none => true)

/-- An operation of the matrix units has a line to read for its next group. -/
def MatOp.readsOn (o : MatOp) : Bool :=
  !o.finished && !o.lost &&
    ((match o.ra with
      | some r => (o.groupLines r true).any (fun x => !o.gotA.contains x)
      | none => false) ||
    (match o.rb with
      | some r => (o.groupLines r false).any (fun x => !o.gotB.contains x)
      | none => false))

/-- The reads of a gallery's agents that have still to complete (R77, R247, R308). -/
def State.openReads (s : State) (gi : Nat) : List OpenRead :=
  s.threads.flatMap (fun p =>
    if ((s.cast (castOf p.1)).map Cast.gallery) = some gi then
      (p.2.outst.filter s.droppable).map (OpenRead.load p.1)
    else []) ++
  (s.ops.filter (fun p => p.2.gallery == gi && !p.2.owed && !p.2.lost &&
    (p.2.idxLines ++ p.2.srcLines).any (fun l => (tfind p.2.reads l).isNone))).map (fun p => OpenRead.engine p.1) ++
  s.cores.flatMap (fun p =>
    (p.2.order.filter (fun o => ((s.cast o.ck).map Cast.gallery) == some gi && o.readsOn)).map (fun o => OpenRead.operand o.op))

/-- The write of an atomic is as never made (R194). -/
def State.takeBack (s : State) (o : Outst) : State :=
  match s.wroteBy o with
  | some p => { s with mem := setBytes s.mem p.cell (bytesAt p.old p.cell p.size), past := s.past.filter (· != p) }
  | none => s

/-- A read whose packet is dropped completes as uncorrectable: of a thread's, zeros, and POISON with its address, and an atomic
makes no write; of an operation, its next line (R194, R249, R325, R378). -/
def State.dropRead (s : State) : OpenRead → State
  | .load tk o =>
    let s1 := s.takeBack o
    { s1 with threads := tmod s1.threads tk (fun t =>
        ({ t with
          outst := t.outst.map (fun (p : Outst) =>
            if p.op = o.op then { p with vals := p.vals.map (fun _ => 0), wrote := none } else p)
          late := t.late.filter (fun x => x.op != o.op) } : Thread).owePoison true o.op o.addr) }
  | .engine n => { s with ops := tmod s.ops n (fun x => { x with lost := true }) }
  | .operand op =>
    { s with cores := tmap s.cores (fun _ c =>
        { c with order := c.order.map (fun o => if o.op = op then { o with lost := true } else o) }) }

/-- The core that is the source of a read; of an engine operation, the first core of its cluster. -/
def State.readSource (s : State) : OpenRead → Nat
  | .load tk _ => ((s.cast (castOf tk)).map Cast.onCore).getD 0
  | .engine n => match tfind s.ops n with
    | some o => o.cluster * 4
    | none => 0
  | .operand op => match s.cores.find? (fun p => p.2.order.any (fun o => o.op == op)) with
    | some p => p.1
    | none => 0

/-- A write whose packet is dropped is a fault of its source tile: its regions are retired as a failed test would retire them
(R378, R380). -/
def State.dropWrite (s : State) (tile : Nat) : State :=
  let rs := ((List.range 4).map (tile * 4 + ·)).filter (fun r => s.dev.good.contains r && !s.dev.failing.contains r)
  { s with dev := { s.dev with failing := s.dev.failing ++ rs } }

/-- PACKET_TAG_DROP: a router of a tile drops a packet whose tag is not that of the tile's gallery. Whether the packet reads
or writes, and which read or which source tile it belongs to, is free (R378, log 9). -/
def execPacketTagDrop (tag tile : Nat) (s : State) : Out :=
  let owner := s.gals.find? (fun p => p.2.tiles.contains tile)
  if tag = 0 || (match owner with
    | some p => p.1 == tag
    | none => false) then .next s
  else
    let home := match owner with
      | some p => p.1
      | none => noGallery
    let note (z : State) (core : Nat) : State :=
      z.log logRouter (tile * 160) 1 home (BitVec.ofNat 64 (tag % 256 + core * 256))
    match s.gal tag with
    | none => .next (note s 0)
    | some g =>
      let n := Config.freeChoice s.free
      let s0 := { s with free := s.free + 1 }
      let from_ := g.tiles.getD (n / 2 % g.tiles.length) 0
      match n % 2, (s.openReads tag)[n / 2 % (s.openReads tag).length]? with
      | 0, some x => .next (note (s0.dropRead x) (s.readSource x))
      | _, _ => .next (note (s0.dropWrite from_) (from_ * 160))

/-! ## The curator's registers (R384) -/

/-- GSTAT of a gallery. -/
def Gallery.stat (g : Gallery) : Nat :=
  let st := match g.state with
    | .opened => 1
    | .quiescing => 2
    | .removing => 3
  g.fpgen % 2 ^ 16 * 2 ^ 48 + g.names % 2 ^ 14 * 2 ^ 34 + g.tiles.length % 64 * 2 ^ 28 + g.pend.toNat * 16 +
    g.snap.isSome.toNat * 8 + st

/-- A register of the gallery that GSEL shows: the value written. -/
def Gallery.register (g : Gallery) (n : Nat) : DWord :=
  match n with
  | 0xC02 => g.grootW
  | 0xC03 => g.ntbaseW
  | 0xC04 => g.stbaseW
  | 0xC05 => g.fpbaseW
  | 0xC06 => g.snapresW
  | 0xE00 => BitVec.ofNat 64 g.stat
  | _ => 0

/-- A curator's read of a register; all but GSEL read zero while no gallery bears the tag. -/
def State.curatorRead (s : State) (n : Nat) : DWord :=
  if n = 0xC00 then s.dev.gsel.setWidth 64
  else
    match s.gal s.dev.gsel.toNat with
    | some g => g.register n
    | none => 0

end Sys2Proof.Machine
end

