-- ==== Sys2Proof/Machine/Channels.lean ====
section
/-! DEFINITION. Messages between cores: SEND and RECV (18_package_galleries.md R387 to R390); snapshots: SNAP, the stream
and its end (R394 to R396; 22_fabric_host.md R434). -/
namespace Sys2Proof.Machine

/-! ## SEND and RECV -/

/-- Messages that a queue holds on the Stolilo S56 (R388). -/
def channelCapacity : Nat := 16
/-- The number of a queue: its name and channel. -/
def queueKey (name chan : Nat) : Nat := name * 16 + chan

/-- The core that a name denotes goes on after a message to it; the SEND comes after all earlier ones to it (R390). -/
def State.sendKey (s : State) (agent target : Nat) : State :=
  let r := s.nextKey agent (s.pts target)
  r.1.ptsAfter target r.2

/-- SEND (R389). -/
def execSend (e : Bool) (d a b : BitVec 5) (s : State) : Out :=
  issue anyPriv (fun _ => [sReg d.toNat, sReg a.toNat, sReg b.toNat])
    (fun t0 c =>
      let ch := s.charge t0 [a.toNat, b.toNat]
      let s0 := ch.1
      let t := ch.2
      let x := (t.uni a.toNat).toNat
      if fld x 20 44 ≠ 0 then .trap (trapOf .illegal (BitVec.ofNat 64 (sReg a.toNat)))
      else
        match s0.gal c.gallery, s0.coreNamed c.gallery (fld x 0 16) with
        | none, _ => .fault .noSuchAddress
        | some _, none => .trap (trapOf .name (BitVec.ofNat 64 (fld x 0 20)))
        | some g, some target =>
          let k := queueKey (fld x 0 16) (fld x 16 4)
          let q := tget g.channels k []
          let s1 := s0.sendKey c.agent target
          if channelCapacity ≤ q.length then .ok (s1.finish s.focus (t.putUni d.toNat 1) c e 4)
          else
            .ok ((s1.putG c.gallery { g with channels := tset g.channels k (q ++ [t.uni b.toNat]) [] }).finish s.focus
              (t.putUni d.toNat 0) c e 4))
    s

/-- RECV (R390). -/
def execRecv (e : Bool) (d a b : BitVec 5) (s : State) : Out :=
  issue anyPriv (fun _ => [sReg d.toNat, sReg a.toNat, sReg b.toNat])
    (fun t0 c =>
      let ch := s.charge t0 [a.toNat]
      let s0 := ch.1
      let t := ch.2
      let x := (t.uni a.toNat).toNat
      if fld x 4 60 ≠ 0 then .trap (trapOf .illegal (BitVec.ofNat 64 (sReg a.toNat)))
      else if d = b then .trap (trapOf .illegal (BitVec.ofNat 64 (sReg b.toNat)))
      else
        match s0.gal c.gallery with
        | none => .fault .noSuchAddress
        | some g =>
          let s1 := (s0.nextKey c.agent 0).1
          let name := (c.coreNo.bind (fun k => s0.nameOf c.gallery k)).getD (2 ^ 16)
          let k := queueKey name (fld x 0 4)
          match tget g.channels k [] with
          | [] => .ok (s1.finish s.focus ((t.putUni d.toNat 0).putUni b.toNat 0) c e 4)
          | m :: rest =>
            .ok ((s1.putG c.gallery { g with channels := tset g.channels k rest [] }).finish s.focus
              ((t.putUni d.toNat m).putUni b.toNat 1) c e 4))
    s

/-! ## SNAP -/

/-- The framed leaves of a gallery: virtual address, log2 of the page, frame on stage; ascending (R395). -/
def State.framedPages (s : State) (gi : Nat) (g : Gallery) : List (Nat × Nat × Nat) :=
  ((s.leaves gi g).filter (fun x => bit x.2.2 11)).map (fun x =>
    (x.1, x.2.1, stageBase s.mem gi g (fld x.2.2 16 40 * 2 ^ 16) x.2.1))

/-- Bytes of page data, and of header and entries rounded up (R395). -/
def snapData (ps : List (Nat × Nat × Nat)) : Nat := sumNat (ps.map (fun x => 2 ^ x.2.1))
def snapHead (ps : List (Nat × Nat × Nat)) : Nat := (64 + 16 * ps.length + 65535) / 65536 * 65536

/-- The highest timestamp at which a framed page, or a line of the page tables, was read or written: F is past it (R310). -/
def State.framedLease (s : State) (gi : Nat) (g : Gallery) : Nat :=
  let tables := (tablesFrom s.mem gi g.memSize 4 1 g.groot.toNat).foldl (fun a x =>
    Nat.max a (s.pairLease gi g x 12)) 0
  ((s.leaves gi g).filter (fun x => bit x.2.2 11)).foldl (fun a x =>
    Nat.max a (s.pairLease gi g (fld x.2.2 16 40 * 2 ^ 16) x.2.1)) tables

/-- What a freeze reads: the frames on stage and the page tables, each as its first cell and its cells (R395). -/
def State.frozenRanges (s : State) (gi : Nat) (g : Gallery) : List (Nat × Nat) :=
  (s.framedPages gi g).map (fun x => ((Loc.dram gi x.2.2).cell, 2 ^ x.2.1)) ++
    (tablesFrom s.mem gi g.memSize 4 1 g.groot.toNat).map (fun x => ((Loc.dram gi x).cell, 8192))

/-- A freeze at the next key F of an agent: past every access to what it reads, and every later write of that comes after F
(R310, R395). -/
def State.freeze (s : State) (agent gi : Nat) (g : Gallery) : State :=
  let r := s.nextKey agent (s.framedLease gi g + 1)
  let ranges := s.frozenRanges gi g
  { r.1 with
    freezes := ranges.map (fun p => (p.1, p.2, r.2.t)) ++
      s.freezes.filter (fun p => !ranges.any (fun q => q.1 == p.1 && q.2 == p.2.1)) }

/-- The checks of the area's pages (R394, R434). -/
def State.snapArea (s : State) (gi : Nat) (g : Gallery) (priv : Priv) (a n : Nat) : Res Unit :=
  match s.pages gi g priv .write a n with
  | .off => .fault .noSuchAddress
  | .fail x fk => .trap (pageFault (BitVec.ofNat 64 x) fk .write)
  | .ok ps =>
    match ps.find? (fun p => p.2.framed) with
    | some p => .trap (engineTrap 8 p.1)
    | none => if g.protect && ps.any (fun p => fld p.2.pte 14 2 != 0) then .trap (engineTrap 1 0) else .ok ()

/-- SNAP (R394, R395): the freeze takes one key F. -/
def execSnap (e : Bool) (d a b : BitVec 5) (s : State) : Out :=
  issue supervisorOnly (fun _ => [sReg d.toNat, sReg a.toNat, sReg b.toNat])
    (fun t0 c =>
      if t0.cueFull t0.cueB then .wait
      else
        let ch := s.charge t0 [a.toNat, b.toNat]
        let s0 := ch.1
        let t := ch.2
        let area := t.uni a.toNat
        let size := (t.uni b.toNat).toNat
        match s0.gal c.gallery with
        | none => .fault .noSuchAddress
        | some g =>
          if area.toNat % 65536 ≠ 0 then .trap (trapOf .align area)
          else
            (s0.snapArea c.gallery g t.priv area.toNat size).bind (fun _ =>
              let ps := s0.framedPages c.gallery g
              if g.snap.isSome then .ok (s0.finish s.focus (t.putUni d.toNat 1) c e 4)
              else if size < snapHead ps + snapData ps then .ok (s0.finish s.focus (t.putUni d.toNat 2) c e 4)
              else
                let frozen := ps.flatMap (fun (x : Nat × Nat × Nat) =>
                  cellsIn s0.mem (Loc.dram c.gallery x.2.2).cell (2 ^ x.2.1))
                let n : Snap :=
                  { tk := s.focus, op := s0.nextOp, reg := sReg d.toNat, cue := t.cueB, area := area, size := size, tick := s0.tick, fpgen := g.fpgen, pages := ps, streamed := 0,
                    copied := [], frozen := frozen, status := 0 }
                let s1 := (({ s0 with nextOp := s0.nextOp + 1 } : State).freeze c.agent c.gallery g).putG c.gallery
                  { g with snap := some n }
                .ok (s1.finish s.focus (t.issueOp s0.nextOp t.cueB [sReg d.toNat] [] false none 0) c e 4)))
    s

/-- The stream passes a frozen line: the line and those before it are streamed (R395). -/
def execSnapshotStreamPassesLine (gi line : Nat) (s : State) : Out :=
  match s.gal gi with
  | none => .next s
  | some g =>
    match g.snap with
    | none => .next s
    | some n =>
      match streamPos n.pages (line * 128) 0 with
      | none => .next s
      | some pos => .next (s.putG gi { g with snap := some { n with streamed := Nat.max n.streamed (pos + 128) } })

/-- The byte of a frozen page at its freeze, by cell. -/
def Snap.byteAt (n : Snap) (c : Nat) : Byte := ((n.frozen.find? (fun x => x.1 == c)).map (·.2)).getD 0
/-- The bytes of the frozen pages, in entry order. -/
def Snap.data (n : Snap) (gi : Nat) : List Byte :=
  n.pages.flatMap (fun x => (List.range (2 ^ x.2.1)).map (fun i => n.byteAt ((Loc.dram gi x.2.2).cell + i)))

/-- Header without DONE, and the entries (R396). -/
def Snap.head (n : Snap) (gi : Nat) : List Byte :=
  leBytes 4 0x5041_4E53 ++ leBytes 2 1 ++ leBytes 1 gi ++ [0] ++ leBytes 8 n.fpgen ++ leBytes 8 n.pages.length ++
    leBytes 8 (snapData n.pages) ++ leBytes 8 n.tick ++ List.replicate 24 0 ++
    n.pages.flatMap (fun x => leBytes 8 x.1 ++ leBytes 1 x.2.1 ++ List.replicate 7 0)

/-- Some page of the area is of host or pool memory, whose device or link may fail (R434). -/
def State.areaOutside (s : State) (gi : Nat) (n : Snap) : Bool :=
  match s.gal gi with
  | none => false
  | some g => match s.pages gi g .supervisor .write n.area.toNat n.size with
    | .ok ps => ps.any (fun p => fld p.2.pte 14 2 != 0)
    | _ => false

/-- The stream: header and entries, pages, status, and DONE last (R396). -/
def State.streamAll (s : State) (gi : Nat) (n : Snap) : Res State :=
  let put (r : Res State) (a : Nat) (bs : List Byte) : Res State :=
    r.bind (fun z => z.writeBulk gi .supervisor curatorAgent (n.area + BitVec.ofNat 64 a) bs)
  put (put (put (put (.ok s) 0 (n.head gi)) (snapHead n.pages) (n.data gi)) 0x28 (leBytes 8 0)) 0x38 (leBytes 8 1)

/-- The lines of an area whose contents are unspecified hold bytes that nothing constrains (R395). -/
def State.scrambleArea (s : State) (gi : Nat) (n : Snap) : State :=
  (List.range ((n.size + 127) / 128)).foldl (fun (z : State) i =>
    match z.reachHw gi (n.area + BitVec.ofNat 64 (128 * i)) 1 .write with
    | some (z1, l) => ({ z1 with free := z1.free + 128 } : State).writeAt l (freeBytes z1.free (Nat.min 128 (n.size - 128 * i)))
    | none => z) s

/-- The area is written, or the stream fails: at a page that cannot be written, or, which is free, in the host or pool memory
that holds it; a failure gives status 3 and leaves the area unspecified (R395, R434; log 9). -/
def State.streamSnap (s : State) (gi : Nat) (n : Snap) : State × Nat :=
  let fails := s.areaOutside gi n && decide (Config.freeChoice s.free % 2 = 1)
  let s0 := { s with free := s.free + 1 }
  match s0.streamAll gi n with
  | .ok z => if fails then (s0.scrambleArea gi n, 3) else (z, 0)
  | _ => (s0.scrambleArea gi n, 3)

/-- The snapshot's status reaches its thread, or is kept for it where its cast is off every core; the freeze ends. -/
def State.endSnap (s : State) (gi : Nat) (n : Snap) (st : Nat) : State :=
  let away := (s.thread n.tk).isNone && (match s.cast (castOf n.tk) with
    | some c => !decide (c.res = .ended)
    | none => false)
  let s1 := { s with
    gals := tmod s.gals gi (fun g => { g with
      snap := none, snapres := g.snapresW
      snapOwed := if away then g.snapOwed ++ [({ tk := n.tk, reg := n.reg, cue := n.cue, status := st } : SnapOwed)] else g.snapOwed })
    threads := tmod s.threads n.tk (fun t => { t with
      outst := t.outst.map (fun (p : Outst) =>
        if p.op = n.op then { p with vals := [BitVec.ofNat 64 st], ready := true } else p) }) }
  s1.completeOp n.tk n.op

/-- SNAPSHOT_COMPLETE: the stream ends; in a quiesce it goes on until every cast stands still (R391). -/
def execSnapshotComplete (gi : Nat) (s : State) : Out :=
  match s.gal gi with
  | none => .next s
  | some g =>
    match g.snap with
    | none => .next s
    | some n =>
      let r := s.streamSnap gi n
      .next (r.1.endSnap gi n r.2)

/-- A store that a full reserve held is tried again. -/
def State.retryStore (s : State) (tk : Nat) : State :=
  match s.thread tk with
  | none => s
  | some t => if t.held = some .snapshot then s.putT tk { t with held := none } else s

end Sys2Proof.Machine
end

