-- ==== Sys2Proof/Machine/HostSide.lean ====
section
/-! DEFINITION. What reaches the module from outside beside management requests: module reset (22_fabric_host.md R426),
host accesses to gallery DRAM (14_die_memory_order.md R311; 20_package_protection.md R405), the peer fabric (R427), and
the evidence, TDISP, IDE and group messages of a virtual function (R410 to R413, R419, R420). -/
namespace Sys2Proof.Machine

/-! ## Module reset (R412, R426) -/

/-- Cells of host and pool memory: they are no part of the module. -/
def outsideCells (m : List Host.Cell) : List Host.Cell :=
  m.filter (fun c => decide (3 * 2 ^ 64 ≤ c.1) && decide (c.1 < 5 * 2 ^ 64))

/-- The staged image passes both signatures and the fused minimum of its security version (R412). -/
def Module.stagedGood (d : Module) : Bool :=
  match d.staged with
  | none => true
  | some img => Config.imageVerifies img && decide (d.svn ≤ Config.imageSecurity img)

/-- The step of R426 at which a boot fails, where one does: the one given, or 2 where the staged firmware does not verify. -/
def Module.bootFails (d : Module) (failed : Option Nat) : Option Nat :=
  match failed with
  | some n => if n ≤ 1 ∨ d.stagedGood = true then some n else some 2
  | none => if d.stagedGood then none else some 2

/-- The boot comes through a step. -/
def Module.bootPasses (d : Module) (failed : Option Nat) (step : Nat) : Bool :=
  match d.bootFails failed with
  | some n => decide (step < n)
  | none => true

/-- The management side after a module reset that fails at a step, or at none, with regions that fail their test: the new
firmware runs once steps 1 and 2 are made, and GOOD is set by step 3. -/
def Module.rebooted (d : Module) (failed : Option Nat) (bad : List Nat) : Module :=
  { Module.initial with
    recovery := (d.bootFails failed).isSome
    fw := (match d.staged with
      | some img => if d.bootPasses failed 2 then Config.imageVersion img else d.fw
      | none => d.fw)
    good := if d.bootPasses failed 3 then (List.range 224).filter (fun r => !bad.contains r) else List.range 224
    staged := if d.bootPasses failed 2 then none else d.staged
    draws := d.draws
    svn := d.svn }

/-- MODULE_RESET: the module as State.reset gives it; what lies outside it stays, and every region that fails in step 3 is
retired and logged. -/
def execModuleReset (failed : Option Nat) (bad : List Nat) (s : State) : Out :=
  let s1 := { State.reset with
    agenda := s.agenda, free := s.free, nextOp := s.nextOp, nextProd := s.nextProd, mem := outsideCells s.mem
    dev := s.dev.rebooted failed bad }
  .next (if s.dev.bootPasses failed 3 then
    ((List.range 224).filter bad.contains).foldl (fun (z : State) r =>
      z.log logCurator 0 1 noGallery (BitVec.ofNat 64 r)) s1
  else s1)

/-! ## Host accesses to gallery memory (R311, R405, R420) -/

/-- An outside access reaches the gallery's memory and stub page: the gallery is not protected, or its TDI is in RUN and the
access arrives over an IDE stream bound to it (R405, R420). -/
def Gallery.hostOpen (g : Gallery) (stream : Option Nat) : Bool :=
  !g.protect || (decide (g.tdi = .run) && (match stream with
    | some n => (tfind g.ide n).isSome
    | none => false))

/-- The pieces of bytes from an address of gallery DRAM on, a line each. -/
def hostPieces (gi : Nat) : Nat → Nat → List Byte → List (Loc × List Byte)
  | 0, _, _ => []
  | f + 1, a, bs =>
    if bs.isEmpty then []
    else (.dram gi a, bs.take (128 - a % 128)) :: hostPieces gi f (a + (128 - a % 128)) (bs.drop (128 - a % 128))

/-- The host's write of some pieces at one key; a frozen page whose reserve is full holds it (R311, R395). -/
def State.hostPut (s : State) (ws : List (Loc × List Byte)) : Res State :=
  (ws.foldl (fun (r : Res State) w => r.bind (fun z => z.snapGuard w.1)) (.ok s)).bind (fun s1 =>
    .ok (ws.foldl (fun (z : State) w => z.lineState w.1 w.2.length false) (s1.putAll hostAgent ws).1))

/-- HOST_CXL_MEM_ACCESS: an access to gallery physical memory takes a key with the host port's agent name. What a read
returns goes to the host; a write replaces the bytes given. -/
def execHostCxlMemAccess (h : HostPath) (addr : Nat) (write : Bool) (data : List Byte) (s : State) : Out :=
  let gi := h.tag
  match s.gal gi with
  | none => .next s
  | some g =>
    if g.state ≠ .opened then .next s
    else if g.memSize < addr + data.length then .next s
    else if !g.hostOpen h.stream then
      (if write then
        .next (s.log logRouter (g.tiles.getD (addr / Config.dramPerTile) 0 * 160 + vaultOf g addr % 40 * 4) 2 gi
          (BitVec.ofNat 64 addr))
      else .next s)
    else if write then
      (match s.hostPut (hostPieces gi (data.length / 128 + 2) addr data) with
      | .ok s1 => .next s1
      | _ => .next s)
    else .next ((s.noteRead hostAgent (.dram gi addr)).1.notePoison (.dram gi addr))

/-! ## The peer fabric (R413, R427) -/

def Module.port (d : Module) (n : Nat) : Port := tget d.ports n ⟨false, 0⟩
def State.putPort (s : State) (n : Nat) (p : Port) : State :=
  { s with dev := { s.dev with ports := tput s.dev.ports n p } }

/-- FABRIC_BRING_UP: ports train, and the host gives the module its number. -/
def execFabricBringUp (ports : List Nat) (number : Nat) (s : State) : Out :=
  let s1 := (ports.filter (fun p => decide (p < 32))).foldl (fun (z : State) p => z.putPort p ⟨true, 0⟩) s
  .next { s1 with dev := { s1.dev with number := number % 4096 } }

/-- A port goes down where one flit has failed, and has failed again in each of its 16 retries. -/
def State.portDown (s : State) (port : Nat) : State :=
  let p := s.dev.port port
  if p.up && decide (17 ≤ p.retries) then
    (s.putPort port { p with up := false }).log logCurator 0 7 noGallery (BitVec.ofNat 64 port)
  else s

/-- FABRIC_PORT_DOWN. -/
def execFabricPortDown (port : Nat) (s : State) : Out := .next (s.portDown port)

/-- A dropped flit is logged with its reason. -/
def State.dropFlit (s : State) (port reason tag comm : Nat) : State :=
  s.log logCurator 0 8 (if (s.gal tag).isSome then tag else noGallery)
    (BitVec.ofNat 64 (reason + tag * 2 ^ 8 + comm * 2 ^ 16 + port * 2 ^ 24))

/-- The payload of a flit for a gallery: opened under its group key, where it has one. -/
def flitPayload (g : Gallery) (flit : List Byte) : Option (List Byte) :=
  let n := Nat.min (recNat flit 0x0E 2) 216
  match g.group with
  | none => some ((flit.drop 0x10).take n)
  | some (_, key, _) => (Config.flitOpen key flit).map (fun x => x.take n)

/-- What a flit that has passed its checks brings to the collective of its sequence (R427, R430; log 8): data from an
element on, or the control word of a rank. -/
def State.deliverFlit (s : State) (gi : Nat) (g : Gallery) (flit payload : List Byte) : State :=
  let kind := fld (recNat flit 0 2) 12 4
  let k := recNat flit 3 1 * 2 ^ 32 + recNat flit 4 4
  let off := recNat flit 8 4 + recNat flit 0x0C 2 * 2 ^ 32
  let b := g.box k
  let put (x : CollBox) : State := s.putG gi { g with inbox := tput g.inbox k x }
  if kind = 1 then put { b with data := b.data ++ [(off, payload, false)] }
  else if kind = 2 then put { b with ctls := tput b.ctls off (BitVec.ofNat 64 (leNat (payload.take 8))) }
  else s

/-- FABRIC_FLIT_RECEIVE: the link's CRC, then tag, communicator and authenticity, in that order; a flit for another
module goes on to it. -/
def execFabricFlitReceive (port : Nat) (flit : List Byte) (s : State) : Out :=
  let p := s.dev.port port
  let tag := recNat flit 2 1
  let comm := recNat flit 3 1
  if !p.up then .next s
  else if flit.length ≠ 256 ∨ Config.flitCrcGood flit = false then .next (s.putPort port { p with retries := p.retries + 1 })
  else if recNat flit 0 2 % 4096 ≠ s.dev.number then .next (s.putPort port { p with retries := 0 })
  else
    match s.gal tag with
    | none => .next ((s.putPort port { p with retries := 0 }).dropFlit port 1 tag comm)
    | some g =>
      if g.state ≠ .opened then .next s
      else
        let s1 := s.putPort port { p with retries := 0 }
        if (tfind g.comms comm).isNone then .next (s1.dropFlit port 2 tag comm)
        else
          match flitPayload g flit with
          | none => .next (s1.dropFlit port 3 tag comm)
          | some payload => .next (s1.deliverFlit tag g flit payload)

/-! ## Evidence (R410, R411; log 8) -/

/-- The state byte of block 6: 2 where every core of the gallery is gated, 1 where no cast is on one. -/
def State.stateByte (s : State) (gi : Nat) (g : Gallery) : Byte :=
  if g.tiles.all (fun t => (List.range 160).all (fun i => (s.core (t * 160 + i)).gated)) then 2
  else if s.casts.any (fun p => p.2.gallery == gi && p.2.coreNo.isSome) then 0
  else 1

/-- Block 4: protected, external debug, protected ways, IDREV. -/
def State.securityConfig (s : State) (g : Gallery) : List Byte :=
  [if g.protect then 1 else 0, if g.debug then 1 else 0, if g.protect then 12 else 0] ++
    leBytes 8 (s.dev.fw.toNat * 2 ^ 16 + 2)

/-- The six measurement blocks, each with its index and length; the plan is the curator's record of the last re-attestation. -/
def State.blocks (s : State) (gi : Nat) (g : Gallery) : List Byte :=
  let plan := g.plan
  let put (i : Nat) (bs : List Byte) : List Byte := leBytes 1 i ++ leBytes 2 bs.length ++ bs
  put 1 (Config.measurement 1) ++ put 2 (Config.measurement 2) ++ put 3 (Config.measurement 3) ++
    put 4 (sha384 (s.securityConfig g)) ++ put 5 (sha384 plan) ++
    put 6 ([s.stateByte gi g] ++ (plan.drop 8).take 8 ++ (plan.drop 0x28).take 8)

/-- The response, in the virtual function's mailbox: the blocks, the nonce, and both signatures over the hash of what precedes
them. -/
def State.measure (s : State) (gi : Nat) (nonce : List Byte) : State :=
  match s.gal gi with
  | none => s
  | some g =>
    let body := s.blocks gi g ++ nonce
    let h := sha384 body
    s.putG gi { g with mailbox := body ++ Config.signature 0 h ++ Config.signature 1 h }

/-- Something waits for the reopening of a gallery (R391). -/
def State.defer (s : State) (gi : Nat) (i : Deferred) : State :=
  { s with gals := tmod s.gals gi (fun g => { g with deferred := g.deferred ++ [i] }) }

/-- SPDM_GET_MEASUREMENTS: during a quiesce it waits for the reopening; no core wakes for it. -/
def execSpdmGetMeasurements (gi : Nat) (nonce : List Byte) (s : State) : Out :=
  match s.gal gi with
  | none => .next s
  | some g =>
    if g.state = .opened then .next (s.measure gi nonce) else .next (s.defer gi (.measure nonce))

/-! ## Sessions, TDISP, IDE and groups (R413, R419, R420) -/

/-- SPDM_SECURED_SESSION: a session with the gallery's virtual function is complete. -/
def execSpdmSecuredSession (gi : Nat) (s : State) : Out :=
  .next { s with gals := tmod s.gals gi (fun g => { g with session := true }) }

/-- The state that a lock request leads to, after a completed session. -/
def Tdi.lock (t : Tdi) : Tdi :=
  match t with
  | .unlocked => .locked
  | .error => .unlocked
  | x => x

/-- TDISP_LOCK: accepted only after a session; the virtual function of a tag without a gallery is absent, so that no session
of it is ever complete (R419, R420). -/
def execTdispLock (gi : Nat) (s : State) : Out :=
  match s.gal gi with
  | none => .next s
  | some g =>
    if g.session then
      .next { s.putG gi { g with tdi := g.tdi.lock } with dev := { s.dev with errTags := s.dev.errTags.filter (· != gi) } }
    else .next s

/-- TDISP_RUN_REQUEST: from CONFIG_LOCKED to RUN. -/
def execTdispRunRequest (gi : Nat) (s : State) : Out :=
  .next { s with gals := tmod s.gals gi (fun g => if g.tdi = .locked then { g with tdi := .run } else g) }

/-- IDE_KEY_MANAGEMENT: one of the VF's four selective streams is programmed and started (R418). -/
def execIdeKeyManagement (gi stream : Nat) (key : List Byte) (s : State) : Out :=
  if stream < 4 then .next { s with gals := tmod s.gals gi (fun g => { g with ide := tput g.ide stream key }) }
  else .next s

/-- GROUP_KEY_DELIVERY: over a session, the 32 bytes of the key and then the digests of the members' identity keys; it is
installed where the module's own digest is among them, and replaces the key before (R413). -/
def execGroupKeyDelivery (gi grp : Nat) (key : List Byte) (s : State) : Out :=
  match s.gal gi with
  | none => .next s
  | some g =>
    let members := groups 47 (key.length / 48) (key.drop 32)
    if g.session && members.contains Config.identityDigest then
      .next (s.putG gi { g with group := some (grp % 2 ^ 32, key.take 32, members) })
    else .next s

end Sys2Proof.Machine
end

