-- ==== Sys2Proof/Machine/Integer.lean ====
section
/-! DEFINITION. Lane integer, immediate, multiply and divide, compare, predicate, move and transfer words
(05_thread_integer_control.md R117 to R134; R116). -/
namespace Sys2Proof.Machine

/-! ## Shapes -/

/-- vd := f(va, vb). -/
def rrr (e : Bool) (d a b : BitVec 6) (f : Word → Word → Word) : State → Out :=
  laneWord e (fun _ => [vReg d.toNat]) (fun _ => [vReg a.toNat, vReg b.toNat])
    (fun t => .ok (t.setLane d.toNat (f (t.lane a.toNat) (t.lane b.toNat))))

/-- vd := f(va, vb), saturating where the prefix asks for it. -/
def rrrSat (e : Bool) (d a b : BitVec 6) (f : Bool → Word → Word → Word) : State → Out :=
  laneWord e (fun _ => [vReg d.toNat]) (fun _ => [vReg a.toNat, vReg b.toNat])
    (fun t => .ok (t.setLane d.toNat (f t.sat (t.lane a.toNat) (t.lane b.toNat))))

/-- Pair vd := f(pair va, pair vb). -/
def pairOp (e : Bool) (d a b : BitVec 6) (f : Bool → DWord → DWord → DWord) : State → Out :=
  laneWord e (fun _ => vPair d.toNat) (fun _ => vPair a.toNat ++ vPair b.toNat)
    (fun t => .ok (t.setPair d.toNat (f t.sat (t.pair a.toNat) (t.pair b.toNat))))

/-- vd := f(va). -/
def rr (e : Bool) (d a : BitVec 6) (f : Word → Word) : State → Out :=
  laneWord e (fun _ => [vReg d.toNat]) (fun _ => [vReg a.toNat])
    (fun t => .ok (t.setLane d.toNat (f (t.lane a.toNat))))

/-- vd := f(va, vb, addend), with the addend of R31. -/
def accumulate (e : Bool) (d a b : BitVec 6) (f : Bool → Word → Word → Word → Word) : State → Out :=
  laneWord e (fun _ => [vReg d.toNat]) (fun t => [vReg a.toNat, vReg b.toNat, vReg (t.third d)])
    (fun t => .ok (t.setLane d.toNat (f t.sat (t.lane a.toNat) (t.lane b.toNat) (t.lane (t.third d)))))

/-! ## Values -/

/-- A number of a condition. -/
def ofBool (b : Bool) : Word := if b then 1 else 0

/-- SHL (R121). -/
def shl32 (a : Word) (n : Nat) : Word := if 32 ≤ n then 0 else a <<< n
/-- SHR (R121). -/
def shr32 (a : Word) (n : Nat) : Word := if 32 ≤ n then 0 else a >>> n
/-- SAR (R121). -/
def sar32 (a : Word) (n : Nat) : Word :=
  if 32 ≤ n then (if a.msb then 0xFFFF_FFFF else 0) else a.sshiftRight n
/-- ROTL (R121). -/
def rotl32 (a : Word) (m : Nat) : Word := (a <<< m) ||| (a >>> (32 - m))

/-- The number of 1 bits among the low n bits. -/
def popCount (a : Word) : Nat → Nat
  | 0 => 0
  | n + 1 => popCount a n + (a.getLsbD n).toNat
/-- Zero bits above the highest 1 among the low n bits. -/
def leadingZeros (a : Word) : Nat → Nat
  | 0 => 0
  | n + 1 => if a.getLsbD n then 0 else leadingZeros a n + 1
/-- Zero bits below the lowest 1, from bit i on, for n bits. -/
def trailingZeros (a : Word) (i : Nat) : Nat → Nat
  | 0 => 0
  | n + 1 => if a.getLsbD i then 0 else trailingZeros a (i + 1) n + 1
/-- The low n bits in reverse order. -/
def reverseBits (a : Word) : Nat → Nat
  | 0 => 0
  | n + 1 => 2 * reverseBits a n + (a.getLsbD n).toNat
/-- BSWAP (R120). -/
def swapBytes (a : Word) : Word :=
  a.extractLsb' 0 8 ++ a.extractLsb' 8 8 ++ a.extractLsb' 16 8 ++ a.extractLsb' 24 8

/-- BFX (R122). -/
def extractField (a b : Word) : Word :=
  let pos := fld b.toNat 0 5
  let len := Nat.min (fld b.toNat 8 6) 32
  let f : Int := ((a.toNat / 2 ^ pos % 2 ^ len : Nat) : Int)
  if b.getLsbD 15 && decide (0 < len) && bit (a.toNat / 2 ^ pos) (len - 1) then BitVec.ofInt 32 (f - 2 ^ len)
  else BitVec.ofInt 32 f
/-- BFI (R122): d is the old destination. -/
def insertField (d a b : Word) : Word :=
  let pos := fld b.toNat 0 5
  let len := Nat.min (fld b.toNat 8 6) 32
  let m : Word := BitVec.ofNat 32 ((2 ^ len - 1) * 2 ^ pos)
  (d &&& ~~~m) ||| ((a <<< pos) &&& m)

/-- DIV (R127). -/
def divSigned (a b : Word) : Word := if b = 0 then 0xFFFF_FFFF else BitVec.ofInt 32 (a.toInt.tdiv b.toInt)
/-- DIVU (R127). -/
def divUnsigned (a b : Word) : Word := if b = 0 then 0xFFFF_FFFF else BitVec.ofNat 32 (a.toNat / b.toNat)
/-- REM (R127). -/
def remSigned (a b : Word) : Word := if b = 0 then a else BitVec.ofInt 32 (a.toInt.tmod b.toInt)
/-- REMU (R127). -/
def remUnsigned (a b : Word) : Word := if b = 0 then a else BitVec.ofNat 32 (a.toNat % b.toNat)

/-- Byte i of a word, signed or not. -/
def sByte (a : Word) (i : Nat) : Int := (a.extractLsb' (8 * i) 8).toInt
def uByte (a : Word) (i : Nat) : Int := ((a.extractLsb' (8 * i) 8).toNat : Int)
/-- Half i of a word, signed. -/
def sHalf (a : Word) (i : Nat) : Int := (a.extractLsb' (16 * i) 16).toInt

/-- DOT4S and DOT4U saturate once (R116). -/
def dot4Signed (a b c : Word) : Word :=
  BitVec.ofInt 32 (clampInt (c.toInt + sByte a 0 * sByte b 0 + sByte a 1 * sByte b 1 + sByte a 2 * sByte b 2
    + sByte a 3 * sByte b 3) (-(2 ^ 31)) (2 ^ 31 - 1))
def dot4Unsigned (a b c : Word) : Word :=
  BitVec.ofInt 32 (clampInt ((c.toNat : Int) + uByte a 0 * uByte b 0 + uByte a 1 * uByte b 1 + uByte a 2 * uByte b 2
    + uByte a 3 * uByte b 3) 0 (2 ^ 32 - 1))
/-- DOT2S (R128). -/
def dot2Signed (sat : Bool) (a b c : Word) : Word :=
  fitSigned 32 sat (c.toInt + sHalf a 0 * sHalf b 0 + sHalf a 1 * sHalf b 1)

/-- The condition of CMP and CMPI (R38). -/
def intCond (k : Nat) (a b : Word) : Bool :=
  match k with
  | 0 => a == b
  | 1 => a != b
  | 2 => a.slt b
  | 3 => a.sle b
  | 4 => b.slt a
  | 5 => b.sle a
  | 6 => a.ult b
  | 7 => a.ule b
  | 8 => b.ult a
  | _ => b.ule a

/-! ## ADD to BFI (R119 to R122) -/

def execAdd (e : Bool) (d a b : BitVec 6) : State → Out :=
  rrrSat e d a b (fun sat x y => if sat then fitSigned 32 true (x.toInt + y.toInt) else x + y)
def execSub (e : Bool) (d a b : BitVec 6) : State → Out :=
  rrrSat e d a b (fun sat x y => if sat then fitSigned 32 true (x.toInt - y.toInt) else x - y)
def execAddc (e : Bool) (d a b : BitVec 6) : State → Out :=
  rrr e d a b (fun x y => ofBool (decide (2 ^ 32 ≤ x.toNat + y.toNat)))
def execSubb (e : Bool) (d a b : BitVec 6) : State → Out := rrr e d a b (fun x y => ofBool (x.ult y))
def execAdd64 (e : Bool) (d a b : BitVec 6) : State → Out :=
  pairOp e d a b (fun sat x y => if sat then fitSigned 64 true (x.toInt + y.toInt) else x + y)
def execSub64 (e : Bool) (d a b : BitVec 6) : State → Out :=
  pairOp e d a b (fun sat x y => if sat then fitSigned 64 true (x.toInt - y.toInt) else x - y)
def execMin (e : Bool) (d a b : BitVec 6) : State → Out := rrr e d a b (fun x y => if y.slt x then y else x)
def execMax (e : Bool) (d a b : BitVec 6) : State → Out := rrr e d a b (fun x y => if x.slt y then y else x)
def execMinu (e : Bool) (d a b : BitVec 6) : State → Out := rrr e d a b (fun x y => if y.ult x then y else x)
def execMaxu (e : Bool) (d a b : BitVec 6) : State → Out := rrr e d a b (fun x y => if x.ult y then y else x)
def execAbs (e : Bool) (d a : BitVec 6) : State → Out := rr e d a (fun x => if x.msb then -x else x)
def execAnd (e : Bool) (d a b : BitVec 6) : State → Out := rrr e d a b (fun x y => x &&& y)
def execOr (e : Bool) (d a b : BitVec 6) : State → Out := rrr e d a b (fun x y => x ||| y)
def execXor (e : Bool) (d a b : BitVec 6) : State → Out := rrr e d a b (fun x y => x ^^^ y)
def execAndn (e : Bool) (d a b : BitVec 6) : State → Out := rrr e d a b (fun x y => x &&& ~~~y)
def execShl (e : Bool) (d a b : BitVec 6) : State → Out := rrr e d a b (fun x y => shl32 x y.toNat)
def execShr (e : Bool) (d a b : BitVec 6) : State → Out := rrr e d a b (fun x y => shr32 x y.toNat)
def execSar (e : Bool) (d a b : BitVec 6) : State → Out := rrr e d a b (fun x y => sar32 x y.toNat)
def execRotl (e : Bool) (d a b : BitVec 6) : State → Out := rrr e d a b (fun x y => rotl32 x (y.toNat % 32))
def execPopc (e : Bool) (d a : BitVec 6) : State → Out := rr e d a (fun x => BitVec.ofNat 32 (popCount x 32))
def execClz (e : Bool) (d a : BitVec 6) : State → Out := rr e d a (fun x => BitVec.ofNat 32 (leadingZeros x 32))
def execCtz (e : Bool) (d a : BitVec 6) : State → Out := rr e d a (fun x => BitVec.ofNat 32 (trailingZeros x 0 32))
def execBrev (e : Bool) (d a : BitVec 6) : State → Out := rr e d a (fun x => BitVec.ofNat 32 (reverseBits x 32))
def execBswap (e : Bool) (d a : BitVec 6) : State → Out := rr e d a swapBytes
def execBfx (e : Bool) (d a b : BitVec 6) : State → Out := rrr e d a b extractField
def execBfi (e : Bool) (d a b : BitVec 6) : State → Out :=
  laneWord e (fun _ => [vReg d.toNat]) (fun _ => [vReg a.toNat, vReg b.toNat])
    (fun t => .ok (t.setLane d.toNat (insertField (t.lane d.toNat) (t.lane a.toNat) (t.lane b.toNat))))

/-! ## Immediate forms (R123 to R125) -/

def execAddi (e : Bool) (d a : BitVec 6) (i : BitVec 12) : State → Out := rr e d a (fun x => x + i.signExtend 32)
def execAndi (e : Bool) (d a : BitVec 6) (i : BitVec 12) : State → Out := rr e d a (fun x => x &&& i.signExtend 32)
def execOri (e : Bool) (d a : BitVec 6) (i : BitVec 12) : State → Out := rr e d a (fun x => x ||| i.signExtend 32)
def execXori (e : Bool) (d a : BitVec 6) (i : BitVec 12) : State → Out := rr e d a (fun x => x ^^^ i.signExtend 32)
def execShli (e : Bool) (d a : BitVec 6) (n : BitVec 5) : State → Out := rr e d a (fun x => shl32 x n.toNat)
def execShri (e : Bool) (d a : BitVec 6) (n : BitVec 5) : State → Out := rr e d a (fun x => shr32 x n.toNat)
def execSari (e : Bool) (d a : BitVec 6) (n : BitVec 5) : State → Out := rr e d a (fun x => sar32 x n.toNat)
def execMovi (e : Bool) (d : BitVec 6) (i : BitVec 17) : State → Out :=
  laneWord e (fun _ => [vReg d.toNat]) (fun _ => []) (fun t => .ok (t.setLane d.toNat (i.signExtend 32)))
def execMovhi (e : Bool) (d : BitVec 6) (i : BitVec 17) : State → Out :=
  laneWord e (fun _ => [vReg d.toNat]) (fun _ => [])
    (fun t => .ok (t.setLane d.toNat (i ++ (t.lane d.toNat).extractLsb' 0 15)))

/-! ## Multiply, divide and packed dot products (R126 to R128) -/

def execMullo (e : Bool) (d a b : BitVec 6) : State → Out :=
  rrrSat e d a b (fun sat x y => if sat then fitSigned 32 true (x.toInt * y.toInt) else x * y)
def execMulhi (e : Bool) (d a b : BitVec 6) : State → Out :=
  rrr e d a b (fun x y => (x.signExtend 64 * y.signExtend 64).extractLsb' 32 32)
def execMulhiu (e : Bool) (d a b : BitVec 6) : State → Out :=
  rrr e d a b (fun x y => (x.setWidth 64 * y.setWidth 64).extractLsb' 32 32)
def execMad (e : Bool) (d a b : BitVec 6) : State → Out :=
  accumulate e d a b (fun sat x y z =>
    if sat then fitSigned 32 true (x.toInt * y.toInt + z.toInt) else x * y + z)
def execDiv (e : Bool) (d a b : BitVec 6) : State → Out := rrr e d a b divSigned
def execDivu (e : Bool) (d a b : BitVec 6) : State → Out := rrr e d a b divUnsigned
def execRem (e : Bool) (d a b : BitVec 6) : State → Out := rrr e d a b remSigned
def execRemu (e : Bool) (d a b : BitVec 6) : State → Out := rrr e d a b remUnsigned
def execDot4s (e : Bool) (d a b : BitVec 6) : State → Out := accumulate e d a b (fun _ x y z => dot4Signed x y z)
def execDot4u (e : Bool) (d a b : BitVec 6) : State → Out := accumulate e d a b (fun _ x y z => dot4Unsigned x y z)
def execDot2s (e : Bool) (d a b : BitVec 6) : State → Out := accumulate e d a b dot2Signed

/-! ## Compares and predicates (R129 to R132) -/

def execCmp (e : Bool) (p : BitVec 4) (c : BitVec 2) (a b k : BitVec 6) : State → Out :=
  laneWord e (fun _ => []) (fun _ => [vReg a.toNat, vReg b.toNat])
    (fun t => .ok (t.setCompare p c (intCond k.toNat (t.lane a.toNat) (t.lane b.toNat))))
def execCmpi (e : Bool) (p : BitVec 4) (c : BitVec 2) (a : BitVec 6) (k : BitVec 4) (i : BitVec 8) : State → Out :=
  laneWord e (fun _ => []) (fun _ => [vReg a.toNat])
    (fun t => .ok (t.setCompare p c (intCond k.toNat (t.lane a.toNat) (i.signExtend 32))))
def execPlop (e : Bool) (d a b tt : BitVec 4) : State → Out :=
  laneWord e (fun _ => []) (fun _ => [])
    (fun t => .ok (t.setPred d.toNat (tt.getLsbD (2 * (t.pred a.toNat).toNat + (t.pred b.toNat).toNat))))
def execPmovToV (e : Bool) (d : BitVec 6) : State → Out :=
  laneWord e (fun _ => [vReg d.toNat]) (fun _ => []) (fun t => .ok (t.setLane d.toNat (t.predSet.setWidth 32)))
def execPmovToP (e : Bool) (a : BitVec 6) : State → Out :=
  laneWord e (fun _ => []) (fun _ => [vReg a.toNat]) (fun t => .ok { t with p := (t.lane a.toNat).setWidth 15 })

/-! ## Moves and transfer between lane and uniform registers (R133, R134) -/

def execMov (e : Bool) (d a : BitVec 6) : State → Out := rr e d a (fun x => x)
def execSel (e : Bool) (d a b : BitVec 6) (p : BitVec 4) : State → Out :=
  laneWord e (fun _ => [vReg d.toNat]) (fun _ => [vReg a.toNat, vReg b.toNat])
    (fun t => .ok (t.setLane d.toNat (if t.pred p.toNat then t.lane a.toNat else t.lane b.toNat)))

/-- S2V reads s-register a. -/
def s2v (e : Bool) (d a : BitVec 6) (f : DWord → Word) : State → Out :=
  laneWord e (fun _ => [vReg d.toNat]) (fun _ => [sReg a.toNat])
    (fun t => .ok (t.setLane d.toNat (f (t.uni a.toNat))))
/-- A V2S is the latest writer of s-register n (R75). -/
def Thread.laneToUni (t : Thread) (n : Nat) (x : DWord) : Thread :=
  { t.setUni n x with v2s := putBit t.v2s n true }

def execS2vLo (e : Bool) (d a : BitVec 6) : State → Out := s2v e d a (fun x => x.setWidth 32)
def execS2vHi (e : Bool) (d a : BitVec 6) : State → Out := s2v e d a (fun x => (x >>> 32).setWidth 32)
def execV2sLo (e : Bool) (d a : BitVec 6) : State → Out :=
  laneWord e (fun _ => [sReg d.toNat]) (fun _ => [vReg a.toNat])
    (fun t => .ok (t.laneToUni d.toNat ((t.lane a.toNat).setWidth 64)))
def execV2sHi (e : Bool) (d a : BitVec 6) : State → Out :=
  laneWord e (fun _ => [sReg d.toNat]) (fun _ => [vReg a.toNat])
    (fun t => .ok (t.laneToUni d.toNat (t.lane a.toNat ++ (t.uni d.toNat).setWidth 32)))
def execV2sPair (e : Bool) (d a : BitVec 6) : State → Out :=
  laneWord e (fun _ => [sReg d.toNat]) (fun _ => vPair a.toNat)
    (fun t => .ok (t.laneToUni d.toNat (t.pair a.toNat)))

/-! ## The prefix (R31) -/

/-- PFX waits for its word and changes nothing else; it is one instruction with that word (R202). -/
def execPfx (m : BitVec 4) (z : BitVec 1) (r : BitVec 3) (c : BitVec 6) (x : BitVec 1) (s : State) : Out :=
  issue anyPriv (fun _ => [])
    (fun t _ => .ok (s.putT s.focus { t with
      pc := t.pc + 4
      pfx := some ⟨m, z == 1, r, c, x == 1⟩ }))
    s

end Sys2Proof.Machine
end

