-- ==== Sys2Proof/Machine/Refresh.lean ====
section
/-! DEFINITION. Refresh: the calendar of every store (15_die_engines_refresh.md R335 to R337), RFCAL (R338), and the steps
in which a store enters and leaves a window. Calendar keys are physical: a vault is its tile times 40 plus its cluster, a
weight store 2240 plus its tile. -/
namespace Sys2Proof.Machine

/-- Ticks between window starts of a store in a band, and ticks of a window (R336). -/
def refreshPeriod (key band : Nat) : Nat := (if key < 2240 then 25000 else 6400) / 2 ^ band
def windowLength (key : Nat) : Nat := if key < 2240 then 400 else 100
/-- Ticks for which the calendar is committed (R337). -/
def calendarHorizon : Nat := 12500

/-- The segments of a store's calendar, oldest first; from reset band 0 with a phase that the curator fixes (R336). -/
def State.segments (s : State) (key : Nat) : List Seg :=
  let period := refreshPeriod key 0
  ⟨0, Config.refreshPhase key % period, period⟩ :: (tget s.calendar key []).reverse

/-- The first window start of a segment at tick t or later. -/
def Seg.firstFrom (g : Seg) (t : Nat) : Nat :=
  let m := Nat.max t g.start
  if m ≤ g.base then g.base else g.base + (m - g.base + g.period - 1) / g.period * g.period

/-- The first window start of a calendar at tick t or later. -/
def nextStart : List Seg → Nat → Nat
  | [], t => t
  | [g], t => g.firstFrom t
  | g :: h :: rest, t => if g.firstFrom t < h.start then g.firstFrom t else nextStart (h :: rest) t

/-- The end of the window that a store is in, where it is in one now. -/
def State.windowEnd (s : State) (key : Nat) : Option Nat :=
  let x := nextStart (s.segments key) (s.tick + 1 - windowLength key)
  if x ≤ s.tick then some (x + windowLength key) else none

/-- Ticks until the store's next window starts. -/
def State.untilWindow (s : State) (key : Nat) : Nat := nextStart (s.segments key) s.tick - s.tick

/-- The band of a store. -/
def State.bandOf (s : State) (key : Nat) : Nat := if key < 2240 then (s.cluster key).band else (s.tile (key - 2240)).band

/-- The physical store that a calendar number of a gallery names (R337). -/
def calendarKey (g : Gallery) (n : Nat) : Option Nat :=
  if n < 2240 then (g.tiles[n / 40]?).map (fun t => t * 40 + n % 40)
  else (g.tiles[n - 2240]?).map (fun t => 2240 + t)

/-- The result of RFCAL for a store (R338). -/
def State.calendarWord (s : State) (key : Nat) : DWord :=
  let here := s.windowEnd key
  let next := match here with
    | some x => x - s.tick
    | none => s.untilWindow key
  BitVec.ofNat 64 (here.isSome.toNat * 2 ^ 63 + s.bandOf key * 2 ^ 61 + (decide (2240 ≤ key)).toNat * 2 ^ 60
    + Nat.min next 0xFF_FFFF * 2 ^ 24 + refreshPeriod key (s.bandOf key))

/-- RFCAL (R338). -/
def execRfcal (e : Bool) (d a : BitVec 5) (s : State) : Out :=
  issue anyPriv (fun _ => [sReg d.toNat, sReg a.toNat])
    (fun t0 c =>
      let p := s.charge t0 [a.toNat]
      let t := p.2
      let x := (t.uni a.toNat).toNat
      let bad : Res State := .trap (trapOf .illegal (BitVec.ofNat 64 (sReg a.toNat)))
      match s.gal c.gallery with
      | none => .fault .noSuchAddress
      | some g =>
        match calendarKey g x with
        | none => bad
        | some key =>
          if 2 ^ 12 ≤ x then bad
          else .ok (p.1.finish s.focus (t.putUni d.toNat (s.calendarWord key)) c e 4))
    s

/-- The window flag of a store. -/
def State.setWindow (s : State) (key : Nat) (b : Bool) : State :=
  if key < 2240 then s.putCluster key { s.cluster key with window := b }
  else s.putTile (key - 2240) { s.tile (key - 2240) with window := b }

/-- A store enters a window that its calendar holds now (R336). -/
def execRefreshWindowStart (store : Nat) (s : State) : Out :=
  if (s.windowEnd store).isSome then .next (s.setWindow store true) else .next s

/-- A window of the store has ended (R336). -/
def execRefreshWindowEnd (store : Nat) (s : State) : Out :=
  if (s.windowEnd store).isNone then .next (s.setWindow store false) else .next s

/-- A band change moves the windows that start after the horizon, at a phase that the curator fixes (R336, R337). -/
def State.changeBand (s : State) (key band : Nat) : State :=
  let segs := tget s.calendar key []
  let start := s.tick + calendarHorizon + 1
  let period := refreshPeriod key band
  let s1 := if key < 2240 then s.putCluster key { s.cluster key with band := band }
    else s.putTile (key - 2240) { s.tile (key - 2240) with band := band }
  { s1 with
    free := s1.free + 1
    calendar := tput s1.calendar key (⟨start, start + Config.freeChoice s1.free % period, period⟩ :: segs) }

/-- The band of a sample in °C (R336). -/
def bandFor (celsius : Nat) : Nat := if celsius < 85 then 0 else if celsius < 95 then 1 else 2
/-- The lower edge of a band in °C. -/
def bandEdge (band : Nat) : Nat := if band = 1 then 85 else if band = 2 then 95 else 0

/-- The band after an interval that the old sample held and that ends with a new sample (R335). -/
def nextBand (band old new : Nat) : Nat :=
  let fallen := if 0 < band && decide (old + 3 ≤ bandEdge band) then band - 1 else band
  Nat.max fallen (bandFor new)

end Sys2Proof.Machine
end

