-- ==== Sys2Proof/Machine/Power.lean ====
section
/-! DEFINITION. Power and heat (01_stolilo_levels.md R18; 16_package_launch_power.md R355, R359, R360;
17_program_slew_release.md R374; 15_die_engines_refresh.md R335): the power control interval, the slew limiter's step, and
the advance of core timestamps (14_die_memory_order.md R303). -/
namespace Sys2Proof.Machine

/-! ## The slew limiter (R359, R360) -/

/-- The core's array runs an operation. -/
def Core.arrayBusy (k : Core) : Bool :=
  match firstCastOp [] k.order with
  | some (_, o) => o.started && !o.finished
  | none => false

/-- The cores of a cluster. -/
def clusterCores (cluster : Nat) : List Nat := (List.range 4).map (cluster * 4 + ·)

/-- The demand of a cluster in column groups: 4 of each core whose array is busy. -/
def State.demand (s : State) (cluster : Nat) : Nat :=
  4 * ((clusterCores cluster).filter (fun k => (s.core k).arrayBusy)).length

/-- A step of R360 with a demand and a cap. -/
def Slew.step (x : Slew) (R cap : Nat) : Slew :=
  let y :=
    if x.a < R then
      { x with a := Nat.min R (x.a + x.up.getD x.mu 0), mu := Nat.min (x.mu + 1) 15, md := 0 }
    else if R < x.a then
      { x with a := Nat.max R (x.a - x.dn.getD x.md 0), md := Nat.min (x.md + 1) 15, mu := 0 }
    else { x with mu := 0, md := 0 }
  { y with a := Nat.min y.a cap }

/-- The core with the fewest groups among some, the lowest number on ties. -/
def fewest (got : Tab Nat) : List Nat → Option Nat
  | [] => none
  | k :: rest =>
    match fewest got rest with
    | some j => if tget got j 0 < tget got k 0 then some j else some k
    | none => some k

/-- Groups dealt one at a time to the demanding core with the fewest; a core has 4 (R359, R360). -/
def dealGroups (cores : List Nat) : Nat → Tab Nat → Tab Nat
  | 0, got => got
  | n + 1, got =>
    match fewest got (cores.filter (fun k => tget got k 0 < 4)) with
    | some k => dealGroups cores n (tset got k (tget got k 0 + 1) 0)
    | none => got

/-- Fillers dealt lowest core first, each core taking up to the groups that it released (R360, R374). -/
def dealFillers (released : Nat → Nat) : Nat → List Nat → Tab Nat
  | _, [] => []
  | n, k :: rest =>
    let m := Nat.min n (released k)
    tset (dealFillers released (n - m) rest) k m 0

/-- The groups that a core has released in the fall under way: those that it held when its demand fell to 0. A core that
demands again has released none, and a step at which the count does not exceed the demand ends the fall (R360, R374). -/
def Core.releasedAt (k : Core) (falling : Bool) : Nat :=
  if k.arrayBusy || !falling then 0 else Nat.max k.released k.grants

/-- The groups and the fillers of one step reach a core. -/
def Core.dealt (k : Core) (grants fillers : Nat) (falling : Bool) : Core :=
  { k with grants := grants, fillers := fillers, released := k.releasedAt falling }

/-- A step of a cluster's limiter: its count, and the groups and fillers of its cores until the next step (R360, R374). -/
def State.slewed (s : State) (cluster : Nat) : State :=
  let c := s.cluster cluster
  let R := s.demand cluster
  let x := c.slew.step R c.cap
  let falling := decide (R < c.slew.a)
  let cores := clusterCores cluster
  let grants := dealGroups (cores.filter (fun k => (s.core k).arrayBusy)) (Nat.min R x.a) []
  let fillers := dealFillers (fun k => (s.core k).releasedAt falling) (x.a - Nat.min R x.a) cores
  cores.foldl (fun (z : State) k => z.putCore k ((z.core k).dealt (tget grants k 0) (tget fillers k 0) falling))
    (s.putCluster cluster { c with slew := x, stepsNow := c.stepsNow + 1 })

/-- The steps that begin in the present tick: its clocks whose count, less the cluster's phase, is a multiple of 4 (R359). -/
def State.stepsDue (s : State) (cluster : Nat) : Nat :=
  let n := s.clock (cluster / 40)
  let phase := Config.slewPhase cluster % 4
  (n + (s.tile (cluster / 40)).freq + 3 - phase) / 4 - (n + 3 - phase) / 4

/-- SLEW_STEP: a step that the present tick still holds (R359). -/
def execSlewStep (cluster : Nat) (s : State) : Out :=
  if (s.cluster cluster).stepsNow < s.stepsDue cluster then .next (s.slewed cluster) else .next s

/-! ## Timestamps (R303) -/

/-- A core's timestamp passes every lease that it holds. -/
def State.ptsPassed (s : State) (core : Nat) : State :=
  s.putPts core ((s.core core).copies.foldl (fun a p => Nat.max a (p.2.rts + 1)) (s.pts core))

/-- PTS_ADVANCE. -/
def execPtsAdvance (core : Nat) (s : State) : Out := .next (s.ptsPassed core)

/-! ## The power control interval (R335, R355) -/

/-- A core of the cluster is powered: its region is on and it is not gated. -/
def State.powered (s : State) (cluster : Nat) : Bool :=
  s.dev.good.contains (regionOf cluster) && (clusterCores cluster).any (fun k => !(s.core k).gated)

/-- Clusters of a tile that share an edge with a cluster in the grid of 8 columns and 5 rows. -/
def edgeClusters (cluster : Nat) : List Nat :=
  let c := cluster % 40
  ((List.range 40).filter (fun d =>
    (c / 8 == d / 8 && (c + 1 == d || d + 1 == c)) || (c % 8 == d % 8 && (c + 8 == d || d + 8 == c)))).map
    (cluster / 40 * 40 + ·)

/-- The hottest of some clusters that are powered, by their samples. -/
def State.hottest (s : State) (temp : Nat → Nat) (cs : List Nat) : Option Nat :=
  match cs.filter s.powered with
  | [] => none
  | c :: rest => some (rest.foldl (fun a d => Nat.max a (temp d)) (temp c))

/-- The clusters of a tile. -/
def tileClusters (tile : Nat) : List Nat := (List.range 40).map (tile * 40 + ·)

/-- The sample that a vault follows; none where no core of its tile is powered (R335). -/
def State.vaultSample (s : State) (temp : Nat → Nat) (cluster : Nat) : Option Nat :=
  match s.hottest temp [cluster] with
  | some x => some x
  | none =>
    match s.hottest temp (edgeClusters cluster) with
    | some x => some x
    | none => s.hottest temp (tileClusters (cluster / 40))

/-- The gallery that holds a tile. -/
def State.ownerOf (s : State) (tile : Nat) : Nat :=
  match s.gals.find? (fun p => p.2.tiles.contains tile) with
  | some p => p.1
  | none => noGallery

/-- The band of a vault after a sample (R335, R337); a change is logged (R339). -/
def State.vaultBand (s : State) (new : Nat → Nat) (cluster : Nat) : State :=
  let old := fun c => (s.cluster c).temp
  match s.vaultSample old cluster, s.vaultSample new cluster with
  | some x, some y =>
    let b := (s.cluster cluster).band
    let b' := nextBand b x y
    if b' = b then s
    else (s.changeBand cluster b').log logVault cluster 1 (s.ownerOf (cluster / 40)) (BitVec.ofNat 64 (b * 256 + b'))
  | _, _ => s

/-- The hottest sample of a tile, and its cluster. -/
def tileTop (temp : Nat → Nat) (tile : Nat) : Nat × Nat :=
  (tileClusters tile).foldl (fun (p : Nat × Nat) c => if p.1 < temp c then (temp c, c) else p) (0, tile * 40)

/-- The band of a tile's weight store, which follows the hottest core of the tile. -/
def State.weightBand (s : State) (new : Nat → Nat) (tile : Nat) : State :=
  let b := (s.tile tile).band
  let b' := nextBand b (tileTop (fun c => (s.cluster c).temp) tile).1 (tileTop new tile).1
  if b' = b then s else s.changeBand (2240 + tile) b'

/-- One step down of a tile's clock, to 0.8 GHz at the least. -/
def State.slower (s : State) (tile : Nat) : State := s.setFreq tile (Nat.max 8 ((s.tile tile).freq - 1))

/-- Heat: a tile above 105 °C is slowed until its sample is below 100 °C. -/
def State.heat (s : State) (new : Nat → Nat) (tile : Nat) : State :=
  let top := tileTop new tile
  let t := s.tile tile
  let note (z : State) (kind : Nat) : State :=
    z.log logThermal top.2 kind (s.ownerOf tile) (BitVec.ofNat 64 top.1)
  if t.throttled && decide (top.1 < 100) then note (s.putTile tile { t with throttled := false }) 2
  else if t.throttled then s.slower tile
  else if 105 < top.1 then (note (s.putTile tile { t with throttled := true }) 1).slower tile
  else s

/-- A cluster's interval: whether it exceeded its energy is not modelled, so its cap follows a free choice; the sample is
the new one, and nothing has been placed since it (R353 to R355). -/
def State.clusterInterval (s : State) (new : Nat → Nat) (cluster : Nat) : State :=
  let c := s.cluster cluster
  let spentOver := Config.freeChoice s.free % 2 = 1
  ({ s with free := s.free + 1 } : State).putCluster cluster
    { c with cap := if spentOver then (c.cap + 1) / 2 else 16, temp := new cluster, spent := 0 }

/-- The hottest of some tiles. -/
def hottestTile (new : Nat → Nat) : List Nat → Option Nat
  | [] => none
  | t :: rest =>
    match hottestTile new rest with
    | some u => if (tileTop new t).1 < (tileTop new u).1 then some u else some t
    | none => some t

/-- Module power: the hottest tile whose clock is above 0.8 GHz is lowered, so that the others follow once it is there. -/
def State.powerDown (s : State) (new : Nat → Nat) : State :=
  match hottestTile new ((List.range Config.tilesPerWafer).filter (fun t => decide (8 < (s.tile t).freq))) with
  | some t => s.slower t
  | none => s

/-- A tile that is not throttled may be clocked 0.1 GHz faster, to 2.2 GHz at the most; whether it is, is free (R18, log 6). -/
def State.faster (s : State) (tile : Nat) : State :=
  let t := s.tile tile
  if !t.throttled && decide (t.freq < 22) then
    let s1 : State := { s with free := s.free + 1 }
    if Config.freeChoice s.free % 2 = 1 then s1.setFreq tile (t.freq + 1) else s1
  else s

/-- The end of a power control interval: samples, bands, heat, module power and overrun, and the next interval begins. temps
holds the hottest-core sample of each cluster in °C; a cluster that it does not list keeps its last one. -/
def State.interval (s : State) (temps : List Nat) : State :=
  let new : Nat → Nat := fun c => temps.getD c (s.cluster c).temp
  let clusters := List.range 2240
  let tiles := List.range Config.tilesPerWafer
  let s1 := clusters.foldl (fun (z : State) c => z.vaultBand new c) s
  let s2 := tiles.foldl (fun (z : State) t => z.weightBand new t) s1
  let s3 := tiles.foldl (fun (z : State) t => z.heat new t) s2
  let hot := Config.freeChoice s3.free % 2 = 1
  let s4 := { s3 with free := s3.free + 1 }
  let s5 := if hot then s4.powerDown new else tiles.foldl (fun (z : State) t => z.faster t) s4
  let s6 := clusters.foldl (fun (z : State) c => z.clusterInterval new c) s5
  { s6 with nextInterval := s6.nextInterval + 400 }

/-- POWER_INTERVAL: once in every 400 ticks (R18). -/
def execPowerInterval (temps : List Nat) (s : State) : Out :=
  if s.nextInterval ≤ s.tick then .next (s.interval temps) else .next s

end Sys2Proof.Machine
end

