-- ==== Sys2Proof/Machine/Requests.lean ====
section
/-! DEFINITION. Management requests (22_fabric_host.md R423, R424; 18_package_galleries.md R379, R391; 20_package_protection.md
R409), the progress of a quiesce, and the stub page (R421). -/
namespace Sys2Proof.Machine

/-! ## Well-formed requests (R423; log 15) -/

/-- Bits of a tile bitmap. -/
def bitmapBad (x : DWord) : Bool := fld x.toNat Config.tilesPerWafer 8 != 0 || x == 0

/-- The arguments of a request suit its CODE, for the gallery that TAG names. -/
def requestBad (code : Nat) (g : Option Gallery) (args : List DWord) : Bool :=
  let a (n : Nat) : Nat := (args.getD n 0).toNat
  match code, g with
  | 1, _ => bitmapBad (args.getD 0 0) || decide (3 < a 1)
  | 2, some _ => false
  | 3, some _ => bitmapBad (args.getD 0 0)
  | 4, some g => a 2 == 0 || decide (g.tiles.length ≤ a 2)
  | 5, some g => decide (g.tiles.length ≤ a 3) || decide (Config.tilesPerWafer ≤ a 4)
  | 6, some g => bitmapBad (args.getD 0 0) || (bitmapTiles (args.getD 0 0)).length != g.tiles.length
  | 7, some g => decide (g.tiles.length ≤ a 3)
  | 8, some _ => decide (255 < a 0) || a 2 == 0 || decide (4096 < a 2)
  | 9, some _ => false
  | 10, some g =>
    decide (7 < a 0) || decide (1 < a 3) ||
      ((a 0 == 3 || a 0 == 7) && !g.tiles.contains (a 1 / Config.clustersPerTile))
  | 11, _ => fld (a 0) 28 36 > 5
  | 12, _ => false
  | 13, _ => false
  | _, _ => true

/-! ## Objects that read-back writes (R424; log 8) -/

/-- Doublewords as bytes. -/
def dwords (xs : List Nat) : List Byte := xs.flatMap (leBytes 8)

/-- The number of an integer in two's complement. -/
def intNat (x : Int) : Nat := (BitVec.ofInt 64 x).toNat

/-- A cast's record address and index. -/
def State.castName (s : State) (c : Cast) : List Nat :=
  [(match tfind s.prods c.prod with
    | some p => p.recAddr.toNat
    | none => 0), c.gidx]

/-- Box office state of a cluster. -/
def State.officeObject (s : State) (cluster : Nat) : List Nat :=
  let cs := (s.castsIn cluster).map (·.2)
  let c := s.cluster cluster
  let res := match cs with
    | x :: _ => (match tfind s.prods x.prod with
      | some p => s.reserve x.prod p cluster
      | none => 0)
    | [] => 0
  [cs.length] ++ cs.flatMap (fun x => s.castName x ++ [x.energy, x.current, intNat x.charge]) ++
    [sumNat (cs.map (·.energy)), sumNat (cs.map (·.current)), intNat ((cs.map (·.charge)).foldl (· + ·) 0), res, c.band, c.cap]

/-- The ready queue in the order of service. -/
def State.readyObject (s : State) (g : Gallery) : List Nat :=
  (s.inService g.ready).flatMap (fun w =>
    let p := tfind s.prods w.node
    [(match p with
      | some x => x.recAddr.toNat
      | none => 0), w.company, w.ensemble, w.waited s.tick])

/-- Live nodes: record address, STATE, PRED, NSUCC. -/
def State.nodesObject (s : State) (gi : Nat) : List Nat :=
  (s.liveNodes gi).flatMap (fun x =>
    match s.reachHw gi x.2.recAddr 128 .read with
    | some (s1, l) => [x.2.recAddr.toNat, s1.value (l.plus 0x7E) 1, s1.value (l.plus 0x7C) 2, s1.value (l.plus 0x7A) 2]
    | none => [x.2.recAddr.toNat, 0, 0, 0])

/-- The grid barriers of the production of a record. -/
def State.gridObject (s : State) (gi a : Nat) : List Nat :=
  match s.nodeAt gi (BitVec.ofNat 64 a) with
  | none => []
  | some (_, p) => (List.range 4).flatMap (fun i =>
      let b := p.grid i
      [b.member.toNat, b.arrive.toNat, b.phase.toNat] ++ (List.range p.comp).map (fun k => tget b.locals k 0))

/-- Slew limiter state of a cluster. -/
def State.slewObject (s : State) (cluster : Nat) : List Nat :=
  let x := (s.cluster cluster).slew
  [x.a, x.mu, x.md] ++ x.up ++ x.dn ++ [Config.slewPhase cluster % 4]

/-- An object by its kind and index. -/
def State.object (s : State) (gi : Nat) (g : Gallery) (kind index : Nat) : List Byte :=
  match kind with
  | 0 => dwords (gi :: [0xC02, 0xC03, 0xC04, 0xC05, 0xC06, 0xE00].map (fun n => (g.register n).toNat))
  | 1 => bytesAt s.mem (Loc.dram gi g.ntbase.toNat).cell (8 * g.names)
  | 2 => bytesAt s.mem (Loc.dram gi g.fpbase.toNat).cell (0x40 + 32 * g.tiles.length + 16624)
  | 3 => dwords (s.officeObject index)
  | 4 => dwords (s.readyObject g)
  | 5 => dwords (s.nodesObject gi)
  | 6 => dwords (s.gridObject gi index)
  | _ => dwords (s.slewObject index)

/-- The object of a request is written to its host buffer. -/
def State.writeObject (s : State) (gi : Nat) (args : List DWord) : State :=
  match s.gal gi with
  | none => s
  | some g => s.writeAt (.host (args.getD 2 0).toNat) (s.object gi g (args.getD 0 0).toNat (args.getD 1 0).toNat)

/-! ## The progress of a quiesce (R391) -/

/-- The quiesce that stopped everything ends: a read-back reads its object and moves nothing (R424). -/
def State.endQuiesce (s : State) (gi : Nat) (g : Gallery) (code : Nat) (args : List DWord) : State :=
  if code = 10 then (((s.copyNodes gi true).writeObject gi args).reopen gi).answer 0
  else s.completeQuiesce gi g code args

/-- A quiesce goes as far as the casts of its gallery allow. -/
def State.progress (s : State) (gi : Nat) : State :=
  match s.gal gi with
  | none => s
  | some g =>
    match g.state, g.request with
    | .quiescing, some (code, args) =>
      let s1 := ((s.stopAll gi g).finishStops).finishRetire gi g
      (match s1.gal gi with
      | some g1 => if s1.quiet gi then s1.endQuiesce gi g1 code args else s1
      | none => s1)
    | _, _ => s

/-- A request that runs under a quiesce: refused, or begun. -/
def State.quiesceFor (s : State) (gi : Nat) (g : Gallery) (code : Nat) (args : List DWord) : State :=
  match s.newTiles gi g code args with
  | none => s.answer 1
  | some _ => (s.beginQuiesce gi g code args).progress gi

/-! ## Serving (R379, R423) -/

/-- Create (R379): a fresh tag for free and connected tiles. -/
def State.serveCreate (s : State) (args : List DWord) : State :=
  let tiles := bitmapTiles (args.getD 0 0)
  match s.freeTag with
  | none => s.answer 1
  | some gi =>
    if tiles.all s.tileFree && connected tiles then (s.makeGallery gi tiles (args.getD 1 0)).answer 0 else s.answer 1

/-- Every thread of the gallery that has not ended is recorded as unhandled, and the gallery goes (R379, R197). -/
def State.serveRemove (s : State) (gi : Nat) : State :=
  let s1 := (s.liveNodes gi).foldl (fun (z : State) x =>
    (List.range x.2.total).foldl (fun (y : State) i => y.killCast (castKey x.1 i) i x.1 x.2.ntid) z) s
  (s1.dropGallery gi).answer 0

/-- The trusted group of a gallery covers a module (R413). -/
def Gallery.covers (g : Gallery) (m : Nat) : Bool :=
  match g.group with
  | some (_, _, members) => members.contains (Config.moduleDigest m)
  | none => false

/-- Set communicator (R428): entries of 8 bytes (log 13); in a protected gallery the trusted group must cover each other
module that one names (R413). Its collectives begin at sequence 0. -/
def State.serveCommunicator (s : State) (gi : Nat) (g : Gallery) (args : List DWord) : State :=
  let n := (args.getD 0 0).toNat
  let entries := (List.range (args.getD 2 0).toNat).map (fun i =>
    (BitVec.ofNat 64 (numAt s.mem (Loc.host ((args.getD 1 0).toNat + 8 * i)).cell 8) : DWord))
  if entries.any (fun m => fld m.toNat 12 4 != 0 || fld m.toNat 24 8 != 0 || fld m.toNat 48 16 != 0) then s.answer 3
  else if g.protect && entries.any (fun m => memberModule m != s.dev.number && !g.covers (memberModule m)) then s.answer 4
  else
    (s.putG gi { g with
      comms := tput g.comms n ⟨entries⟩
      seqs := g.seqs.filter (fun p => p.1 / 4096 != n)
      inbox := g.inbox.filter (fun p => p.1 / 2 ^ 32 != n) }).answer 0

/-- Halt a cast (R203, R409): refused and logged for a protected gallery without external debug; a cast that is on no core
takes it when it is admitted. -/
def State.serveHalt (s : State) (gi : Nat) (g : Gallery) (args : List DWord) : State :=
  let a := args.getD 0 0
  let gidx := (args.getD 1 0).toNat
  if g.protect && !g.debug then (s.refuseHalt gi a gidx).answer 4
  else
    match s.nodeAt gi a with
    | none => s.answer 3
    | some (n, p) =>
      if p.total ≤ gidx then s.answer 3
      else
        match s.cast (castKey n gidx) with
        | none => (s.putC (castKey n gidx) { Cast.fresh n gidx p .available s.tick with haltReq := true }).answer 0
        | some c => (s.askHalt (castKey n gidx) c).answer 0

/-- Read back (R424, R409). -/
def State.serveReadBack (s : State) (gi : Nat) (g : Gallery) (args : List DWord) : State :=
  if g.protect && !g.debug && (args.getD 0 0) == 0 then s.answer 4
  else if (args.getD 3 0) == 1 then (s.beginQuiesce gi g 10 args).progress gi
  else (s.writeObject gi args).answer 0

/-- Read a log (R339): up to COUNT records of a source from a SEQ on. -/
def State.serveLog (s : State) (args : List DWord) : State :=
  let rs := (tget s.dev.logs (args.getD 0 0).toNat ⟨1, []⟩).records.filter (fun r =>
    decide ((args.getD 1 0).toNat ≤ (r.getD 0 0).toNat))
  (s.writeAt (.host (args.getD 2 0).toNat)
    ((rs.take (args.getD 3 0).toNat).flatMap (fun r => dwords (r.map (·.toNat))))).answer 0

/-- Stage firmware: the image is kept until the next module reset verifies it (R412). -/
def State.serveStage (s : State) (args : List DWord) : State :=
  ({ s with dev := { s.dev with
      staged := some (bytesAt s.mem (Loc.host (args.getD 0 0).toNat).cell (args.getD 1 0).toNat) } } : State).answer 0

/-- The identification registers from IDVENDOR to IDLIMITS, for a gallery or none (R425). -/
def State.idWords (s : State) (g : Option Gallery) : List Nat :=
  [0x4E52_564F, 0x0053_3536, s.dev.fw.toNat * 2 ^ 16 + 2,
    s.dev.goodCount % 256 + (match g with
      | some x => x.tiles.length % 256 * 2 ^ 8 + x.names % 2 ^ 14 * 2 ^ 16
      | none => 0),
    2048 + 64 * 2 ^ 12 + 34 * 2 ^ 19 + 8 * 2 ^ 25 + 16 * 2 ^ 29]

/-- Identify (R423, R425). -/
def State.serveIdentify (s : State) (gi : Nat) (args : List DWord) : State :=
  (s.writeAt (.host (args.getD 0 0).toNat) (dwords (s.idWords (s.gal gi)) ++ Config.certificateChain)).answer 0

/-- A well-formed request that nothing holds back. -/
def State.serveGood (s : State) (code gi : Nat) (args : List DWord) : State :=
  match s.gal gi with
  | none =>
    (match code with
    | 1 => s.serveCreate args
    | 11 => s.serveLog args
    | 12 => s.serveStage args
    | 13 => s.serveIdentify gi args
    | _ => s.answer 3)
  | some g =>
    (match code with
    | 1 => s.serveCreate args
    | 2 => s.serveRemove gi
    | 8 => s.serveCommunicator gi g args
    | 9 => s.serveHalt gi g args
    | 10 => s.serveReadBack gi g args
    | 11 => s.serveLog args
    | 12 => s.serveStage args
    | 13 => s.serveIdentify gi args
    | _ => s.quiesceFor gi g code args)

/-- A request is served, or found malformed (R423). -/
def State.serve (s : State) (code gi : Nat) (args : List DWord) : State :=
  if requestBad code (s.gal gi) args then s.answer 3 else s.serveGood code gi args

/-- A request reaches the curator, where none is outstanding: in recovery only reading logs, staging and identifying are
served; one that names a gallery waits for its reopening, or finds it being removed (R391, R423). -/
def State.request (s : State) (code : Nat) (tag : BitVec 8) (args : List DWord) : State :=
  if s.dev.mgo ≠ 0 then s
  else
    let s1 := { s with dev := { s.dev with
      mreq := BitVec.ofNat 64 (code + tag.toNat * 2 ^ 16) :: args, mgo := 1 } }
    if s.dev.recovery && !(decide (11 ≤ code) && decide (code ≤ 13)) then s1.answer 5
    else
      match s.gal tag.toNat with
      | none => s1.serve code tag.toNat args
      | some g =>
        match g.state with
        | .removing => s1.answer 2
        | .quiescing => s1.defer tag.toNat (.request code args)
        | .opened => s1.serve code tag.toNat args

/-! ## The requests of R423 -/

def execCreateGallery (tag : BitVec 8) (a0 a1 a2 a3 a4 : DWord) (s : State) : Out :=
  .next (s.request 1 tag [a0, a1, a2, a3, a4])
def execRemoveGallery (tag : BitVec 8) (a0 a1 a2 a3 a4 : DWord) (s : State) : Out :=
  .next (s.request 2 tag [a0, a1, a2, a3, a4])
def execGrowGallery (tag : BitVec 8) (a0 a1 a2 a3 a4 : DWord) (s : State) : Out :=
  .next (s.request 3 tag [a0, a1, a2, a3, a4])
def execShrinkGallery (tag : BitVec 8) (a0 a1 a2 a3 a4 : DWord) (s : State) : Out :=
  .next (s.request 4 tag [a0, a1, a2, a3, a4])
def execMigratePosition (tag : BitVec 8) (a0 a1 a2 a3 a4 : DWord) (s : State) : Out :=
  .next (s.request 5 tag [a0, a1, a2, a3, a4])
def execCompactGallery (tag : BitVec 8) (a0 a1 a2 a3 a4 : DWord) (s : State) : Out :=
  .next (s.request 6 tag [a0, a1, a2, a3, a4])
def execRetirePosition (tag : BitVec 8) (a0 a1 a2 a3 a4 : DWord) (s : State) : Out :=
  .next (s.request 7 tag [a0, a1, a2, a3, a4])
def execSetCommunicator (tag : BitVec 8) (a0 a1 a2 a3 a4 : DWord) (s : State) : Out :=
  .next (s.request 8 tag [a0, a1, a2, a3, a4])
def execHaltCast (tag : BitVec 8) (a0 a1 a2 a3 a4 : DWord) (s : State) : Out :=
  .next (s.request 9 tag [a0, a1, a2, a3, a4])
def execReadBack (tag : BitVec 8) (a0 a1 a2 a3 a4 : DWord) (s : State) : Out :=
  .next (s.request 10 tag [a0, a1, a2, a3, a4])
def execReadLog (tag : BitVec 8) (a0 a1 a2 a3 a4 : DWord) (s : State) : Out :=
  .next (s.request 11 tag [a0, a1, a2, a3, a4])
def execStageFirmware (tag : BitVec 8) (a0 a1 a2 a3 a4 : DWord) (s : State) : Out :=
  .next (s.request 12 tag [a0, a1, a2, a3, a4])
def execIdentify (tag : BitVec 8) (a0 a1 a2 a3 a4 : DWord) (s : State) : Out :=
  .next (s.request 13 tag [a0, a1, a2, a3, a4])

/-- The record of a request is malformed: its CODE, its reserved bytes, or its arguments. -/
def State.recordBad (s : State) (words : List DWord) : Bool :=
  let w := (words.getD 0 0).toNat
  let code := fld w 0 16
  code == 0 || decide (13 < code) || fld w 24 40 != 0 ||
    requestBad code (s.gal (fld w 16 8)) ((List.range 5).map (fun i => words.getD (i + 1) 0))

/-- MANAGEMENT_REQUEST_MALFORMED: the curator writes STATUS 3, once the gallery that the request names has reopened (R391);
in recovery, and for a gallery that is being removed, it finds what State.request finds. A request that waits is kept with
CODE 0, which is malformed. -/
def execManagementRequestMalformed (words : List DWord) (s : State) : Out :=
  if s.dev.mgo ≠ 0 || !s.recordBad words then .next s
  else
    let code := fld (words.getD 0 0).toNat 0 16
    let tag := fld (words.getD 0 0).toNat 16 8
    let s1 : State := { s with dev := { s.dev with mreq := words.take 6, mgo := 1 } }
    if s.dev.recovery && !(decide (11 ≤ code) && decide (code ≤ 13)) then .next (s1.answer 5)
    else
      match (s.gal tag).map Gallery.state with
      | some .removing => .next (s1.answer 2)
      | some .quiescing => .next (s1.defer tag (.request 0 []))
      | _ => .next (s1.answer 3)

/-! ## The stub page (R421) -/

/-- What the stub page shows after an operation. -/
def State.stubDone (s : State) (gi : Nat) (result cause status : DWord) : State :=
  { s with gals := tmod s.gals gi (fun g =>
      { g with stub := { g.stub with result := result, cause := cause, status := status, go := 0 } }) }

/-- OP above 2, or OPB non-zero for LAUNCH or GNODE. -/
def stubBad (op : Nat) (opb : DWord) : Bool := decide (2 < op) || (decide (op ≤ 1) && opb != 0)

/-- An operation of the stub page, by the host port at supervisor privilege; RESULT of a GDEP is 0, and a malformed operation
finds STATUS 3. -/
def State.stubRun (s : State) (gi op : Nat) (opa opb : DWord) : Res State :=
  let r : Res (State × DWord) := match op with
    | 0 => s.launchOp hostAgent gi .supervisor opa 0
    | 1 => s.gnodeOp hostAgent gi .supervisor opa 0
    | _ => (s.gdepOp hostAgent gi .supervisor opa opb 0 0).bind (fun z => .ok (z, 0))
  if stubBad op opb then .ok (s.stubDone gi 0 0 3)
  else
  match r with
  | .ok (z, x) => .ok (z.stubDone gi x 0 0)
  | .trap x => .ok (s.stubDone gi x.tval (BitVec.ofNat 64 (2 ^ x.cause.num)) 1)
  | .late z _ x => .ok (z.stubDone gi x.tval (BitVec.ofNat 64 (2 ^ x.cause.num)) 1)
  | .wait => .wait
  | .hold h => .hold h
  | .fault f => .fault f

/-- GO is written: ignored while GO is 1 or where the page cannot be reached; during a quiesce the operation waits. -/
def State.stubGo (s : State) (gi : Nat) (stream : Option Nat) (op : Nat) (opa opb : DWord) : Out :=
  match s.gal gi with
  | none => .next s
  | some g =>
    if g.stub.go ≠ 0 || !g.hostOpen stream then .next s
    else
      let s1 := s.putG gi { g with stub := { g.stub with op := BitVec.ofNat 64 op, opa := opa, opb := opb, go := 1 } }
      if g.state ≠ .opened then .next (s1.defer gi (.stub op opa opb))
      else
        match s1.stubRun gi op opa opb with
        | .ok z => .next z
        | .fault f => .fault f
        | _ => .next s1

def execStubLaunch (h : HostPath) (opa : DWord) (s : State) : Out := s.stubGo h.tag h.stream 0 opa 0
def execStubGnode (h : HostPath) (opa : DWord) (s : State) : Out := s.stubGo h.tag h.stream 1 opa 0
def execStubGdep (h : HostPath) (opa opb : DWord) (s : State) : Out := s.stubGo h.tag h.stream 2 opa opb

/-- STUB_OP_MALFORMED: STATUS 3, after the reopening where GO is written in a quiesce. -/
def execStubOpMalformed (h : HostPath) (op opa opb : DWord) (s : State) : Out :=
  if stubBad op.toNat opb then s.stubGo h.tag h.stream op.toNat opa opb else .next s

/-! ## What waited for a reopening (R391) -/

/-- The oldest thing that waited for an opened gallery is served. -/
def State.serveDeferred (s : State) (gi : Nat) : State :=
  match s.gal gi with
  | none => s
  | some g =>
    match g.state, g.deferred with
    | .opened, d :: rest =>
      let s1 := s.putG gi { g with deferred := rest }
      (match d with
      | .request code args => s1.serve code gi args
      | .measure nonce => s1.measure gi nonce
      | .stub op opa opb => (match s1.stubRun gi op opa opb with
        | .ok z => z
        | _ => s))
    | _, _ => s

/-- Stops and saves that can end, quiesces that can go on, and what waited for them. -/
def State.managed (s : State) : State :=
  let s1 := s.finishStops.finishSaves
  let gs := s1.gals.map (·.1)
  let s2 := gs.foldl (fun (z : State) gi => z.progress gi) s1
  gs.foldl (fun (z : State) gi => z.serveDeferred gi) s2

end Sys2Proof.Machine
end

