-- ==== Sys2Proof/Machine/Uniform.lean ====
section
/-! DEFINITION. The uniform integer words (05_thread_integer_control.md R135 to R138; 02_encoding.md R35). -/
namespace Sys2Proof.Machine

/-- sd := f(sa, sb). -/
def uuu (e : Bool) (d a b : BitVec 5) (f : DWord → DWord → DWord) : State → Out :=
  uniWord e 4 [sReg d.toNat, sReg a.toNat, sReg b.toNat] [a.toNat, b.toNat]
    (fun t => t.putUni d.toNat (f (t.uni a.toNat) (t.uni b.toNat)))

def execUadd (e : Bool) (d a b : BitVec 5) : State → Out := uuu e d a b (fun x y => x + y)
def execUsub (e : Bool) (d a b : BitVec 5) : State → Out := uuu e d a b (fun x y => x - y)
def execUmul (e : Bool) (d a b : BitVec 5) : State → Out := uuu e d a b (fun x y => x * y)
def execUand (e : Bool) (d a b : BitVec 5) : State → Out := uuu e d a b (fun x y => x &&& y)
def execUor (e : Bool) (d a b : BitVec 5) : State → Out := uuu e d a b (fun x y => x ||| y)
def execUxor (e : Bool) (d a b : BitVec 5) : State → Out := uuu e d a b (fun x y => x ^^^ y)
def execUshl (e : Bool) (d a b : BitVec 5) : State → Out :=
  uuu e d a b (fun x y => if 64 ≤ y.toNat then 0 else x <<< y.toNat)
def execUshr (e : Bool) (d a b : BitVec 5) : State → Out :=
  uuu e d a b (fun x y => if 64 ≤ y.toNat then 0 else x >>> y.toNat)
def execUsar (e : Bool) (d a b : BitVec 5) : State → Out :=
  uuu e d a b (fun x y => if 64 ≤ y.toNat then (if x.msb then -1 else 0) else x.sshiftRight y.toNat)
def execUmov (e : Bool) (d a : BitVec 5) : State → Out :=
  uniWord e 4 [sReg d.toNat, sReg a.toNat] [a.toNat] (fun t => t.putUni d.toNat (t.uni a.toNat))
def execUaddi (e : Bool) (d a : BitVec 5) (i : BitVec 14) : State → Out :=
  uniWord e 4 [sReg d.toNat, sReg a.toNat] [a.toNat]
    (fun t => t.putUni d.toNat (t.uni a.toNat + i.signExtend 64))
/-- Two words: the literal counts as one (R35). -/
def execMovl (e : Bool) (d : BitVec 5) (lit : BitVec 32) : State → Out :=
  uniWord e 8 [sReg d.toNat] [] (fun t => t.putUni d.toNat (lit.signExtend 64))
def execMovlHi (e : Bool) (d : BitVec 5) (lit : BitVec 32) : State → Out :=
  uniWord e 8 [sReg d.toNat] [d.toNat] (fun t => t.putUni d.toNat (lit ++ (t.uni d.toNat).setWidth 32))

/-- NOP changes no state (R86). -/
def execNop (e : Bool) : State → Out := uniWord e 4 [] [] (fun t => t)

end Sys2Proof.Machine
end

