-- ==== Sys2Proof/Machine/Wait.lean ====
section
/-! DEFINITION. WAIT (03_thread_execution.md R87 to R91): descriptors, the phases captured, evaluation and time-out. -/
namespace Sys2Proof.Machine

/-- The kind of a condition descriptor, its space and its address (R88). -/
def condKind (x : Nat) : Nat := fld x 60 4
def condSpace (x : Nat) : Space := if bit x 56 then .scratch else .global
def condAddr (x : Nat) : Nat := fld x 0 56

/-- A descriptor that R91 makes illegal, in a gallery. -/
def condIllegal (g : Gallery) (x : Nat) : Bool :=
  match condKind x with
  | 0 => fld x 12 48 != 0 || fld x 0 12 == 0
  | 1 => decide (6 ≤ fld x 57 3) || condAddr x % 4 != 0
  | 2 => fld x 4 56 != 0
  | 3 => fld x 56 4 != 0
  | 4 => fld x 40 20 != 0 || fld x 12 4 != 0 || (calendarKey g (fld x 0 12)).isNone
  | 5 => fld x 57 3 != 0 || condAddr x % 16 != 0
  | _ => true

/-- The compare of a kind-1 condition (R88). -/
def condCompare (op : Nat) (x y : Word) : Bool :=
  match op with
  | 0 => x == y
  | 1 => x != y
  | 2 => x.slt y
  | 3 => !x.slt y
  | 4 => x.ult y
  | _ => !x.ult y

/-- The load of a condition's word at an offset from its address, where n bytes are checked: an ordinary load that no
watchpoint matches (R89, R201), whose page fault names the condition's address (R91). -/
def State.condLoad (s : State) (tk : Nat) (t : Thread) (c : Cast) (sp : Space) (a n off : Nat) :
    Res (State × Thread × Nat) :=
  (s.locate t c (castOf tk) sp (BitVec.ofNat 64 a) n .read).bind (fun (s1, l) =>
    .ok (s1.readBy t c (BitVec.ofNat 64 (a + off)) (l.plus off) 4))

/-- A read of the stage word of the framed page that an address lies on, after the latest PUBLISH of the page (R309, R319);
a page without F raises ENGINE 5 (R91, R324). -/
def State.stageOf (s : State) (t : Thread) (c : Cast) (a : Nat) : Res (State × Nat) :=
  match s.gal c.gallery with
  | none => .fault .noSuchAddress
  | some g =>
    match translate s.readable c.gallery g (BitVec.ofNat 64 a) t.priv .read with
    | .off => .fault .noSuchAddress
    | .fail fk =>
      let x := pageFault (BitVec.ofNat 64 a) fk .read
      if s.noErrors then .trap x else .late (s.noteWalk c.gallery (BitVec.ofNat 64 a)) t x
    | .ok x =>
      if x.framed then .ok (s.walked c.agent c.gallery x .read, stageWord s.readable c.gallery g x.page)
      else .trap (trapOf .engine (BitVec.ofNat 64 (5 * 2 ^ 56 + a / 2 ^ x.bits * 2 ^ x.bits)))

/-- One condition, with the phase captured for it (R88). -/
def State.condition (s : State) (tk : Nat) (t : Thread) (c : Cast) (operand : Word) (captured : Nat) (x : Nat) :
    Res (State × Thread × Bool) :=
  match condKind x with
  | 0 => .ok (s, t, (List.range 12).all (fun k => !bit x k || t.cue k == 0))
  | 1 =>
    (s.condLoad tk t c (condSpace x) (condAddr x) 4 0).bind (fun (s1, t1, v) =>
      .ok (s1, t1, condCompare (fld x 57 3) (BitVec.ofNat 32 v) operand))
  | 2 =>
    .ok (s, t, match tfind c.q (fld x 0 4) with
      | some r => decide (r.state = .empty) || decide (r.state = .done)
      | none => true)
  | 3 =>
    (s.stageOf t c (fld x 16 40 * 2 ^ 16)).bind (fun (s1, w) =>
      .ok (s1, t, decide ((fld w 16 16 + 2 ^ 16 - fld x 0 16) % 2 ^ 16 < 2 ^ 15)))
  | 4 =>
    .ok (s, t, match (s.gal c.gallery).bind (fun g => calendarKey g (fld x 0 12)) with
      | some key => (s.windowEnd key).isNone && decide (fld x 16 24 ≤ s.untilWindow key)
      | none => false)
  | _ =>
    (s.condLoad tk t c (condSpace x) (condAddr x) 16 8).bind (fun (s1, t1, v) =>
      .ok (s1, t1, v % 2 ^ 8 != captured))

/-- Every condition in order; i numbers the first of those left. Where one traps, what the loads before it owe stands (R194). -/
def State.conditions (tk : Nat) (c : Cast) (operand : Word) (phases : Nat) :
    List Nat → Nat → State → Thread → List Bool → Res (State × Thread × List Bool)
  | [], _, s, t, bs => .ok (s, t, bs)
  | x :: rest, i, s, t, bs =>
    ((s.condition tk t c operand (fld phases (8 * i) 8) x).after s t).bind (fun (s1, t1, b) =>
      State.conditions tk c operand phases rest (i + 1) s1 t1 (bs ++ [b]))

/-- The phases captured at the start of a WAIT (R89). -/
def State.capture (tk : Nat) (c : Cast) : List Nat → Nat → State → Thread → Nat → Res (State × Thread × Nat)
  | [], _, s, t, acc => .ok (s, t, acc)
  | x :: rest, i, s, t, acc =>
    if condKind x = 5 then
      ((s.condLoad tk t c (condSpace x) (condAddr x) 16 8).after s t).bind (fun (s1, t1, v) =>
        State.capture tk c rest (i + 1) s1 t1 (acc + v % 2 ^ 8 * 2 ^ (8 * i)))
    else State.capture tk c rest (i + 1) s t acc

/-- The condition registers of a WAIT. -/
def WaitOn.descriptors (w : WaitOn) (t : Thread) : List Nat := (List.range w.n).map (fun i => (t.uni (w.sa + i)).toNat)

/-- The time-out of a WAIT in ticks; 0 is none (R89). -/
def WaitOn.timeout (w : WaitOn) (t : Thread) : Nat := fld (t.uni w.st).toNat 0 25

/-- The first illegal register of a WAIT, in the order of R91. -/
def WaitOn.illegal (w : WaitOn) (t : Thread) (g : Gallery) : Option Nat :=
  match (List.range w.n).find? (fun i => condIllegal g (t.uni (w.sa + i)).toNat) with
  | some i => some (w.sa + i)
  | none =>
    if fld (t.uni w.st).toNat 25 7 != 0 || decide (2 ^ 24 < fld (t.uni w.st).toNat 0 25) then some w.st else none

/-- WAIT (R89): validation, then the phases or the progress of a WAIT resumed, and the thread is Waiting. -/
def waitWord (w : WaitOn) (s : State) : Out :=
  issue anyPriv (fun _ => (List.range w.n).map (fun i => sReg (w.sa + i)) ++ [sReg w.st])
    (fun t0 c =>
      let p := s.charge t0 ((List.range w.n).map (w.sa + ·) ++ [w.st])
      let t := p.2
      match s.gal c.gallery with
      | none => .fault .noSuchAddress
      | some g =>
        match w.illegal t g with
        | some r => .trap (trapOf .illegal (BitVec.ofNat 64 (sReg r)))
        | none =>
          let resume := fld t.pidx.toNat 60 4 = 1
          let r : Res (State × Thread × Nat) :=
            if resume then .ok (p.1, t, fld t.pidx.toNat 0 32)
            else State.capture s.focus c (w.descriptors t) 0 p.1 t 0
          r.bind (fun (s1, t1, phases) =>
            let elapsed := if resume then fld t.pidx.toNat 35 25 else 0
            .ok (s1.putT s.focus
              { t1 with
                pidx := BitVec.ofNat 64 (2 ^ 60 + elapsed * 2 ^ 35 + phases)
                run := .waiting
                waitOn := some w
                waitSince := s1.tick })))
    s

def execWaitAny (pd : BitVec 4) (sa : BitVec 5) (n : BitVec 2) (st : BitVec 5) : State → Out :=
  waitWord ⟨pd.toNat, sa.toNat, n.toNat + 1, false, st.toNat, none⟩
def execWaitAll (pd : BitVec 4) (sa : BitVec 5) (n : BitVec 2) (st : BitVec 5) : State → Out :=
  waitWord ⟨pd.toNat, sa.toNat, n.toNat + 1, true, st.toNat, none⟩

/-- The WAIT ends: p[pd] tells whether it timed out, and the thread is filed at the next scene (R89). -/
def Thread.waitDone (t : Thread) (w : WaitOn) (timedOut : Bool) (tick : Nat) : Thread :=
  { (t.setPred w.pd timedOut).goto (t.pc + 4) with pidx := 0, waitOn := none, run := .filed, age := tick }

/-- The cues that the kind-0 conditions of a WAIT name, as they stand: number and count. -/
def WaitOn.cuesNow (w : WaitOn) (t : Thread) : List Nat :=
  (w.descriptors t).flatMap (fun x =>
    if condKind x = 0 then ((List.range 12).filter (fun k => bit x k)).map t.cue else [])

/-- The condition compares a word of host or pool memory. -/
def State.condHost (s : State) (t : Thread) (c : Cast) (x : Nat) : Bool :=
  condKind x == 1 && decide (condSpace x = .global) &&
    (match (s.gal c.gallery).map (fun g => translate s.readable c.gallery g (BitVec.ofNat 64 (condAddr x)) t.priv .read) with
    | some (.ok y) => y.loc.isHost
    | _ => false)

/-- A WAIT that a compare of host or pool memory satisfies orders the thread's later accesses as a FENCE.H would (R89,
R316). -/
def State.hostFenced (s : State) (t : Thread) (c : Cast) (xs : List Nat) (bs : List Bool) : Thread :=
  if (xs.zip bs).any (fun p => p.2 && s.condHost t c p.1) then { t with hostFrom := s.hostCount } else t

/-- One evaluation of a Waiting thread's conditions (R89); a failing load traps at the WAIT. -/
def State.evaluate (s : State) (tk : Nat) : Out :=
  match s.thread tk, s.cast (castOf tk) with
  | some t, some c =>
    match t.run, t.waitOn with
    | .waiting, some w =>
      let r := State.conditions tk c ((t.uni w.st >>> 32).setWidth 32) (fld t.pidx.toNat 0 32) (w.descriptors t) 0 s t []
      s.settle tk t c (r.bind (fun (s1, t1, bs) =>
        let met := if w.all then bs.all id else bs.any id
        if met then .ok (s1.complete tk ((s1.hostFenced t1 c (w.descriptors t) bs).waitDone w false s.tick) c)
        else if w.timeout t ≠ 0 && decide (w.timeout t ≤ t.elapsed s.tick) then
          .ok (s1.complete tk (t1.waitDone w true s.tick) c)
        else .ok (s1.putT tk { t1 with waitOn := some { w with cues := some (w.cuesNow t) } })))
    | _, _ => .next s
  | _, _ => .next s

/-- The thread evaluates again at once: its WAIT has just begun, or a cue that it names has changed (R89). -/
def Thread.evaluatesNow (t : Thread) : Bool :=
  match t.run, t.waitOn with
  | .waiting, some w => w.cues != some (w.cuesNow t)
  | _, _ => false

/-- An evaluation that the machine makes of itself; a load that no memory serves leaves the thread waiting, and stops the
machine where WAIT_EVALUATE makes it. -/
def State.evaluated (s : State) (tk : Nat) : State :=
  match s.evaluate tk with
  | .next z => z
  | _ => s

/-- A waiting thread evaluates its conditions (R89). -/
def execWaitEvaluate (tk : Nat) : State → Out := fun s => s.evaluate tk

/-- A WAIT whose time is up makes its last evaluation: conditions that are met then prevail (R89). -/
def execWaitTimeout (tk : Nat) (s : State) : Out :=
  match s.thread tk with
  | some t =>
    match t.waitOn with
    | some w =>
      if w.timeout t ≠ 0 && decide (w.timeout t ≤ t.elapsed s.tick) then s.evaluate tk else .next s
    | none => .next s
  | none => .next s

end Sys2Proof.Machine
end

