-- ==== Sys2Proof/Machine/Dispatch.lean ====
section
/-! DEFINITION. The dispatch: one arm per row of the opcode table, one direct call of its meaning each. -/
namespace Sys2Proof.Machine
open Sys2Proof

def exec (i : Instr) (s : State) : Host.Outcome State Fault Refusal :=
  match i with
  | .scene w a b l => Sys2Proof.Machine.execScene w a b l s
  | .add e d a b => Sys2Proof.Machine.execAdd e d a b s
  | .sub e d a b => Sys2Proof.Machine.execSub e d a b s
  | .addc e d a b => Sys2Proof.Machine.execAddc e d a b s
  | .subb e d a b => Sys2Proof.Machine.execSubb e d a b s
  | .add64 e d a b => Sys2Proof.Machine.execAdd64 e d a b s
  | .sub64 e d a b => Sys2Proof.Machine.execSub64 e d a b s
  | .min e d a b => Sys2Proof.Machine.execMin e d a b s
  | .max e d a b => Sys2Proof.Machine.execMax e d a b s
  | .minu e d a b => Sys2Proof.Machine.execMinu e d a b s
  | .maxu e d a b => Sys2Proof.Machine.execMaxu e d a b s
  | .abs e d a => Sys2Proof.Machine.execAbs e d a s
  | .and e d a b => Sys2Proof.Machine.execAnd e d a b s
  | .or e d a b => Sys2Proof.Machine.execOr e d a b s
  | .xor e d a b => Sys2Proof.Machine.execXor e d a b s
  | .andn e d a b => Sys2Proof.Machine.execAndn e d a b s
  | .shl e d a b => Sys2Proof.Machine.execShl e d a b s
  | .shr e d a b => Sys2Proof.Machine.execShr e d a b s
  | .sar e d a b => Sys2Proof.Machine.execSar e d a b s
  | .rotl e d a b => Sys2Proof.Machine.execRotl e d a b s
  | .popc e d a => Sys2Proof.Machine.execPopc e d a s
  | .clz e d a => Sys2Proof.Machine.execClz e d a s
  | .ctz e d a => Sys2Proof.Machine.execCtz e d a s
  | .brev e d a => Sys2Proof.Machine.execBrev e d a s
  | .bswap e d a => Sys2Proof.Machine.execBswap e d a s
  | .bfx e d a b => Sys2Proof.Machine.execBfx e d a b s
  | .bfi e d a b => Sys2Proof.Machine.execBfi e d a b s
  | .addi e d a x_i => Sys2Proof.Machine.execAddi e d a x_i s
  | .andi e d a x_i => Sys2Proof.Machine.execAndi e d a x_i s
  | .ori e d a x_i => Sys2Proof.Machine.execOri e d a x_i s
  | .xori e d a x_i => Sys2Proof.Machine.execXori e d a x_i s
  | .shli e d a n => Sys2Proof.Machine.execShli e d a n s
  | .shri e d a n => Sys2Proof.Machine.execShri e d a n s
  | .sari e d a n => Sys2Proof.Machine.execSari e d a n s
  | .movi e d x_i => Sys2Proof.Machine.execMovi e d x_i s
  | .movhi e d x_i => Sys2Proof.Machine.execMovhi e d x_i s
  | .mullo e d a b => Sys2Proof.Machine.execMullo e d a b s
  | .mulhi e d a b => Sys2Proof.Machine.execMulhi e d a b s
  | .mulhiu e d a b => Sys2Proof.Machine.execMulhiu e d a b s
  | .mad e d a b => Sys2Proof.Machine.execMad e d a b s
  | .div e d a b => Sys2Proof.Machine.execDiv e d a b s
  | .divu e d a b => Sys2Proof.Machine.execDivu e d a b s
  | .rem e d a b => Sys2Proof.Machine.execRem e d a b s
  | .remu e d a b => Sys2Proof.Machine.execRemu e d a b s
  | .dot4s e d a b => Sys2Proof.Machine.execDot4s e d a b s
  | .dot4u e d a b => Sys2Proof.Machine.execDot4u e d a b s
  | .dot2s e d a b => Sys2Proof.Machine.execDot2s e d a b s
  | .cmp e p c a b k => Sys2Proof.Machine.execCmp e p c a b k s
  | .cmpi e p c a k x_i => Sys2Proof.Machine.execCmpi e p c a k x_i s
  | .plop e d a b t => Sys2Proof.Machine.execPlop e d a b t s
  | .pmovToV e d => Sys2Proof.Machine.execPmovToV e d s
  | .pmovToP e a => Sys2Proof.Machine.execPmovToP e a s
  | .fadd e d a b => Sys2Proof.Machine.execFadd e d a b s
  | .fsub e d a b => Sys2Proof.Machine.execFsub e d a b s
  | .fmul e d a b => Sys2Proof.Machine.execFmul e d a b s
  | .ffma e d a b => Sys2Proof.Machine.execFfma e d a b s
  | .fmin e d a b => Sys2Proof.Machine.execFmin e d a b s
  | .fmax e d a b => Sys2Proof.Machine.execFmax e d a b s
  | .fclass e d a => Sys2Proof.Machine.execFclass e d a s
  | .frnd e d a => Sys2Proof.Machine.execFrnd e d a s
  | .fcmp e p c a b k => Sys2Proof.Machine.execFcmp e p c a b k s
  | .pkadd e d a b => Sys2Proof.Machine.execPkadd e d a b s
  | .pkmul e d a b => Sys2Proof.Machine.execPkmul e d a b s
  | .pkfma e d a b => Sys2Proof.Machine.execPkfma e d a b s
  | .pkaddBf e d a b => Sys2Proof.Machine.execPkaddBf e d a b s
  | .pkmulBf e d a b => Sys2Proof.Machine.execPkmulBf e d a b s
  | .pkfmaBf e d a b => Sys2Proof.Machine.execPkfmaBf e d a b s
  | .dadd e d a b => Sys2Proof.Machine.execDadd e d a b s
  | .dsub e d a b => Sys2Proof.Machine.execDsub e d a b s
  | .dmul e d a b => Sys2Proof.Machine.execDmul e d a b s
  | .dfma e d a b => Sys2Proof.Machine.execDfma e d a b s
  | .dmin e d a b => Sys2Proof.Machine.execDmin e d a b s
  | .dmax e d a b => Sys2Proof.Machine.execDmax e d a b s
  | .dcmp e p c a b k => Sys2Proof.Machine.execDcmp e p c a b k s
  | .frcp e d a => Sys2Proof.Machine.execFrcp e d a s
  | .frsq e d a => Sys2Proof.Machine.execFrsq e d a s
  | .fsqrt e d a => Sys2Proof.Machine.execFsqrt e d a s
  | .fdiv e d a b => Sys2Proof.Machine.execFdiv e d a b s
  | .fexp2 e d a => Sys2Proof.Machine.execFexp2 e d a s
  | .flog2 e d a => Sys2Proof.Machine.execFlog2 e d a s
  | .fsinpi e d a => Sys2Proof.Machine.execFsinpi e d a s
  | .fcospi e d a => Sys2Proof.Machine.execFcospi e d a s
  | .ftanh e d a => Sys2Proof.Machine.execFtanh e d a s
  | .drcp e d a => Sys2Proof.Machine.execDrcp e d a s
  | .drsq e d a => Sys2Proof.Machine.execDrsq e d a s
  | .ddiv e d a b => Sys2Proof.Machine.execDdiv e d a b s
  | .cvt e d a x_s t => Sys2Proof.Machine.execCvt e d a x_s t s
  | .qntTf8 e d a b => Sys2Proof.Machine.execQntTf8 e d a b s
  | .qntTf6 e d a b => Sys2Proof.Machine.execQntTf6 e d a b s
  | .dqntTf8 e d a b => Sys2Proof.Machine.execDqntTf8 e d a b s
  | .dqntTf6 e d a b => Sys2Proof.Machine.execDqntTf6 e d a b s
  | .ctbl e d a b => Sys2Proof.Machine.execCtbl e d a b s
  | .ld e d a b m z x_s => Sys2Proof.Machine.execLd e d a b m z x_s s
  | .st e d a b m z x_s => Sys2Proof.Machine.execSt e d a b m z x_s s
  | .pfetch e a b m x_s => Sys2Proof.Machine.execPfetch e a b m x_s s
  | .mcst e d a b m z c => Sys2Proof.Machine.execMcst e d a b m z c s
  | .fence e x_s => Sys2Proof.Machine.execFence e x_s s
  | .aadd e d a b m w p => Sys2Proof.Machine.execAadd e d a b m w p s
  | .amin e d a b m w p => Sys2Proof.Machine.execAmin e d a b m w p s
  | .amax e d a b m w p => Sys2Proof.Machine.execAmax e d a b m w p s
  | .aand e d a b m w p => Sys2Proof.Machine.execAand e d a b m w p s
  | .aor e d a b m w p => Sys2Proof.Machine.execAor e d a b m w p s
  | .axor e d a b m w p => Sys2Proof.Machine.execAxor e d a b m w p s
  | .axch e d a b m w p => Sys2Proof.Machine.execAxch e d a b m w p s
  | .acas e d a b m w p => Sys2Proof.Machine.execAcas e d a b m w p s
  | .afadd e d a b m w p => Sys2Proof.Machine.execAfadd e d a b m w p s
  | .vote e d a m v => Sys2Proof.Machine.execVote e d a m v s
  | .redux e d a m v => Sys2Proof.Machine.execRedux e d a m v s
  | .scanInc e d a m v => Sys2Proof.Machine.execScanInc e d a m v s
  | .scanExc e d a m v => Sys2Proof.Machine.execScanExc e d a m v s
  | .had e d a m => Sys2Proof.Machine.execHad e d a m s
  | .shflIdx e d a m x_s => Sys2Proof.Machine.execShflIdx e d a m x_s s
  | .shflSidx e d a m x_s => Sys2Proof.Machine.execShflSidx e d a m x_s s
  | .shflXor e d a m x_s => Sys2Proof.Machine.execShflXor e d a m x_s s
  | .shflVidx e d a m => Sys2Proof.Machine.execShflVidx e d a m s
  | .bra p x_i o => Sys2Proof.Machine.execBra p x_i o s
  | .jmpi a => Sys2Proof.Machine.execJmpi a s
  | .calli d a => Sys2Proof.Machine.execCalli d a s
  | .ret a => Sys2Proof.Machine.execRet a s
  | .jtab n a b => Sys2Proof.Machine.execJtab n a b s
  | .call d o => Sys2Proof.Machine.execCall d o s
  | .mov e d a => Sys2Proof.Machine.execMov e d a s
  | .sel e d a b p => Sys2Proof.Machine.execSel e d a b p s
  | .s2vLo e d a => Sys2Proof.Machine.execS2vLo e d a s
  | .s2vHi e d a => Sys2Proof.Machine.execS2vHi e d a s
  | .v2sLo e d a => Sys2Proof.Machine.execV2sLo e d a s
  | .v2sHi e d a => Sys2Proof.Machine.execV2sHi e d a s
  | .v2sPair e d a => Sys2Proof.Machine.execV2sPair e d a s
  | .pfx m z r c x_s => Sys2Proof.Machine.execPfx m z r c x_s s
  | .uadd e d a b => Sys2Proof.Machine.execUadd e d a b s
  | .usub e d a b => Sys2Proof.Machine.execUsub e d a b s
  | .umul e d a b => Sys2Proof.Machine.execUmul e d a b s
  | .uand e d a b => Sys2Proof.Machine.execUand e d a b s
  | .uor e d a b => Sys2Proof.Machine.execUor e d a b s
  | .uxor e d a b => Sys2Proof.Machine.execUxor e d a b s
  | .ushl e d a b => Sys2Proof.Machine.execUshl e d a b s
  | .ushr e d a b => Sys2Proof.Machine.execUshr e d a b s
  | .usar e d a b => Sys2Proof.Machine.execUsar e d a b s
  | .umov e d a => Sys2Proof.Machine.execUmov e d a s
  | .uaddi e d a x_i => Sys2Proof.Machine.execUaddi e d a x_i s
  | .movl e d lit => Sys2Proof.Machine.execMovl e d lit s
  | .movlHi e d lit => Sys2Proof.Machine.execMovlHi e d lit s
  | .ubra a c o => Sys2Proof.Machine.execUbra a c o s
  | .ucall a o => Sys2Proof.Machine.execUcall a o s
  | .uret a => Sys2Proof.Machine.execUret a s
  | .reform => Sys2Proof.Machine.execReform s
  | .exit => Sys2Proof.Machine.execExit s
  | .waitAny p a n x_s => Sys2Proof.Machine.execWaitAny p a n x_s s
  | .waitAll p a n x_s => Sys2Proof.Machine.execWaitAll p a n x_s s
  | .nop e => Sys2Proof.Machine.execNop e s
  | .trap e c => Sys2Proof.Machine.execTrap e c s
  | .bkpt e c => Sys2Proof.Machine.execBkpt e c s
  | .vres e r a b => Sys2Proof.Machine.execVres e r a b s
  | .vrel e r => Sys2Proof.Machine.execVrel e r s
  | .tfetch e r b => Sys2Proof.Machine.execTfetch e r b s
  | .mma e q d a b z => Sys2Proof.Machine.execMma e q d a b z s
  | .qmma e q d a b z => Sys2Proof.Machine.execQmma e q d a b z s
  | .mpoly e q d x t g p => Sys2Proof.Machine.execMpoly e q d x t g p s
  | .miter e q x a b g p c => Sys2Proof.Machine.execMiter e q x a b g p c s
  | .azero e d => Sys2Proof.Machine.execAzero e d s
  | .aload e d a b => Sys2Proof.Machine.execAload e d a b s
  | .astore e d a b => Sys2Proof.Machine.execAstore e d a b s
  | .aread e d a b => Sys2Proof.Machine.execAread e d a b s
  | .awrite e d a b => Sys2Proof.Machine.execAwrite e d a b s
  | .atrn e d b => Sys2Proof.Machine.execAtrn e d b s
  | .acoef e c a => Sys2Proof.Machine.execAcoef e c a s
  | .astat e d x_s t => Sys2Proof.Machine.execAstat e d x_s t s
  | .conv e q a b => Sys2Proof.Machine.execConv e q a b s
  | .qread e d q x_s => Sys2Proof.Machine.execQread e d q x_s s
  | .bar e d a => Sys2Proof.Machine.execBar e d a s
  | .binit e a b => Sys2Proof.Machine.execBinit e a b s
  | .gbar e d a => Sys2Proof.Machine.execGbar e d a s
  | .copy e d a b => Sys2Proof.Machine.execCopy e d a b s
  | .gather e d a b => Sys2Proof.Machine.execGather e d a b s
  | .scatter e d a b => Sys2Proof.Machine.execScatter e d a b s
  | .publish e a b => Sys2Proof.Machine.execPublish e a b s
  | .coll e d a b => Sys2Proof.Machine.execColl e d a b s
  | .launch e d a => Sys2Proof.Machine.execLaunch e d a s
  | .gnode e d a => Sys2Proof.Machine.execGnode e d a s
  | .gdep e a b => Sys2Proof.Machine.execGdep e a b s
  | .send e d a b => Sys2Proof.Machine.execSend e d a b s
  | .recv e d a b => Sys2Proof.Machine.execRecv e d a b s
  | .rfcal e d a => Sys2Proof.Machine.execRfcal e d a s
  | .snap e d a b => Sys2Proof.Machine.execSnap e d a b s
  | .csrr e c x_s => Sys2Proof.Machine.execCsrr e c x_s s
  | .csrw e c x_s => Sys2Proof.Machine.execCsrw e c x_s s
  | .csrs e c x_s => Sys2Proof.Machine.execCsrs e c x_s s
  | .csrc e c x_s => Sys2Proof.Machine.execCsrc e c x_s s
  | .rett => Sys2Proof.Machine.execRett s
  | .rdtime e x_s => Sys2Proof.Machine.execRdtime e x_s s
  | .ctxsave e x_s => Sys2Proof.Machine.execCtxsave e x_s s
  | .ctxload e x_s => Sys2Proof.Machine.execCtxload e x_s s
  | .wingageWrite x => Sys2Proof.Machine.execWingageWrite x s
  | .frmWrite x => Sys2Proof.Machine.execFrmWrite x s
  | .tcauseClear x => Sys2Proof.Machine.execTcauseClear x s
  | .tvecWrite x => Sys2Proof.Machine.execTvecWrite x s
  | .haltcast x => Sys2Proof.Machine.execHaltcast x s
  | .rdvtoWrite x => Sys2Proof.Machine.execRdvtoWrite x s
  | .tsliceWrite x => Sys2Proof.Machine.execTsliceWrite x s
  | .curatorBaseWrite csr x => Sys2Proof.Machine.execCuratorBaseWrite csr x s
  | .snapresWrite x => Sys2Proof.Machine.execSnapresWrite x s
  | .csrPlainWrite csr x => Sys2Proof.Machine.execCsrPlainWrite csr x s
  | .moduleReset failed bad => Sys2Proof.Machine.execModuleReset failed bad s
  | .slotAged core slot => Sys2Proof.Machine.execSlotAged core slot s
  | .chorusDraw core slot => Sys2Proof.Machine.execChorusDraw core slot s
  | .laneGrant core ch => Sys2Proof.Machine.execLaneGrant core ch s
  | .sceneFetch core ch => Sys2Proof.Machine.execSceneFetch core ch s
  | .headerWaitMet core ch => Sys2Proof.Machine.execHeaderWaitMet core ch s
  | .translationWalk core va => Sys2Proof.Machine.execTranslationWalk core va s
  | .loadComplete tk op => Sys2Proof.Machine.execLoadComplete tk op s
  | .waitEvaluate tk => Sys2Proof.Machine.execWaitEvaluate tk s
  | .waitTimeout tk => Sys2Proof.Machine.execWaitTimeout tk s
  | .causeDelivery tk => Sys2Proof.Machine.execCauseDelivery tk s
  | .rdvTimeout tk => Sys2Proof.Machine.execRdvTimeout tk s
  | .matrixOpStart core => Sys2Proof.Machine.execMatrixOpStart core s
  | .matrixOpComplete core => Sys2Proof.Machine.execMatrixOpComplete core s
  | .accOpComplete core => Sys2Proof.Machine.execAccOpComplete core s
  | .slewStep cluster => Sys2Proof.Machine.execSlewStep cluster s
  | .fenceComplete tk => Sys2Proof.Machine.execFenceComplete tk s
  | .engineSlotFree tk => Sys2Proof.Machine.execEngineSlotFree tk s
  | .engineOpComplete op => Sys2Proof.Machine.execEngineOpComplete op s
  | .publishTake tk => Sys2Proof.Machine.execPublishTake tk s
  | .castEnd ck => Sys2Proof.Machine.execCastEnd ck s
  | .copyNodeStart node => Sys2Proof.Machine.execCopyNodeStart node s
  | .boxOfficePass g => Sys2Proof.Machine.execBoxOfficePass g s
  | .blockerTimeout g => Sys2Proof.Machine.execBlockerTimeout g s
  | .coreGate core => Sys2Proof.Machine.execCoreGate core s
  | .coreWakeComplete core => Sys2Proof.Machine.execCoreWakeComplete core s
  | .powerInterval temps => Sys2Proof.Machine.execPowerInterval temps s
  | .refreshWindowStart store => Sys2Proof.Machine.execRefreshWindowStart store s
  | .refreshWindowEnd store => Sys2Proof.Machine.execRefreshWindowEnd store s
  | .ptsAdvance core => Sys2Proof.Machine.execPtsAdvance core s
  | .sliceExpiry ck => Sys2Proof.Machine.execSliceExpiry ck s
  | .sliceDecision ck => Sys2Proof.Machine.execSliceDecision ck s
  | .haltRequest ck => Sys2Proof.Machine.execHaltRequest ck s
  | .hostCxlMemAccess g addr write data => Sys2Proof.Machine.execHostCxlMemAccess g addr write data s
  | .packetTagDrop tag tile => Sys2Proof.Machine.execPacketTagDrop tag tile s
  | .regionTestFail region => Sys2Proof.Machine.execRegionTestFail region s
  | .coreComputeFail core => Sys2Proof.Machine.execCoreComputeFail core s
  | .snapshotComplete g => Sys2Proof.Machine.execSnapshotComplete g s
  | .fabricFlitReceive port flit => Sys2Proof.Machine.execFabricFlitReceive port flit s
  | .fabricPortDown port => Sys2Proof.Machine.execFabricPortDown port s
  | .stubLaunch g opa => Sys2Proof.Machine.execStubLaunch g opa s
  | .stubGnode g opa => Sys2Proof.Machine.execStubGnode g opa s
  | .stubGdep g opa opb => Sys2Proof.Machine.execStubGdep g opa opb s
  | .createGallery tag a0 a1 a2 a3 a4 => Sys2Proof.Machine.execCreateGallery tag a0 a1 a2 a3 a4 s
  | .removeGallery tag a0 a1 a2 a3 a4 => Sys2Proof.Machine.execRemoveGallery tag a0 a1 a2 a3 a4 s
  | .growGallery tag a0 a1 a2 a3 a4 => Sys2Proof.Machine.execGrowGallery tag a0 a1 a2 a3 a4 s
  | .shrinkGallery tag a0 a1 a2 a3 a4 => Sys2Proof.Machine.execShrinkGallery tag a0 a1 a2 a3 a4 s
  | .migratePosition tag a0 a1 a2 a3 a4 => Sys2Proof.Machine.execMigratePosition tag a0 a1 a2 a3 a4 s
  | .compactGallery tag a0 a1 a2 a3 a4 => Sys2Proof.Machine.execCompactGallery tag a0 a1 a2 a3 a4 s
  | .retirePosition tag a0 a1 a2 a3 a4 => Sys2Proof.Machine.execRetirePosition tag a0 a1 a2 a3 a4 s
  | .setCommunicator tag a0 a1 a2 a3 a4 => Sys2Proof.Machine.execSetCommunicator tag a0 a1 a2 a3 a4 s
  | .haltCast tag a0 a1 a2 a3 a4 => Sys2Proof.Machine.execHaltCast tag a0 a1 a2 a3 a4 s
  | .readBack tag a0 a1 a2 a3 a4 => Sys2Proof.Machine.execReadBack tag a0 a1 a2 a3 a4 s
  | .readLog tag a0 a1 a2 a3 a4 => Sys2Proof.Machine.execReadLog tag a0 a1 a2 a3 a4 s
  | .stageFirmware tag a0 a1 a2 a3 a4 => Sys2Proof.Machine.execStageFirmware tag a0 a1 a2 a3 a4 s
  | .identify tag a0 a1 a2 a3 a4 => Sys2Proof.Machine.execIdentify tag a0 a1 a2 a3 a4 s
  | .spdmGetMeasurements g nonce => Sys2Proof.Machine.execSpdmGetMeasurements g nonce s
  | .tdispLock g => Sys2Proof.Machine.execTdispLock g s
  | .groupKeyDelivery g grp key => Sys2Proof.Machine.execGroupKeyDelivery g grp key s
  | .snapshotStreamPassesLine g line => Sys2Proof.Machine.execSnapshotStreamPassesLine g line s
  | .managementRequestMalformed words => Sys2Proof.Machine.execManagementRequestMalformed words s
  | .stubOpMalformed g op opa opb => Sys2Proof.Machine.execStubOpMalformed g op opa opb s
  | .spdmSecuredSession g => Sys2Proof.Machine.execSpdmSecuredSession g s
  | .tdispRunRequest g => Sys2Proof.Machine.execTdispRunRequest g s
  | .ideKeyManagement g stream key => Sys2Proof.Machine.execIdeKeyManagement g stream key s
  | .fabricBringUp ports number => Sys2Proof.Machine.execFabricBringUp ports number s

end Sys2Proof.Machine
end

