-- ==== Sys2Proof/Machine/Settle.lean ====
section
/-! DEFINITION. What follows within a step of the machine from what a step did: exits (09_core.md R217, R222;
16_package_launch_power.md R372), causes delivered at once (R194, R216), WAITs whose cues changed (R89), barriers whose phase
moved (R230, R372), filing (R66), stops and quiesces that can end (R365, R391), ports that go down (R427), and the choruses
(R70, R72, R215). -/
namespace Sys2Proof.Machine

/-- Held rendezvous sets that name the seat of an Exited thread fail (R217). -/
def State.rdvExits (s : State) (ck : Nat) : State :=
  (s.castThreads ck).foldl (fun (z : State) p =>
    match z.thread (thrKey ck p.1), z.cast ck with
    | some t, some c =>
      match t.held with
      | some (.rdv mask _) =>
        let w := windowOf p.1
        if (z.window ck w).any (fun x => decide (x.2.run = .exited) && mask.getLsbD (seatOf (tidOf x.1))) then
          z.failSet ck w c t.pc t.priv mask 1
        else z
      | _ => z
    | _, _ => z) s

/-- Convergence registers after exits: an emptied set is EMPTY, and one that is now wholly signed issues (R222). -/
def State.qExits (s : State) (ck : Nat) : State :=
  (List.range 16).foldl (fun (z : State) q =>
    match z.cast ck with
    | none => z
    | some c =>
      match tfind c.q q with
      | none => z
      | some r =>
        if decide (r.state = .opened) || decide (r.state = .done) then
          (if (z.qMembers ck r).isEmpty then z.putC ck (c.setQ q (r.declare none)) else z.tryIssue ck q)
        else z) s

/-- The thread is gone from its core: it has exited, or there is none. -/
def State.exitedThread (s : State) (tk : Nat) : Bool :=
  match s.thread tk with
  | some t => decide (t.run = .exited)
  | none => true

/-- An owed ENGINE whose issuer has exited is recorded in the completion status and is owed no more (R325, R437). -/
def State.dropEngines (s : State) : State :=
  (s.ops.filter (fun p => p.2.owed && s.exitedThread p.2.tk)).foldl (fun (z : State) p =>
    ({ z with ops := tdel z.ops p.1 } : State).recordFault (p.2.ck / 65536) p.2.ftval p.2.errKey) s

/-- The DIVERGE that threads of a cast are owed that have exited is owed no more (R282, R437). -/
def State.dropDiverges (s : State) (ck : Nat) : State :=
  match s.cast ck with
  | none => s
  | some c =>
    if c.q.any (fun p => p.2.owed.any (fun o => s.exitedThread (thrKey ck o.1))) then
      s.putC ck { c with q := tmap c.q (fun _ r =>
        { r with owed := r.owed.filter (fun o => !s.exitedThread (thrKey ck o.1)) }) }
    else s

/-- Threads of a cast to which causes are delivered without waiting for a draw (R194, R216). -/
def State.deliverCast (s : State) (ck : Nat) : State :=
  (s.castThreads ck).foldl (fun (z : State) p =>
    if p.2.run = .member ∨ p.2.run = .waiting then z.deliver (thrKey ck p.1) else z) s

/-- Waiting threads whose WAIT has begun, or whose cues have changed, evaluate their conditions (R89). -/
def State.evaluateCast (s : State) (ck : Nat) : State :=
  (s.castThreads ck).foldl (fun (z : State) p =>
    match z.thread (thrKey ck p.1) with
    | some t => if t.evaluatesNow then z.evaluated (thrKey ck p.1) else z
    | none => z) s

/-- Threads held at BAR and GBAR whose phase has moved look at it again (R230, R372). -/
def State.pollCast (s : State) (ck : Nat) : State :=
  (s.castThreads ck).foldl (fun (z : State) p =>
    let tk := thrKey ck p.1
    match z.thread tk, z.cast ck with
    | some t, some c =>
      match t.held with
      | some (.bar _ desc _) => if z.barMoved t c ck desc then z.pollBar tk else z
      | some (.gbar _ _ _ _) => z.pollGbar tk
      | _ => z
    | _, _ => z) s

/-- The casts that are on a core: key and core. -/
def State.resident (s : State) : List (Nat × Nat) :=
  s.casts.filterMap (fun p => p.2.coreNo.map (fun k => (p.1, k)))

/-- What a step leaves to be done at once. -/
def State.settled (s : State) : State :=
  let rs := s.resident
  let s1 := rs.foldl (fun (z : State) p => ((z.dropDiverges p.1).rdvExits p.1).qExits p.1) s
  let s2 := s1.prods.foldl (fun (z : State) p =>
    match tfind z.prods p.1 with
    | some x => if x.started then z.gridExits p.1 x else z
    | none => z) s1
  let s3 := s2.dropEngines
  let s4 := rs.foldl (fun (z : State) p => ((z.deliverCast p.1).evaluateCast p.1).pollCast p.1) s3
  let s5 := rs.foldl (fun (z : State) p => ((z.dropDiverges p.1).rdvExits p.1).qExits p.1) s4
  let s6 := rs.foldl (fun (z : State) p => z.fileCast p.2 p.1) s5
  let s7 := (s6.dev.ports.map (·.1)).foldl State.portDown s6.managed
  (s7.cores.map (·.1)).foldl (fun (z : State) k => z.regroup k) s7

end Sys2Proof.Machine
end

