-- ==== Sys2Proof/Machine/Time.lean ====
section
/-! DEFINITION. The passing of time: what a tick of the reference clock brings due (01_stolilo_levels.md R18;
03_thread_execution.md R89; 09_core.md R217, R230; 14_die_memory_order.md R303; 16_package_launch_power.md R355, R359,
R364). -/
namespace Sys2Proof.Machine

/-! ## The limiter steps of a tick (R359) -/

/-- Clusters whose limiter can have something to do: those whose record, or the record of one of whose cores, is not the one
that reset leaves. -/
def State.busyClusters (s : State) : List Nat :=
  (s.clusters.map (·.1) ++ s.cores.map (fun p => clusterOf p.1)).eraseDups

/-- The limiter steps that the tick still holds, n of them. -/
def State.slewSteps (s : State) (cluster : Nat) : Nat → State
  | 0 => s
  | n + 1 => (s.slewed cluster).slewSteps cluster n

/-- Every limiter has made the steps of the tick, and counts anew. -/
def State.slewTick (s : State) : State :=
  s.busyClusters.foldl (fun (z : State) c =>
    let y := z.slewSteps c (z.stepsDue c - (z.cluster c).stepsNow)
    y.putCluster c { y.cluster c with stepsNow := 0 }) s

/-! ## A tick -/

/-- One tick passes, which no slice counts of a cast that a debugger has halted, also while it is stopped where it is for a
CTXSAVE or a quiesce (R364). -/
def State.advanced (s : State) : State :=
  { s with
    tick := s.tick + 1
    casts := tmap s.casts (fun ck c =>
      if s.haltedByDebugger ck then { c with sliceStart := c.sliceStart + 1 } else c) }

/-- Every core has passed the leases that it holds, once in 200 ticks (R303). -/
def State.leasesPassed (s : State) : State :=
  if s.tick % 200 = 0 then (s.cores.map (·.1)).foldl State.ptsPassed s else s

/-- A thread at a new tick: a WAIT evaluates its conditions (R89), a BAR loads its phase (R230), and a set that has waited
for its time-out fails (R217). -/
def State.threadTick (s : State) (tk : Nat) : State :=
  match s.thread tk with
  | none => s
  | some t =>
    match t.run, t.held with
    | .waiting, _ => s.evaluated tk
    | .member, some (.bar _ _ _) => s.pollBar tk
    | .member, some (.rdv _ _) | .member, some (.sign _ _ _ _) => s.timeOutSet tk
    | _, _ => s

/-- A tick of the reference clock: what the tick that ends still owes, then the next tick and what it brings due. An interval
whose samples nothing has given keeps the last ones (log 6). -/
def State.passTick (s : State) : State :=
  let s1 := s.slewTick
  let s2 := if s1.nextInterval ≤ s1.tick then s1.interval [] else s1
  let s3 := s2.advanced.leasesPassed
  let s4 := (s3.threads.map (·.1)).foldl State.threadTick s3
  (s4.casts.map (·.1)).foldl State.sliceEnds s4

/-- n ticks, each with what follows from it at once, which takes no time. -/
def State.passTime (s : State) : Nat → State
  | 0 => s
  | n + 1 => ({ s.passTick.settled with tick := s.tick + 1 } : State).passTime n

end Sys2Proof.Machine
end

