-- ==== Sys2Proof/Machine/Policy.lean ====
section
/-! DEFINITION. Who acts, and what a turn does (95_what_each_step_holds.md; log 1): the words of a running chorus (R71), the
steps of the opcode table that no word encodes, the units of engines (R308) and of the matrix unit (R247), writes of host agents
(R293), time, and the turn taken where no agenda names one. -/
namespace Sys2Proof.Machine

/-- The outcome with f applied to a next state. -/
def mapNext (f : State → State) (r : Out) : Out :=
  match r with
  | .next s => .next (f s)
  | .fault x => .fault x
  | .refused x => .refused x

/-- The instruction that a chorus passes next, and the member that passes it (R71). -/
def State.passes (s : State) (k n : Nat) : Option (Instr × Nat) :=
  match (s.core k).chorusNo n with
  | none => none
  | some x =>
    match x.phase, x.todo with
    | .running, m :: _ => (x.instrAt x.pc).map (fun i => (i, thrKey x.ck m))
    | _, _ => none

/-- A write of a host agent to its own memory, or of another user of the pool to the pool: it has its place among such writes,
which device reads may see late (R293, R316, log 36). -/
def State.hostWrites (s : State) (l : Loc) (bs : List Byte) : State :=
  if l.cell % 2 ^ 64 + bs.length ≤ 2 ^ 64 then
    { s.writeBytes l bs Key.zero (some s.hostCount) with hostCount := s.hostCount + 1 }
  else s

/-- What a turn does before its consequences. -/
def State.act (s : State) (t : Turn) : Out :=
  match t with
  | .pass k n =>
    match s.passes k n with
    | some (i, tk) => if (s.core k).routerOnly then .next s else exec i (({ s with focus := tk } : State).retryStore tk)
    | none => .next s
  | .event i => if i.isWord then .next s else exec i s
  | .ticks n => .next (s.passTime n)
  | .engine op u => .next (s.engineUnit op u)
  | .matrix k => .next (s.matrixUnit k)
  | .hostWrite pool a bs => .next (s.hostWrites (if pool then .pool a else .host a) bs)

/-- One turn, with all that follows from it at once. -/
def State.turn (s : State) (t : Turn) : Out := mapNext State.settled (s.act t)

/-! ## What the machine does where nothing says otherwise -/

/-- Turns of threads: loads that have their data, fences, slots, PUBLISH, waits and time-outs. -/
def State.threadTurns (s : State) : List Turn :=
  s.threads.flatMap (fun (tk, t) =>
    (t.outst.filter (·.ready)).map (fun o => .event (.loadComplete tk o.op)) ++
      (match t.held with
      | some (.fence _ _ _) => [.event (.fenceComplete tk)]
      | some (.slot _) => [.event (.engineSlotFree tk)]
      | some (.publish _) => [.event (.publishTake tk)]
      | some (.rdv _ _) | some (.sign _ _ _ _) => [.event (.rdvTimeout tk)]
      | _ => []) ++
      (if t.run = .waiting then [.event (.waitEvaluate tk)] else []))

/-- Turns of engines. -/
def State.engineTurns (s : State) : List Turn :=
  s.ops.flatMap (fun (n, o) => (o.nextUnit.toList.map (fun u => .engine n u)) ++ [.event (.engineOpComplete n)])

/-- Turns of cores: the array, then the choruses, then slots, gating and waking. -/
def State.coreTurns (s : State) : List Turn :=
  s.cores.flatMap (fun (k, c) =>
    (if c.order.isEmpty then []
      else [.event (.accOpComplete k), .event (.matrixOpComplete k), .event (.matrixOpStart k), .matrix k] ++
        (if c.arrayBusy && c.grants == 0 then [.event (.slewStep (clusterOf k))] else [])) ++
      c.chorus.flatMap (fun (n, x) =>
        match x.phase with
        | .fetch => [.event (.sceneFetch k n)]
        | .header => [.event (.headerWaitMet k n)]
        | .lane => [.event (.laneGrant k n)]
        | .running => [.pass k n]) ++
      c.slots.flatMap (fun (n, _) => [.event (.chorusDraw k n), .event (.slotAged k n)]) ++
      (if c.waking.isSome then [.event (.coreWakeComplete k)] else []) ++
      (if c.gated then [] else [.event (.coreGate k)]))

/-- Turns of casts, nodes and galleries. -/
def State.officeTurns (s : State) : List Turn :=
  s.casts.flatMap (fun (ck, _) => [.event (.castEnd ck), .event (.sliceExpiry ck), .event (.sliceDecision ck)]) ++
    s.prods.map (fun (n, _) => .event (.copyNodeStart n)) ++
    s.gals.flatMap (fun (gi, g) => [.event (.blockerTimeout gi), .event (.boxOfficePass gi)] ++
      (if g.snap.isSome then [.event (.snapshotComplete gi)] else []))

/-- A turn that moves the machine: a Waiting thread's evaluation counts where it ends the WAIT. -/
def State.moves (s : State) (t : Turn) : Bool :=
  match s.turn t with
  | .next z =>
    (match t with
    | .event (.waitEvaluate tk) => (match z.thread tk with
      | some x => !decide (x.run = .waiting)
      | none => true)
    | _ => !decide (z = s))
  | _ => true

/-- The turn that an empty agenda leaves to the machine: the first that moves it, or a tick (log 1). -/
def State.policy (s : State) : Turn :=
  ((s.threadTurns ++ s.engineTurns ++ s.coreTurns ++ s.officeTurns).find? s.moves).getD (.ticks 1)

end Sys2Proof.Machine
end

