-- ==== Sys2Proof/Machine/Step.lean ====
section
/-! DEFINITION. One step of the machine: the head of the agenda acts, or what the policy chooses (log 1); and the state in
which a given instruction is the next to execute (log 2). -/
namespace Sys2Proof.Machine

/-- One step. -/
def step (s : State) : Host.Outcome State Fault Refusal :=
  match s.agenda with
  | t :: rest => { s with agenda := rest }.turn t
  | [] => s.turn s.policy

/-- The machine whose next step fetches and runs the instruction of these bits: the low word, and the word after it. -/
def State.withFetchWord (s : State) (nbits w : Nat) : State :=
  s.placeScene (w % 2 ^ nbits % 2 ^ 32) (w % 2 ^ nbits / 2 ^ 32)

end Sys2Proof.Machine
end

