-- ==== Sys2Proof/Safety.lean ====
section
/-! DEFINITION. What a safe run is, and the terms that statements about instructions use: when a thread may execute a word
(07_thread_memory_traps.md R192), where it goes on, and what an instruction leaves alone. -/
namespace Sys2Proof.Safety
open Sys2Proof.Machine

/-- The step goes on: neither a fault nor a refusal. -/
def Goes (r : Host.Outcome State Fault Refusal) : Prop := ∃ t, r = .next t

/-- Memory is in its one canonical form. -/
def MemoryOk (s : State) : Prop := Memory.wf s.mem = true

/-- No physical tile belongs to two galleries, nor twice to one (R377). -/
def TilesDisjoint (s : State) : Prop := (s.gals.flatMap (fun p => p.2.tiles)).Nodup

/-! ## When a thread may execute a word -/

/-- Registers, numbered as R190 numbers them, are within a cast's budgets (R60). -/
def InBudget (c : Cast) (regs : List Nat) : Prop := ∀ r ∈ regs, if r < 64 then r < c.vbud else r - 64 < c.sbud

/-- No operation that the thread issued has still to write one of the registers (R80). -/
def NoHazard (t : Thread) (regs : List Nat) : Prop := ∀ r ∈ regs, ∀ o ∈ t.outst, r ∉ o.regs

/-- A thread that is not single-stepped: STEP is clear, or the thread runs at supervisor privilege (R202). -/
def Unstepped (t : Thread) : Prop := t.step = false ∨ t.priv = .supervisor

/-- Thread t of cast c is in focus, is not single-stepped, and its word, which names the registers given, passes the checks
of R192 up to the breakpoints: budget, hazard, breakpoint. -/
structure Ready (s : State) (t : Thread) (c : Cast) (regs : List Nat) : Prop where
  thread : s.thread s.focus = some t
  cast : s.cast (castOf s.focus) = some c
  budget : InBudget c regs
  hazard : NoHazard t regs
  noBreak : breakpointAt c t (tidOf s.focus) t.pc = none
  noStep : Unstepped t

/-- The thread in focus has become t and goes on n bytes past its word: at the scene's next word, or, where the word ends
the scene, at the header that follows (R22, R27). -/
def wentOn (s : State) (t : Thread) (e : Bool) (n : Nat) : State :=
  s.putT s.focus { t with
    pc := t.pc + BitVec.ofNat 64 n
    hdr := if e then t.pc + BitVec.ofNat 64 n else t.hdr
    inScene := if e then false else t.inScene
    pfx := none
    suppress := false }

/-- The same for a thread by its key. -/
def wentOnAt (s : State) (tk : Nat) (t : Thread) (e : Bool) (n : Nat) : State :=
  s.putT tk { t with
    pc := t.pc + BitVec.ofNat 64 n
    hdr := if e then t.pc + BitVec.ofNat 64 n else t.hdr
    inScene := if e then false else t.inScene
    pfx := none
    suppress := false }

/-- The thread in focus has become t and goes to the scene at an address. -/
def wentTo (s : State) (t : Thread) (target : DWord) : State :=
  s.putT s.focus { t with pc := target, hdr := target, inScene := false, pfx := none, suppress := false }

/-- What a lane word leaves of its thread: its result r, or, where the prefix masks the thread off, zeros in the lane
registers dst, or nothing (R31). -/
def laneResult (t : Thread) (dst : List Nat) (r : Thread) : Thread :=
  if t.masked then (if t.zeroing then dst.foldl (fun x n => x.setLane n 0) t else t) else r

/-- The registers that are checked for a lane word that writes dst and reads src (R60, R80; log 7). -/
def laneRegs (t : Thread) (dst src : List Nat) : List Nat :=
  if t.masked then (if t.zeroing then dst else []) else dst ++ src

/-- Lane word i, with its end-of-scene bit, the registers that it writes and reads, and its result for an unmasked thread:
every thread that may execute it completes it so. -/
def LaneWord (i : Instr) (e : Bool) (dst : List Nat) (src : Thread → List Nat) (f : Thread → Thread) : Prop :=
  ∀ (s : State) (t : Thread) (c : Cast), Ready s t c (laneRegs t dst (src t)) →
    exec i s = .next (wentOn s (laneResult t dst (f t)) e 4)

/-- vd := f(va, vb), where f may look at the thread's prefix. -/
def LaneTwo (i : Instr) (e : Bool) (d a b : BitVec 6) (f : Thread → Word → Word → Word) : Prop :=
  LaneWord i e [d.toNat] (fun _ => [a.toNat, b.toNat])
    (fun t => t.setLane d.toNat (f t (t.lane a.toNat) (t.lane b.toNat)))

/-- vd := f(va). -/
def LaneOne (i : Instr) (e : Bool) (d a : BitVec 6) (f : Word → Word) : Prop :=
  LaneWord i e [d.toNat] (fun _ => [a.toNat]) (fun t => t.setLane d.toNat (f (t.lane a.toNat)))

/-- vd := f(va, vb, addend): the addend is vc of a prefix, else vd (R31). -/
def LaneAddend (i : Instr) (e : Bool) (d a b : BitVec 6) (f : Thread → Word → Word → Word → Word) : Prop :=
  LaneWord i e [d.toNat] (fun t => [a.toNat, b.toNat, t.third d])
    (fun t => t.setLane d.toNat (f t (t.lane a.toNat) (t.lane b.toNat) (t.lane (t.third d))))

/-- Pair vd := f(pair va, pair vb). -/
def LanePairs (i : Instr) (e : Bool) (d a b : BitVec 6) (f : Thread → DWord → DWord → DWord) : Prop :=
  LaneWord i e [d.toNat, d.toNat + 1] (fun _ => [a.toNat, a.toNat + 1, b.toNat, b.toNat + 1])
    (fun t => t.setPair d.toNat (f t (t.pair a.toNat) (t.pair b.toNat)))

/-- p[pd] takes the compare's result, combined; FFLAGS takes its flags. -/
def LaneCompare (i : Instr) (e : Bool) (p : BitVec 4) (k : BitVec 2) (src : List Nat) (f : Thread → Bool × Fl) : Prop :=
  LaneWord i e [] (fun _ => src)
    (fun t => (t.setPred p.toNat (combine k (t.pred p.toNat) (f t).1)).raise (f t).2)

/-- vd := an FP32 or packed result of the rounding mode, va and vb; FFLAGS takes its flags. -/
def LaneFloatTwo (i : Instr) (e : Bool) (d a b : BitVec 6) (f : BitVec 3 → Nat → Nat → Nat × Fl) : Prop :=
  LaneWord i e [d.toNat] (fun _ => [a.toNat, b.toNat])
    (fun t =>
      let r := f t.mode (t.lane a.toNat).toNat (t.lane b.toNat).toNat
      (t.setLane d.toNat (BitVec.ofNat 32 r.1)).raise r.2)
/-- The same with one source. -/
def LaneFloatOne (i : Instr) (e : Bool) (d a : BitVec 6) (f : BitVec 3 → Nat → Nat × Fl) : Prop :=
  LaneWord i e [d.toNat] (fun _ => [a.toNat])
    (fun t =>
      let r := f t.mode (t.lane a.toNat).toNat
      (t.setLane d.toNat (BitVec.ofNat 32 r.1)).raise r.2)
/-- The same with an addend. -/
def LaneFloatAddend (i : Instr) (e : Bool) (d a b : BitVec 6) (f : BitVec 3 → Nat → Nat → Nat → Nat × Fl) : Prop :=
  LaneWord i e [d.toNat] (fun t => [a.toNat, b.toNat, t.third d])
    (fun t =>
      let r := f t.mode (t.lane a.toNat).toNat (t.lane b.toNat).toNat (t.lane (t.third d)).toNat
      (t.setLane d.toNat (BitVec.ofNat 32 r.1)).raise r.2)
/-- Pair vd := an FP64 result of the pairs va and vb. -/
def LaneDoubleTwo (i : Instr) (e : Bool) (d a b : BitVec 6) (f : BitVec 3 → Nat → Nat → Nat × Fl) : Prop :=
  LaneWord i e [d.toNat, d.toNat + 1] (fun _ => [a.toNat, a.toNat + 1, b.toNat, b.toNat + 1])
    (fun t =>
      let r := f t.mode (t.pair a.toNat).toNat (t.pair b.toNat).toNat
      (t.setPair d.toNat (BitVec.ofNat 64 r.1)).raise r.2)
/-- The same with one source. -/
def LaneDoubleOne (i : Instr) (e : Bool) (d a : BitVec 6) (f : BitVec 3 → Nat → Nat × Fl) : Prop :=
  LaneWord i e [d.toNat, d.toNat + 1] (fun _ => [a.toNat, a.toNat + 1])
    (fun t =>
      let r := f t.mode (t.pair a.toNat).toNat
      (t.setPair d.toNat (BitVec.ofNat 64 r.1)).raise r.2)

/-- The five rounding modes (R103). -/
def roundings : List (BitVec 3) := [rne, rtz, rup, rdn, rna]
/-- The formats that results are rounded to (R92, R102). -/
def formats : List Fmt := [fp64, fp32, fp16, bf16, decodedFloat]
/-- A magnitude with its sign. -/
def signed (neg : Bool) (m : Nat) : Int := if neg then -(m : Int) else m

/-- The whole k is the magnitude n / d, of a value of the sign neg, rounded in a mode (R103). -/
def RoundsTo (mode : BitVec 3) (neg : Bool) (n d k : Nat) : Prop :=
  (mode = rne ∨ mode = rna → 2 * n ≤ (2 * k + 1) * d ∧ 2 * k * d ≤ 2 * n + d) ∧
  (mode = rne → 2 * n = (2 * k + 1) * d ∨ 2 * k * d = 2 * n + d → k % 2 = 0) ∧
  (mode = rna → 2 * n < (2 * k + 1) * d) ∧
  (mode = rtz ∨ mode = (if neg then rup else rdn) → k = n / d) ∧
  (mode = (if neg then rdn else rup) → k = (n + d - 1) / d)

/-- The magnitude n / d is m, or, where sticky, lies above m and below m + 1. -/
def StandsFor (m : Nat) (sticky : Bool) (n d : Nat) : Prop :=
  if sticky then m * d < n ∧ n < (m + 1) * d else n = m * d

/-- The number or infinity x lies below y; the two zeros are equal (R38, R155). -/
def Below (x y : FVal) : Bool :=
  match x, y with
  | .inf n, .inf k => n && !k
  | .inf n, .num _ _ _ => n
  | .num _ _ _, .inf k => !k
  | .num n m e, .num k l d =>
    decide (signed n (m * 2 ^ (e - min e d).toNat) < signed k (l * 2 ^ (d - min e d).toNat))
  | _, _ => false

/-- What a minimum, a maximum and the eight compares of two values are, and the flag of each (R152, R155). -/
def OrdersValues (f : Fmt) : Prop := ∀ a b : Nat,
  let x := f.value a
  let y := f.value b
  let quiet : Fl := if x.isSnan || y.isSnan then .invalid else .none
  let loud : Fl := if x.isNan || y.isNan then .invalid else .none
  let apart : Prop := x.isNan = true ∨ y.isNan = true
  (x.isNan = true → y.isNan = true → ∀ isMax, f.minMax isMax a b = (f.nan, quiet)) ∧
  (x.isNan = true → y.isNan = false → ∀ isMax, f.minMax isMax a b = (b, quiet)) ∧
  (x.isNan = false → y.isNan = true → ∀ isMax, f.minMax isMax a b = (a, quiet)) ∧
  (Below x y = true → f.minMax false a b = (a, .none) ∧ f.minMax true a b = (b, .none)) ∧
  (Below y x = true → f.minMax false a b = (b, .none) ∧ f.minMax true a b = (a, .none)) ∧
  (a = f.zero true → b = f.zero false → f.minMax false a b = (a, .none) ∧ f.minMax true a b = (b, .none) ∧
    f.minMax false b a = (a, .none) ∧ f.minMax true b a = (b, .none)) ∧
  ((f.compare 0 a b).1 = true ↔ ¬apart ∧ Below x y = false ∧ Below y x = false) ∧
  ((f.compare 1 a b).1 = true ↔ apart ∨ Below x y = true ∨ Below y x = true) ∧
  ((f.compare 2 a b).1 = true ↔ Below x y = true) ∧
  ((f.compare 3 a b).1 = true ↔ ¬apart ∧ Below y x = false) ∧
  ((f.compare 4 a b).1 = true ↔ Below y x = true) ∧
  ((f.compare 5 a b).1 = true ↔ ¬apart ∧ Below x y = false) ∧
  ((f.compare 6 a b).1 = true ↔ apart) ∧
  ((f.compare 7 a b).1 = true ↔ ¬apart) ∧
  (∀ k, k = 0 ∨ k = 1 ∨ k = 6 ∨ k = 7 → (f.compare k a b).2 = quiet) ∧
  (∀ k, k = 2 ∨ k = 3 ∨ k = 4 ∨ k = 5 → (f.compare k a b).2 = loud)

/-- The class of a bit pattern by its fields (R92, R153). -/
def ClassesValues (f : Fmt) : Prop := ∀ a : Nat,
  let neg := bit a (f.eb + f.mb)
  let ex := fld a f.mb f.eb
  let fr := fld a 0 f.mb
  f.classOf a =
    if ex = 2 ^ f.eb - 1 then (if fr = 0 then (if neg then 0 else 7) else if bit fr (f.mb - 1) then 9 else 8)
    else if ex = 0 then (if fr = 0 then (if neg then 3 else 4) else if neg then 2 else 5)
    else if neg then 1 else 6

/-- A value rounded to a whole one of its format: a NaN is made canonical, what is whole already stays, and a zero result keeps
the sign; no flag but NV (R154). -/
def RoundsToWhole (f : Fmt) (mode : BitVec 3) : Prop := ∀ a : Nat,
  match f.value a with
  | .nan sg => f.integral mode a = (f.nan, if sg then .invalid else .none)
  | .inf _ => f.integral mode a = (a, .none)
  | .num n m e =>
    if m = 0 ∨ 0 ≤ e then f.integral mode a = (a, .none)
    else ∃ k : Nat, RoundsTo mode n m (2 ^ (-e).toNat) k ∧ (f.integral mode a).2 = .none ∧
      (k = 0 → (f.integral mode a).1 = f.zero n) ∧
      (k ≠ 0 → ∃ j : Nat, f.value (f.integral mode a).1 = .num n (k * 2 ^ j) (-j))

/-- The tapered code c of magnitude field 0 to 2^bits − 1 is the rounding of the magnitude n / d, in units of the smallest
one, of a value of the sign neg (R103, R104): nearness is in value, and an even code has bit 0 clear. -/
def TapersTo (t : Taper) (mode : BitVec 3) (neg : Bool) (n d c : Nat) : Prop :=
  let off (k : Nat) : Nat := ((n : Int) - t.units k * d).natAbs
  (mode = rne ∨ mode = rna → ∀ k, k ≤ t.largestCode → off c ≤ off k) ∧
  (mode = rne → ∀ k, k ≤ t.largestCode → k ≠ c → off k = off c → c % 2 = 0) ∧
  (mode = rna → ∀ k, k ≤ t.largestCode → off k = off c → k ≤ c) ∧
  (mode = rtz ∨ mode = (if neg then rup else rdn) →
    t.units c * d ≤ n ∧ ∀ k, k ≤ t.largestCode → t.units k * d ≤ n → k ≤ c) ∧
  (mode = (if neg then rdn else rup) → n ≤ t.units c * d ∧ ∀ k, k ≤ t.largestCode → n ≤ t.units k * d → c ≤ k)

/-- The integer conditions by number (R38). -/
def intHolds (k : Nat) (x y : Word) : Bool :=
  [x == y, x != y, decide (x.toInt < y.toInt), decide (x.toInt ≤ y.toInt), decide (y.toInt < x.toInt),
    decide (y.toInt ≤ x.toInt), decide (x.toNat < y.toNat), decide (x.toNat ≤ y.toNat), decide (y.toNat < x.toNat),
    decide (y.toNat ≤ x.toNat)].getD k false

/-- An operation on the low and on the high half of its operands, with the flags of both (R156). -/
def inHalves2 (f : BitVec 3 → Nat → Nat → Nat × Fl) (m : BitVec 3) (x y : Nat) : Nat × Fl :=
  let lo := f m (x % 2 ^ 16) (y % 2 ^ 16)
  let hi := f m (x / 2 ^ 16 % 2 ^ 16) (y / 2 ^ 16 % 2 ^ 16)
  (lo.1 + hi.1 * 2 ^ 16, lo.2.or hi.2)
def inHalves3 (f : BitVec 3 → Nat → Nat → Nat → Nat × Fl) (m : BitVec 3) (x y z : Nat) : Nat × Fl :=
  let lo := f m (x % 2 ^ 16) (y % 2 ^ 16) (z % 2 ^ 16)
  let hi := f m (x / 2 ^ 16 % 2 ^ 16) (y / 2 ^ 16 % 2 ^ 16) (z / 2 ^ 16 % 2 ^ 16)
  (lo.1 + hi.1 * 2 ^ 16, lo.2.or hi.2)

/-- The lane words of floating point. -/
def floatWord : Instr → Bool
  | .fadd .. | .fsub .. | .fmul .. | .ffma .. | .fmin .. | .fmax .. | .fclass .. | .frnd .. | .fcmp .. | .pkadd ..
  | .pkmul .. | .pkfma .. | .pkaddBf .. | .pkmulBf .. | .pkfmaBf .. | .dadd .. | .dsub .. | .dmul .. | .dfma ..
  | .dmin .. | .dmax .. | .dcmp .. | .frcp .. | .frsq .. | .fsqrt .. | .fdiv .. | .fexp2 .. | .flog2 .. | .fsinpi ..
  | .fcospi .. | .ftanh .. | .drcp .. | .drsq .. | .ddiv .. | .cvt .. | .qntTf8 .. | .qntTf6 .. | .dqntTf8 ..
  | .dqntTf6 .. => true
  | _ => false

/-- A uniform read of registers whose latest writer is a V2S may have cost a LODC count; whether it did is free (R76). -/
def MayCharge (s s' : State) (t t' : Thread) (ss : List Nat) : Prop :=
  if ss.any (fun n => (s.lag t).getLsbD n) then
    (s' = s ∨ s' = { s with free := s.free + 1 }) ∧ (t' = t ∨ t' = { t with lodc := t.lodc + 1 })
  else s' = s ∧ t' = t

/-- Uniform word i of n bytes, with the registers that it names and those that it reads: every thread that may execute it
completes it with the result f. -/
def UniformWord (i : Instr) (e : Bool) (n : Nat) (regs : List Nat) (src : List Nat) (f : Thread → Thread) : Prop :=
  ∀ (s : State) (t : Thread) (c : Cast), Ready s t c regs →
    ∃ s' t', MayCharge s s' t t' src ∧ exec i s = .next (wentOn s' (f t') e n)

/-! ## Accesses -/

/-- The cell of the leaf entry that translates an address for a cast, where a walk finds one: its AC and D bits are the
hardware's to set (R187). -/
def leafCell (s : State) (c : Cast) (a : DWord) : Option Nat :=
  match s.gal c.gallery with
  | none => none
  | some g =>
    match walk s.readable c.gallery g a.toNat with
    | .leaf _ ea _ _ => some (Loc.dram c.gallery ea).cell
    | _ => none

/-- Byte b lies outside n bytes from cell a on. -/
def Outside (b a n : Nat) : Prop := b < a ∨ a + n ≤ b

/-- The addresses that a memory word accesses, with the size, its space and kind (R37, R178, R180, R182). -/
def accesses (i : Instr) (t : Thread) : List DWord × Nat × Space × Acc :=
  let atom (a : BitVec 6) (b : BitVec 5) (m w p : BitVec 1) : List DWord × Nat × Space × Acc :=
    let n := if w = 1 then 8 else 4
    ([t.address a.toNat b.toNat (m == 1) n], n, if p = 1 then .scratch else .global, .rmw)
  match i with
  | .ld _ _ a b m z sp => ([t.address a.toNat b.toNat (m == 1) (sizeOf3 z)], sizeOf3 z, spaceOf sp, .read)
  | .st _ _ a b m z sp => ([t.address a.toNat b.toNat (m == 1) (sizeOf3 z)], sizeOf3 z, spaceOf sp, .write)
  | .mcst _ _ a b m z k =>
    let n := if z = 1 then 8 else 4
    (mcstAddrs t a.toNat b.toNat (m == 1) n (k.toNat + 1), n, .global, .write)
  | .aadd _ _ a b m w p | .amin _ _ a b m w p | .amax _ _ a b m w p | .aand _ _ a b m w p | .aor _ _ a b m w p
  | .axor _ _ a b m w p | .axch _ _ a b m w p | .acas _ _ a b m w p | .afadd _ _ a b m w p => atom a b m w p
  | _ => ([], 1, .global, .read)

/-- The words of one thread that load, store or do both. -/
def memoryWord : Instr → Bool
  | .ld .. | .st .. | .mcst .. | .aadd .. | .amin .. | .amax .. | .aand .. | .aor .. | .axor .. | .axch .. | .acas ..
  | .afadd .. => true
  | _ => false

/-- Where an address that passes translation or range lies, for the stores of a word (R174, R187). -/
def placeAt (s : State) (t : Thread) (c : Cast) (sp : Space) (a : DWord) (n : Nat) (k : Acc) : Option Loc :=
  match s.locate t c (castOf s.focus) sp a n k with
  | .ok (_, l) => some l
  | _ => none

/-- The table that a walk reads at a depth, and the address and the contents of its entry there (R185). -/
def tableAt (m : List Host.Cell) (g root va : Nat) : Nat → Nat
  | 0 => root
  | n + 1 => fld (numAt m (Loc.dram g (tableAt m g root va n + 8 * (va / 2 ^ (46 - 10 * n) % 1024))).cell 8) 16 40 * 2 ^ 16
def entryAddr (m : List Host.Cell) (g root va n : Nat) : Nat := tableAt m g root va n + 8 * (va / 2 ^ (46 - 10 * n) % 1024)
def entryAt (m : List Host.Cell) (g root va n : Nat) : Nat := numAt m (Loc.dram g (entryAddr m g root va n)).cell 8

/-- An access of n bytes at an aligned address fails its check of range or translation, or, where it passes them, hits a
watchpoint: the trap that it raises (R174, R187, R190, R192, R201). -/
def FailsAt (s : State) (t : Thread) (c : Cast) (sp : Space) (a : DWord) (n : Nat) (k : Acc) (x : TrapInfo) : Prop :=
  ∃ g, s.gal c.gallery = some g ∧
    (((sp = .scratch ∧ c.spsize < a.toNat + n ∨ sp = .weights ∧ g.wsSize < a.toNat + n) ∧ x = trapOf .range a) ∨
    (sp = .global ∧ ∃ fk, translate s.readable c.gallery g a t.priv k = .fail fk ∧ x = ⟨.page, a, fk, k.code⟩) ∨
    ((∃ p, s.locate t c (castOf s.focus) sp a n k = .ok p) ∧ ∃ i, watchpointAt c t (tidOf s.focus) sp a n k = some i ∧
      x = trapOf .watch (BitVec.ofNat 64 (i * 2 ^ 56 + a.toNat % 2 ^ 56))))

/-- The state in which a word that a check of z has failed takes its trap: s, or z where a failing walk logs lines with errors
(R404). -/
def Noted (s z : State) (c : Cast) (a : DWord) (x : TrapInfo) : State :=
  if x.cause = .page ∧ z.noErrors = false then z.noteWalk c.gallery a else s

/-- No store of n bytes at the places touches an entry, or a stage word, by which one of the addresses is translated. -/
def Unmoved (s : State) (t : Thread) (c : Cast) (n : Nat) (as : List DWord) (ls : List Loc) : Prop :=
  ∀ g, s.gal c.gallery = some g → ∀ p ∈ as.zip ls, ∃ x, translate s.readable c.gallery g p.1 t.priv .write = .ok x ∧
    x.loc = p.2 ∧ ∀ e ∈ x.trail, ∀ l ∈ ls, ∀ j < 8, Outside ((Loc.dram c.gallery e).cell + j) l.cell n

/-- x is a value that a read of n bytes at a place may give: what the place holds, 0 in a line that supplies no data (R194);
of gallery DRAM also the bytes of the core's copy whose lease has not passed (R302); of the weight store what it held when
the production started (R294); of host and pool memory also what host agents have overwritten since the thread's latest
FENCE.H, satisfied WAIT and access to the line (R316; logs 35, 36). -/
def ReadsAs (s : State) (t : Thread) (c : Cast) (l : Loc) (n x : Nat) : Prop :=
  match l with
  | .scratch _ _ => x = s.value l n
  | .weights _ _ => x = s.weightValue c.prod l n
  | .dram _ _ => x = s.value l n ∨
      ∃ k, s.copyOf c.agent l = some k ∧ x = numAt k.cells l.cell n
  | .host _ | .pool _ =>
    if s.poisoned l = true then x = 0
    else ∃ v ∈ s.hostValues t l n, x = v.x

/-- x is a value that n bytes of a place have held since the production's start, the thread's latest FENCE.R and its latest
access there, of host and pool memory to the line (R305, R316; log 4). -/
def HeldSince (s : State) (t : Thread) (c : Cast) (l : Loc) (n x : Nat) : Prop := ∃ v ∈ s.replicaValues t c l n, x = v.x

/-- A .REP load of a global address may take a replica: its page has RA, the line's home is not the tile of the core, and the
line supplies data (R305). -/
def MayReplicate (s : State) (t : Thread) (c : Cast) (a : DWord) (l : Loc) : Prop :=
  s.allowsReplica t c a = true ∧ homeIsHere s c l = false ∧ s.poisoned l = false

/-- Word i executed n times for the thread in focus, each time where the time before left the machine. -/
def runs (i : Instr) : Nat → State → Out
  | 0, s => .next s
  | n + 1, s =>
    match exec i s with
    | .next z => runs i n z
    | r => r

/-- No snapshot is in flight, so that no store waits for the snapshot reserve (R395). -/
def NoSnapshot (s : State) : Prop := ∀ p ∈ s.gals, p.2.snap = none

/-- An atomic that completes: it takes the value x that the place held, stores new of x and of its operand, and its
destination awaits x; a place that supplies no data reads 0, takes nothing, and the thread is owed POISON with the address
(R80, R183, R194). -/
def AtomicWord (i : Instr) (d a : BitVec 6) (b : BitVec 5) (m w p : BitVec 1) (regs : List Nat)
    (new : Thread → Nat → Nat) : Prop :=
  ∀ (s s1 s2 : State) (t : Thread) (c : Cast) (l : Loc),
    let n := if w = 1 then 8 else 4
    let x := s1.value l n
    let addr := t.address a.toNat b.toNat (m == 1) n
    Ready s t c (regs ++ addrRegs a.toNat b.toNat (m == 1)) → t.cueFull t.cueA = false →
    s.checked t c s.focus (if p = 1 then .scratch else .global) addr n .rmw = .ok (s1, l) →
    s1.snapGuard l = .ok s2 →
    ∃ z u o, exec i s = .next z ∧ z.thread s.focus = some u ∧
      (s1.poisoned l = false → numAt z.mem l.cell n = new t x % 2 ^ (8 * n) ∧ u.poison = t.poison) ∧
      (s1.poisoned l = true → numAt z.mem l.cell n = numAt s1.mem l.cell n ∧
        (t.poison = none → u.poison = some (s1.nextOp, addr))) ∧
      (∀ y, Outside y l.cell n → byteAt z.mem y = byteAt s1.mem y) ∧
      u.outst = t.outst ++ [o] ∧ o.cue = t.cueA ∧ o.regs = dataRegs d.toNat n ∧ o.ready = true ∧
      o.vals = loadVals (if w = 1 then 3 else 2) x ∧ u.k = (t.incCue t.cueA).k ∧ u.v = t.v ∧ u.u = t.u

/-! ## Words that meet -/

/-- The member mask of a word that meets at a rendezvous, in s[sm] (R214). -/
def maskOf (t : Thread) (m : BitVec 5) : Word := BitVec.ofNat 32 (t.uni m.toNat).toNat

/-- The rendezvous of the thread in focus is complete with its arrival: its seat is a member, no member is Exited, and every
other member of its window is held in the same set (R214, R217). -/
def Meets (s : State) (t : Thread) (m : BitVec 5) : Prop :=
  let ck := castOf s.focus
  let w := windowOf (tidOf s.focus)
  let seat := seatOf (tidOf s.focus)
  (maskOf t m).getLsbD seat = true ∧
  (∀ p ∈ s.window ck w, p.2.run = .exited → (maskOf t m).getLsbD (seatOf (tidOf p.1)) = false) ∧
  (∀ j, j < 32 → j ≠ seat → (maskOf t m).getLsbD j = true →
    (seatBits (s.rdvSet ck w t.pc t.priv (maskOf t m))).getLsbD j = true)

/-- The members of the completed set in ascending order, the arriving thread among them. -/
def gathered (s : State) (t : Thread) (m : BitVec 5) : List (Nat × Thread) :=
  let held := s.rdvSet (castOf s.focus) (windowOf (tidOf s.focus)) t.pc t.priv (maskOf t m)
  held.filter (fun p => decide (p.1 < s.focus)) ++ (s.focus, t) :: held.filter (fun p => decide (s.focus < p.1))

/-- Word i, which names the registers regs and meets under the mask in s[sm], completes for all its members together: each
becomes what f makes of it, and goes on (R215). -/
def MeetingWord (i : Instr) (e : Bool) (m : BitVec 5) (all : Bool) (regs : List Nat)
    (f : List (Nat × Thread) → Nat × Thread → Thread) : Prop :=
  ∀ (s : State) (t : Thread) (c : Cast), Ready s t c regs → Meets s t m → (all = true → maskOf t m = 0xFFFF_FFFF) →
    exec i s = .next (s.release c e ((gathered s t m).map (fun p => (p.1, f (gathered s t m) p))))

/-- The registers that a word names and that are checked before it, numbered as R190 numbers them, in field order (R60, R80,
R192); of a lane word that the prefix masks off, those that it zeroes. A TFETCH has none to check (R256); none for a step that
no word encodes. -/
def namedRegs (i : Instr) (t : Thread) : Option (List Nat) :=
  match i with
  | .add _ d a b | .sub _ d a b | .addc _ d a b | .subb _ d a b | .min _ d a b | .max _ d a b
  | .minu _ d a b | .maxu _ d a b | .and _ d a b | .or _ d a b | .xor _ d a b | .andn _ d a b | .shl _ d a b
  | .shr _ d a b | .sar _ d a b | .rotl _ d a b | .bfx _ d a b | .bfi _ d a b | .mullo _ d a b
  | .mulhi _ d a b | .mulhiu _ d a b | .div _ d a b | .divu _ d a b | .rem _ d a b | .remu _ d a b
  | .fadd _ d a b | .fsub _ d a b | .fmul _ d a b | .fmin _ d a b | .fmax _ d a b | .fdiv _ d a b
  | .pkadd _ d a b | .pkmul _ d a b | .pkaddBf _ d a b | .pkmulBf _ d a b | .sel _ d a b _ => some (laneRegs t [d.toNat] [a.toNat, b.toNat])
  | .mad _ d a b | .dot4s _ d a b | .dot4u _ d a b | .dot2s _ d a b | .ffma _ d a b | .pkfma _ d a b
  | .pkfmaBf _ d a b => some (laneRegs t [d.toNat] [a.toNat, b.toNat, t.third d])
  | .abs _ d a | .popc _ d a | .clz _ d a | .ctz _ d a | .brev _ d a | .bswap _ d a | .mov _ d a
  | .fclass _ d a | .frnd _ d a | .frcp _ d a | .frsq _ d a | .fsqrt _ d a | .fexp2 _ d a | .flog2 _ d a
  | .fsinpi _ d a | .fcospi _ d a | .ftanh _ d a | .addi _ d a _ | .andi _ d a _ | .ori _ d a _
  | .xori _ d a _ | .shli _ d a _ | .shri _ d a _ | .sari _ d a _ => some (laneRegs t [d.toNat] [a.toNat])
  | .movi _ d _ | .movhi _ d _ | .pmovToV _ d => some (laneRegs t [d.toNat] [])
  | .cmp _ _ _ a b _ | .fcmp _ _ _ a b _ => some (laneRegs t [] [a.toNat, b.toNat])
  | .cmpi _ _ _ a _ _ | .pmovToP _ a => some (laneRegs t [] [a.toNat])
  | .add64 _ d a b | .sub64 _ d a b | .dadd _ d a b | .dsub _ d a b | .dmul _ d a b | .dmin _ d a b
  | .dmax _ d a b | .ddiv _ d a b => some (laneRegs t [d.toNat, d.toNat + 1] [a.toNat, a.toNat + 1, b.toNat, b.toNat + 1])
  | .dcmp _ _ _ a b _ => some (laneRegs t [] [a.toNat, a.toNat + 1, b.toNat, b.toNat + 1])
  | .drcp _ d a | .drsq _ d a => some (laneRegs t [d.toNat, d.toNat + 1] [a.toNat, a.toNat + 1])
  | .dfma _ d a b => some (laneRegs t [d.toNat, d.toNat + 1]
      [a.toNat, a.toNat + 1, b.toNat, b.toNat + 1, t.third d, t.third d + 1])
  | .cvt _ d a sf tf => some (laneRegs t (if wideCode tf.toNat then [d.toNat, d.toNat + 1] else [d.toNat])
      (if wideCode sf.toNat then [a.toNat, a.toNat + 1] else [a.toNat]))
  | .s2vLo _ d a | .s2vHi _ d a => some (laneRegs t [d.toNat] [64 + a.toNat])
  | .v2sLo _ d a | .v2sHi _ d a => some (laneRegs t [64 + d.toNat] [a.toNat])
  | .v2sPair _ d a => some (laneRegs t [64 + d.toNat] [a.toNat, a.toNat + 1])
  | .plop .. => some []
  | .qntTf8 _ d a b | .qntTf6 _ d a b | .dqntTf8 _ d a b | .dqntTf6 _ d a b => some [d.toNat, a.toNat, b.toNat]
  | .ctbl _ d a b => some [d.toNat, a.toNat, a.toNat + 1, b.toNat]
  | .ld _ d a b m z _ | .st _ d a b m z _ => some (dataRegs d.toNat (sizeOf3 z) ++ addrRegs a.toNat b.toNat (m == 1))
  | .pfetch _ a b m _ => some (addrRegs a.toNat b.toNat (m == 1))
  | .mcst _ d a b m z k => some (dataRegs d.toNat (if z = 1 then 8 else 4) ++
      (if m = 1 then vRange a.toNat (2 * (k.toNat + 1)) else vRange a.toNat (k.toNat + 1) ++ [64 + b.toNat]))
  | .aadd _ d a b m w _ | .amin _ d a b m w _ | .amax _ d a b m w _ | .aand _ d a b m w _ | .aor _ d a b m w _
  | .axor _ d a b m w _ | .axch _ d a b m w _ | .afadd _ d a b m w _ =>
    some (dataRegs d.toNat (if w = 1 then 8 else 4) ++ addrRegs a.toNat b.toNat (m == 1))
  | .acas _ d a b m w _ => some ((if w = 1 then [d.toNat, d.toNat + 1, d.toNat + 2, d.toNat + 3]
      else [d.toNat, d.toNat + 1]) ++ addrRegs a.toNat b.toNat (m == 1))
  | .vote _ d a m _ | .redux _ d a m _ | .scanInc _ d a m _ | .scanExc _ d a m _ | .had _ d a m | .shflIdx _ d a m _
  | .shflXor _ d a m _ | .shflVidx _ d a m => some [d.toNat, a.toNat, 64 + m.toNat]
  | .shflSidx _ d a m n => some [d.toNat, a.toNat, 64 + m.toNat, 64 + n.toNat]
  | .jmpi a | .ret a => some [a.toNat, a.toNat + 1]
  | .call d _ => some [d.toNat, d.toNat + 1]
  | .calli d a => some [d.toNat, d.toNat + 1, a.toNat, a.toNat + 1]
  | .jtab _ a b => some [a.toNat, 64 + b.toNat]
  | .uadd _ d a b | .usub _ d a b | .umul _ d a b | .uand _ d a b | .uor _ d a b | .uxor _ d a b | .ushl _ d a b
  | .ushr _ d a b | .usar _ d a b | .copy _ d a b | .coll _ d a b | .send _ d a b | .recv _ d a b | .snap _ d a b =>
    some [64 + d.toNat, 64 + a.toNat, 64 + b.toNat]
  | .umov _ d a | .uaddi _ d a _ | .bar _ d a | .gbar _ d a | .launch _ d a | .gnode _ d a | .rfcal _ d a =>
    some [64 + d.toNat, 64 + a.toNat]
  | .movl _ d _ | .movlHi _ d _ | .qread _ d _ _ => some [64 + d.toNat]
  | .ubra a k _ => some (if k = 0 then [] else [64 + a.toNat])
  | .ucall a _ | .uret a | .acoef _ _ a => some [64 + a.toNat]
  | .waitAny _ a n r | .waitAll _ a n r =>
    some ((List.range (n.toNat + 1)).map (fun j => 64 + (a.toNat + j)) ++ [64 + r.toNat])
  | .vres _ _ a b => some [64 + a.toNat, 64 + (a.toNat + 1), 64 + b.toNat]
  | .aload _ _ a b | .astore _ _ a b | .aread _ _ a b | .awrite _ _ a b | .conv _ _ a b | .binit _ a b | .publish _ a b
  | .gdep _ a b => some [64 + a.toNat, 64 + b.toNat]
  | .astat _ _ _ b => some [64 + b.toNat]
  | .gather _ d a b | .scatter _ d a b => some [64 + d.toNat, 64 + a.toNat, 64 + (a.toNat + 1), 64 + b.toNat]
  | .csrr _ _ r | .csrw _ _ r | .csrs _ _ r | .csrc _ _ r | .rdtime _ r | .ctxsave _ r | .ctxload _ r =>
    some [64 + r.toNat]
  | .scene .. | .pfx .. | .fence .. | .bra .. | .reform | .exit | .nop _ | .trap .. | .bkpt .. | .vrel .. | .tfetch ..
  | .mma .. | .qmma .. | .mpoly .. | .miter .. | .azero .. | .atrn .. | .rett => some []
  | _ => none

/-- What step 1 of R192 refuses: a word that supervisor privilege runs takes PRIV with TVAL 0 at program privilege, among
them a COPY that loads weights or seals; a register number by R44. -/
def wordPriv (i : Instr) (t : Thread) : Option TrapInfo :=
  match i with
  | .rett | .ctxsave .. | .ctxload .. | .snap .. => supervisorOnly t
  | .copy e d a b => enginePriv (insWord (.copy e d a b)) t
  | .gather e d a b => enginePriv (insWord (.gather e d a b)) t
  | .scatter e d a b => enginePriv (insWord (.scatter e d a b)) t
  | .coll e d a b => enginePriv (insWord (.coll e d a b)) t
  | .csrr _ n _ => csrCheck n.toNat false t
  | .csrw _ n _ | .csrs _ n _ | .csrc _ n _ => csrCheck n.toNat true t
  | _ => none

/-- The words that meet, each with the register of its mask, whether it asks for the full mask, and the registers that it
names (R214, R218 to R221). -/
def meetingForm : Instr → Option (BitVec 5 × Bool × List Nat)
  | .shflIdx _ d a m _ | .shflXor _ d a m _ | .shflVidx _ d a m | .vote _ d a m _ | .redux _ d a m _
  | .scanInc _ d a m _ | .scanExc _ d a m _ => some (m, false, [d.toNat, a.toNat, 64 + m.toNat])
  | .shflSidx _ d a m n => some (m, false, [d.toNat, a.toNat, 64 + m.toNat, 64 + n.toNat])
  | .had _ d a m => some (m, true, [d.toNat, a.toNat, 64 + m.toNat])
  | _ => none

/-- Seats and values of members. -/
def seatValues (ms : List (Nat × Thread)) (a : BitVec 6) : List (Nat × Nat) :=
  ms.map (fun p => (seatOf (tidOf p.1), (p.2.lane a.toNat).toNat))

/-- VOTE by mode (R39, R220): all, any, uniform, ballot, count, first. -/
def voteValue (k : Nat) (xs : List (Nat × Nat)) : Nat :=
  let nz := xs.filter (fun p => p.2 != 0)
  [if xs.all (fun p => p.2 != 0) then 1 else 0, if xs.any (fun p => p.2 != 0) then 1 else 0,
    if xs.all (fun p => xs.all (fun q => p.2 == q.2)) then 1 else 0, (nz.map (fun p => 2 ^ p.1)).sum, nz.length,
    match nz with
    | [] => 32
    | p :: _ => p.1].getD k 0

/-! ## Transfers -/

/-- The uniform conditions by number (R145): always, zero, not zero, negative, not negative, positive, not positive. -/
def uniHolds (k : Nat) (x : DWord) : Bool :=
  [true, x == 0, x != 0, decide (x.toInt < 0), decide (0 ≤ x.toInt), decide (0 < x.toInt), decide (x.toInt ≤ 0)].getD k false

/-- A transfer word: a thread that may execute it, whose target passes the checks of R140, goes to the target with the link
written by g; where a check fails it traps and writes nothing. -/
def Transfers (i : Instr) (regs : List Nat) (src : List Nat) (register landing : Bool) (target : Thread → DWord)
    (g : Thread → Thread) : Prop :=
  ∀ (s : State) (t : Thread) (c : Cast), Ready s t c regs →
    ∃ s' t', MayCharge s s' t t' src ∧
      (s'.checkTarget t' c (target t') register landing = .ok () → exec i s = .next (wentTo s' (g t') (target t'))) ∧
      (∀ x, s'.checkTarget t' c (target t') register landing = .trap x → exec i s = .next (s.trapAt s.focus t c x))

/-! ## Uniform words with an effect beyond their thread -/

/-- Uniform word i with the registers that it names and reads: every thread that may execute it completes it where f makes
a state and a thread of the state and its thread, and traps at the word where f traps. -/
def EffectWord (i : Instr) (e : Bool) (regs src : List Nat) (f : State → Thread → Cast → Res (State × Thread)) : Prop :=
  ∀ (s : State) (t : Thread) (c : Cast), Ready s t c regs →
    ∃ s' t', MayCharge s s' t t' src ∧
      (∀ z u, f s' t' c = .ok (z, u) → exec i s = .next (wentOnAt z s.focus u e 4)) ∧
      (∀ x, f s' t' c = .trap x → exec i s = .next (s.trapAt s.focus t c x))

/-- A per-thread accumulator word with the registers that it names and reads, the one that it will write, the tiles that it
names and the values that it keeps: where the tiles are granted it takes its place at the end of its core's matrix order,
counted on cue B, and its register is outstanding (R242, R263). -/
def AccumulatorWord (i : Instr) (e : Bool) (w : Word) (regs src dst tiles : List Nat) (ok : Thread → Prop)
    (vals : Thread → List DWord) : Prop :=
  ∀ (s : State) (t : Thread) (c : Cast), Ready s t c regs → t.cueFull t.cueB = false →
    (∀ d, tiles.find? (fun d => !c.grants d) = some d → exec i s = .next (s.trapAt s.focus t c (resv 11 d 0))) ∧
    ((∀ d ∈ tiles, c.grants d = true) → ok t →
    ∃ s' t', MayCharge s s' t t' src ∧
      let o := MatOp.thread s'.nextOp (castOf s.focus) s.focus w t.priv (s'.nowKey c.agent) t.cueB (vals t) []
      exec i s = .next (wentOnAt (s'.appendOp c.onCore o) s.focus (t'.issueOp s'.nextOp t.cueB dst [] false none 0) e 4))

/-- A cast-level word signs its convergence register q: the thread is held with the word as its key, its cue B counts it,
and the operation issues where the round is complete; the first signature after an operation opens the round. A thread that
no declared set of that kind names takes MISMATCH, and where the round has another key, every signer does (R222, R225,
R226). A signature of a thread that q still owes DIVERGE waits uncounted (R282). -/
def SigningWord (i : Instr) (e : Bool) (w : Word) (quartet : Bool) : Prop :=
  ∀ (s : State) (t : Thread) (c : Cast), Ready s t c [] → t.cueFull t.cueB = false →
    let ck := castOf s.focus
    let tid := tidOf s.focus
    let q := wQ w
    let r := c.qreg q
    let c1 := if r.state = .done then c.setQ q { r with state := .opened } else c
    let s1 := if r.state = .done then s.putC ck c1 else s
    let signed (z : State) : State :=
      z.putT s.focus { t.incCue t.cueB with held := some (.sign q ⟨w, []⟩ e s.tick) }
    let refused (code : Nat) : Prop := exec i s = .next (s.trapAt s.focus t c (mismatch code q))
    let key := s1.roundKey q (quartetOf ck quartet)
    (r.state = .empty ∨ r.declares tid = false → refused 3) ∧
    (r.state ≠ .empty → r.declares tid = true →
      (r.quartet ≠ quartet → refused 4) ∧
      (r.quartet = quartet → quartet = false → s.quartetElsewhere ck q = true → refused 2) ∧
      (r.quartet = quartet → (quartet = true ∨ s.quartetElsewhere ck q = false) →
        ((∃ o ∈ r.owed, o.1 = tid) → exec i s = .next ((signed s).tryIssue ck q)) ∧
        ((∀ o ∈ r.owed, o.1 ≠ tid) →
          (key = none ∨ key = some ⟨w, []⟩ → exec i s = .next ((signed s1).tryIssue ck q) ∧
            ((signed s1).roundComplete (quartetOf ck quartet) q = false → exec i s = .next (signed s1))) ∧
          (∀ k, key = some k → k ≠ ⟨w, []⟩ → exec i s =
            .next ((s1.trapSigners q (mismatch 0 q) (quartetOf ck quartet)).trapAt s.focus t c1 (mismatch 0 q))))))

/-- Engine word i with its word w, the registers that it names and those that it reads: where a check of R323 fails, the
thread traps; where all pass, the operation that it describes is queued, counted on cue B, or, with 32 operations outstanding
on the core, the thread is held for a slot (R322). -/
def EngineWord (i : Instr) (e : Bool) (w : Word) (regs src : List Nat) : Prop :=
  ∀ (s : State) (t : Thread) (c : Cast) (g : Gallery) (p : Prod), Ready s t c regs → t.cueFull t.cueB = false →
    s.gal c.gallery = some g → tfind s.prods c.prod = some p →
    ∃ s' t', MayCharge s s' t t' src ∧
      let o := t.engineOp s.focus c w
      let ranks := Nat.max (s'.members o).length 1
      let check := s'.engineCheck c.gallery g o c.spsize p.weightLoad ranks
      (∀ x, check = .trap x → exec i s = .next (s.trapAt s.focus t c x)) ∧
      (check = .ok () → ∀ o1 s1 o2, (if o.kind = 3 then s'.collCheck o c.onCore else .ok o) = .ok o1 →
        (if o.kind = 3 then s'.join o1 else (s', o1)) = (s1, o2) →
        ((s'.enginesOn c.onCore).length < 32 →
          exec i s = .next (wentOnAt
            { (s1.ptsAfter o2.agent (s1.nowKey c.agent)).putEng s1.nextOp
                { o2 with slot := s'.freeRecord (castOf s.focus), limit := o1.items ranks } with
              nextOp := s1.nextOp + 1 }
            s.focus { t'.incCue t'.cueB with held := none } e 4)) ∧
        (32 ≤ (s'.enginesOn c.onCore).length →
          exec i s = .next (s.putT s.focus { t with held := some (.slot w) })))

/-- A thread held for a slot at engine word w: with fewer than 32 operations outstanding on its core, its checks and its issue
are those of R323 and R322; with 32, it stays held. -/
def EngineSlotWord (e : Bool) (w : Word) : Prop :=
  ∀ (s : State) (tk : Nat) (t : Thread) (c : Cast) (g : Gallery) (p : Prod),
    s.thread tk = some t → s.cast (castOf tk) = some c → s.gal c.gallery = some g → tfind s.prods c.prod = some p →
    t.held = some (.slot w) → s.lag t = 0 → Unstepped t → t.cueFull t.cueB = false →
      let o := t.engineOp tk c w
      let ranks := Nat.max (s.members o).length 1
      let check := s.engineCheck c.gallery g o c.spsize p.weightLoad ranks
      (∀ x, check = .trap x → exec (.engineSlotFree tk) s = .next (s.trapAt tk t c x)) ∧
      (check = .ok () → ∀ o1 s1 o2, (if o.kind = 3 then s.collCheck o c.onCore else .ok o) = .ok o1 →
        (if o.kind = 3 then s.join o1 else (s, o1)) = (s1, o2) →
        ((s.enginesOn c.onCore).length < 32 →
          exec (.engineSlotFree tk) s = .next (wentOnAt
            { (s1.ptsAfter o2.agent (s1.nowKey c.agent)).putEng s1.nextOp
                { o2 with slot := s.freeRecord (castOf tk), limit := o1.items ranks } with
              nextOp := s1.nextOp + 1 }
            tk { t.incCue t.cueB with held := none } e 4)) ∧
        (32 ≤ (s.enginesOn c.onCore).length → exec (.engineSlotFree tk) s = .next (s.putT tk t)))

/-- z is s after each of some threads of a cast has taken a trap, resumed at the address that pc gives, where TVEC is enabled
and nothing else is due to it: no other thread has changed, and no memory (R193). -/
def EachEnters (s z : State) (c : Cast) (x : Nat → TrapInfo) (pc : Thread → DWord) (l : List (Nat × Thread)) : Prop :=
  z.mem = s.mem ∧ (∀ j, j ∉ l.map (·.1) → z.thread j = s.thread j) ∧
  ∀ p ∈ l, c.tvecEn = true → p.2.run = .member → p.2.dueHalt = false → p.2.dueSlice = false →
    (p.2.priv = .program ∨ pcBits (pc p.2) ≠ c.tvecBase) →
    ∃ u, z.thread p.1 = some u ∧ u.tcause = p.2.tcause ||| (1#23 <<< (x p.1).cause.num) ∧ u.tepc = pcBits (pc p.2) ∧
      u.tval = (x p.1).tval ∧ u.pc = c.tvecBase ∧ u.priv = .supervisor ∧ u.held = none ∧ u.v = p.2.v ∧ u.u = p.2.u ∧
      u.p = p.2.p
/-- The same, each at its own instruction (R217, R225). -/
def EachTraps (s z : State) (c : Cast) (x : Nat → TrapInfo) (l : List (Nat × Thread)) : Prop :=
  EachEnters s z c x (fun t => t.instrPc) l

/-! ## Scenes and the order of service -/

/-- The word x may stand after the prefix p: x is vector-eligible, of a code that the opcode map assigns, and every field of p
that x does not allow holds its default (R32, R33). -/
def Takes (p x : Word) : Prop :=
  let major := fld x.toNat 24 6
  let fn := fld x.toNat 0 6
  let still : Prop := fld p.toNat 16 3 = 0
  let same : Prop := fld p.toNat 10 6 = fld x.toNat 18 6
  let sat : Prop := p.getLsbD 9 = true
  x.msb = false ∧ (∀ e, decodeWord x.toNat 0 = .error e → e ≠ .unusedMajor ∧ e ≠ .unusedMinor) ∧
  ((major = 0x01 ∧ fn ≤ 18 ∧ still ∧ same ∧ (sat → fn = 0 ∨ fn = 1 ∨ fn = 4 ∨ fn = 5)) ∨
   (major = 0x08 ∧ still ∧ (same ∨ fn = 3 ∨ fn = 8 ∨ fn = 9 ∨ fn = 10) ∧ (sat → fn = 0 ∨ fn = 3 ∨ fn = 10)) ∨
   (major = 0x10 ∧ (same ∨ fn = 3) ∧ ¬sat) ∨ (major = 0x12 ∧ (same ∨ fn = 2 ∨ fn = 10) ∧ ¬sat) ∨
   (major = 0x18 ∧ (same ∨ fn = 3) ∧ ¬sat ∧ p.getLsbD 10 = false) ∨ (major = 0x1C ∧ same ∧ ¬sat) ∨
   (major = 0x1D ∧ same ∧ (sat → fn = 4 ∨ fn = 5 ∨ 8 ≤ fn)) ∨ (major = 0x34 ∧ still ∧ same ∧ ¬sat))
/-- The prefix that a word is for the word after it. -/
def prefixOf (x : Word) : Option Word := if x.msb = false ∧ fld x.toNat 24 6 = 0x3F then some x else none
/-- The words that an instruction of a scene takes: MOVL has a literal (R35). -/
def wordsOf (x : Word) : Nat := if x.msb = true ∧ fld x.toNat 24 6 = 0x3F then 2 else 1
/-- The word x may stand in a scene after the prefix pre, if any (R27). -/
def Legal (pre : Option Word) (x : Word) : Prop :=
  (∀ p, pre = some p → Takes p x) ∧ (∃ i, decodeWord x.toNat 0 = .ok i) ∧ isHeader x = false
/-- From place a on, after the prefix pre, the words of w at the places given are legal instructions of which none ends the
scene; place p follows, after the prefix last. -/
def Runs (w : Nat → Word) : Option Word → Nat → List Nat → Nat → Option Word → Prop
  | pre, a, [], p, last => p = a ∧ last = pre
  | pre, a, q :: rest, p, last =>
    q = a ∧ Legal pre (w q) ∧ (w q).getLsbD 30 = false ∧ Runs w (prefixOf (w q)) (q + wordsOf (w q)) rest p last
/-- What the fetch of a scene finds whose words, from the header's on, are w, its counted words from place a on, where the words
ps are legal, p follows after the prefix last, and so far no word ends it (R27). -/
def FindsScene (w : Nat → Word) (a : Nat) (ps : List Nat) (p : Nat) (last : Option Word) (r : SceneRes) : Prop :=
  let fits : Prop := ∀ y, last = some y → Takes y (w p)
  (p - a ≤ 24 → ¬fits → r = .illegal (p - 1)) ∧
  (p - a = 24 → fits → r = .illegal p) ∧
  (p - a < 24 → fits → ¬Legal last (w p) → r = .illegal p) ∧
  (Legal last (w p) → wordsOf (w p) = 2 → p - a = 23 → r = .illegal (p + 1)) ∧
  (Legal last (w p) → p + wordsOf (w p) - a ≤ 24 → (w p).getLsbD 30 = true →
    r = .ok ((List.range (p + wordsOf (w p))).map w) (0 :: ps ++ [p]))
/-- Words that must end their scene (R26). -/
def endsItsScene : Instr → Bool
  | .bra .. | .jmpi .. | .jtab .. | .call .. | .calli .. | .ret .. | .ubra .. | .ucall .. | .uret .. | .reform | .exit
  | .waitAny .. | .waitAll .. | .rett => true
  | _ => false

/-- A slot that may be drawn, or a chorus that waits for a lane, with what orders it: effective priority, its oldest filing, its
launch's place among the older ones, whether it is a sub-chorus, and slot number or target address (R67, R68, R356). -/
def Ranked (s : State) (k ck since : Nat) (ms : List Nat) (age : Nat) (sub : Bool) (low : Nat) (r : Rank) : Prop :=
  ms ≠ [] ∧ ∃ c, s.cast ck = some c ∧
    r = ⟨Nat.min 7 (c.prio + (s.clock (tileOf k) - since) / (4 * (s.core k).wingage.toNat)), age, s.launchPlace c.prod, sub, low⟩
/-- The first is served before the second. -/
def ServedFirst (a b : Rank) : Prop :=
  b.eff < a.eff ∨ (a.eff = b.eff ∧ (a.age < b.age ∨ (a.age = b.age ∧ (a.launch < b.launch ∨ (a.launch = b.launch ∧
    ((a.sub = false ∧ b.sub = true) ∨ (a.sub = b.sub ∧ a.low < b.low)))))))
/-- Slot n of core k may be drawn, with its rank. -/
def MayDraw (s : State) (k n : Nat) (x : Slot) (r : Rank) : Prop :=
  ∃ d c, x.since = some d ∧ s.cast x.ck = some c ∧ c.stop = none ∧ Ranked s k x.ck d x.tids (s.oldest x.ck x.tids) false n r
/-- Chorus n of core k waits for a lane, with its rank. -/
def WaitsForLane (s : State) (k : Nat) (x : Chorus) (r : Rank) : Prop :=
  x.phase = .lane ∧ x.lane = none ∧
  (∃ m ∈ x.members, ∃ t, s.thread (thrKey x.ck m) = some t ∧ t.held = none ∧ t.pc = x.pc) ∧
  (∃ c, s.cast x.ck = some c ∧ (c.stop = none ∨ ∃ m ∈ x.members, ∃ t, s.thread (thrKey x.ck m) = some t ∧ t.inScene = true)) ∧
  Ranked s k x.ck x.since x.members x.age x.sub (if x.sub then x.pc.toNat else x.slot) r

/-- Hardware reaches the n bytes from address a on at the n cells from base on, whatever those bytes hold; the leaves are
marked already, so that the walks change no memory. -/
def ReachedAt (s : State) (gi a n base : Nat) : Prop :=
  ∀ (z : State) (g h : Gallery) (agent i : Nat), s.gal gi = some g → z.gal gi = some { g with snap := h.snap } →
    (∀ x ∈ z.bad, x ∈ s.bad) → (∀ y, Outside y base n → byteAt z.mem y = byteAt s.mem y) → i < n →
    ∃ w l, z.reach agent gi .supervisor (BitVec.ofNat 64 (a + i)) 1 .write = .ok (w, l) ∧ l.cell = base + i ∧ w.mem = z.mem

/-- The block of 640 bytes of a thread in an image: where its registers, predicates, cues and trap registers stand (R367). -/
def SavedThread (t : Thread) (b : List Byte) : Prop :=
  (∀ j, j < 64 → recNat b (4 * j) 4 = (t.lane j).toNat) ∧ (∀ j, j < 32 → recNat b (0x100 + 8 * j) 8 = (t.uni j).toNat) ∧
  recNat b 0x200 8 = t.pc.toNat ∧ recNat b 0x208 8 = t.pidx.toNat ∧ recNat b 0x210 8 = t.tcause.toNat ∧
  recNat b 0x218 8 = t.tepc.toNat ∧ recNat b 0x220 8 = t.tval.toNat ∧ recNat b 0x228 8 = t.tstat.bits.toNat ∧
  recNat b 0x230 8 = t.tscratch.toNat ∧ recNat b 0x238 8 = t.lodc.toNat ∧ recNat b 0x240 2 = 2 ^ 15 + t.p.toNat ∧
  (∀ i, i < 12 → recNat b 0x242 6 / 16 ^ i % 8 = t.cue i) ∧ recNat b 0x248 1 = t.fflags.toNat ∧
  recNat b 0x249 1 = t.frm.toNat ∧ recNat b 0x24A 1 = t.step.toNat ∧ (recNat b 0x24B 1 / 8 % 2 = 1 ↔ t.priv = .supervisor)

/-- A thread at rest as an image holds it: its addresses and its rounding mode are ones that its registers can hold, and no
request or suppressed check of it waits. -/
structure AtRest (t : Thread) : Prop where
  pc : pcBits t.pc = t.pc
  tepc : pcBits t.tepc = t.tepc
  mode : t.frm ≠ 0 ∧ t.frm.toNat ≤ 5
  cues : ∀ i, i < 12 → t.cue i < 8
  skip : t.tstat.skip = true → t.priv = .supervisor
  free : t.suppress = false ∧ t.haltDue = false ∧ t.sliceDue = false

/-- u has taken up the registers, predicates, cues and trap registers of t. -/
structure TakesUp (t u : Thread) : Prop where
  lane : ∀ j, j < 64 → u.lane j = t.lane j
  uni : ∀ j, j < 32 → u.uni j = t.uni j
  preds : u.p = t.p
  cues : ∀ i, i < 12 → u.cue i = t.cue i
  places : u.pc = t.pc ∧ u.pidx = t.pidx ∧ u.lodc = t.lodc
  traps : u.tcause = t.tcause ∧ u.tepc = t.tepc ∧ u.tval = t.tval ∧ u.tstat = t.tstat ∧ u.tscratch = t.tscratch
  modes : u.fflags = t.fflags ∧ u.frm = t.frm ∧ u.step = t.step ∧ u.priv = t.priv

/-- A header that CTXLOAD refuses with code 1 before it knows the cast (R370). -/
def HeaderFault (h : List Byte) : Prop :=
  let size := recNat h 8 8
  recNat h 0 4 ≠ 0x474D_4943 ∨ recNat h 4 2 ≠ 1 ∨ 4 ≤ recNat h 6 2 ∨ recNat h 0x1C 4 ≠ 0 ∨ recNat h 0x28 8 ≠ 0 ∨
  (∃ i, (0x50 ≤ i ∧ i < 0x70 ∨ 0x78 ≤ i) ∧ h.getD i 0 ≠ 0) ∨ size % 4096 ≠ 0 ∨ size < 0xE000 ∨ 0x38_A000 < size

/-- A progress word x that CTXLOAD refuses for the operation of a word, whose left operand has K columns (R252, R278, R283,
R284). -/
def ProgressFault (w : Word) (k x : Nat) : Prop :=
  let major := w.toNat / 2 ^ 24 % 2 ^ 6
  let fp : FVal := fp32.value (x / 2 ^ 28 % 2 ^ 32)
  (major = 0x11 ∨ major = 0x12 → x / 2 ^ 60 % 2 ^ 4 ≠ (if major = 0x11 then 3 else 4) ∨ x / 2 ^ 52 % 2 ^ 8 ≠ 0 ∨ x % 2 ^ 40 ≠ 0 ∨
    k / 8 ≤ x / 2 ^ 40 % 2 ^ 12) ∧
  (major = 0x13 → x / 2 ^ 60 % 2 ^ 4 ≠ 5 ∨ x % 2 ^ 54 ≠ 0 ∨ w.toNat / 2 ^ 8 % 8 ≤ x / 2 ^ 57 % 8) ∧
  (major = 0x14 → x / 2 ^ 60 % 2 ^ 4 ≠ 6 ∨ x % 2 ^ 15 ≠ 0 ∨ w.toNat % 2 ^ 6 + 1 ≤ x / 2 ^ 21 % 2 ^ 6 ∨
    w.toNat / 2 ^ 9 % 4 < x / 2 ^ 18 % 8 ∨ (x / 2 ^ 18 % 8 = 0 ∧ x / 2 ^ 15 % 8 ≠ 0) ∨ fp.isNan = true ∨ fp = .inf true ∨
    fp = .inf false)

/-- An engine record of 64 bytes that CTXLOAD refuses, in a cast of ntid threads; P is the size of its communicator (R326,
R433, R438). -/
def EngineFault (b : List Byte) (ntid P : Nat) : Prop :=
  let ctl := recNat b 0x16 1
  let w := recNat b 0x10 4
  let x := recNat b 0 8
  let sb := recNat b 0x30 8
  let copy : Prop := w / 2 ^ 24 % 2 ^ 8 = 0x9C ∧ w % 2 ^ 9 = 0
  let indexed : Prop := w / 2 ^ 24 % 2 ^ 8 = 0x9C ∧ (w % 2 ^ 9 = 1 ∨ w % 2 ^ 9 = 2)
  let coll : Prop := w / 2 ^ 24 % 2 ^ 8 = 0x9E ∧ w % 2 ^ 9 = 0
  let done := x / 2 ^ 28 % 2 ^ 32
  let op := sb / 2 ^ 44 % 2 ^ 4
  let len := if op = 3 then P * (sb % 2 ^ 28) else if op = 5 then sb % 2 ^ 28 / P else sb % 2 ^ 28
  (ctl % 2 = 0 ∧ ∃ y ∈ b, y ≠ 0) ∨
  (ctl % 2 = 1 ∧ (¬(copy ∨ indexed ∨ coll) ∨ ctl / 8 % 2 = 1 ∨ (12 ≤ ctl / 16 % 16 ∧ ctl / 16 % 16 ≤ 14) ∨
    recNat b 0x17 1 ≠ 0 ∨ ntid ≤ recNat b 0x14 2 ∨ (indexed ∧ w / 2 ^ 14 % 2 ^ 5 = 31) ∨ (¬indexed ∧ recNat b 0x28 8 ≠ 0) ∨
    (if coll then 2 ^ 32 ≤ recNat b 8 8 else recNat b 8 8 ≠ 0) ∨
    (ctl / 2 % 2 = 0 ∧ (recNat b 0x38 8 ≠ 0 ∨
      (copy ∧ (x / 2 ^ 60 % 2 ^ 4 ≠ 7 ∨ x % 2 ^ 28 ≠ 0 ∨ done % 128 ≠ 0 ∨ sb % 2 ^ 32 ≤ done ∨
        sb / 2 ^ 32 % 4 ≠ 0 ∧ done ≠ 0)) ∨
      (indexed ∧ (x / 2 ^ 60 % 2 ^ 4 ≠ 7 + w % 2 ^ 9 ∨ x % 2 ^ 36 ≠ 0 ∨ sb % 2 ^ 24 ≤ x / 2 ^ 36 % 2 ^ 24)) ∨
      (coll ∧ (x / 2 ^ 60 % 2 ^ 4 ≠ 10 ∨ x % 2 ^ 24 ≠ 0 ∨ len ≤ x / 2 ^ 24 % 2 ^ 36 * 32))))))

/-! ## The refresh calendar -/

/-- A window of a calendar starts at tick x: x is one of the starts of a segment, and no later segment has begun (R336, R337). -/
def WindowAt (segs : List Seg) (x : Nat) : Prop :=
  ∃ xs g ys, segs = xs ++ g :: ys ∧ g.start ≤ x ∧ g.base ≤ x ∧ (x - g.base) % g.period = 0 ∧ ∀ h ∈ ys, x < h.start

/-! ## Placement and admission -/

/-- Core k takes one more cast of node n, which has p's record: it is whole, holds no other cast of the node, and its split, or
the node's own on an empty core, has room for registers, scratchpad, threads and wing slots; grants are disjoint (R13, R209,
R210, R353 steps 1 and 2). -/
def CoreTakes (s : State) (k n : Nat) (p : Prod) : Prop :=
  let cs := (s.castsOn k).map (·.2)
  let split := if cs = [] then (recNat p.bytes 0x10 1, recNat p.bytes 0x11 1) else ((s.core k).splitR, (s.core k).splitS)
  let up (x : Nat) : Nat := (x + 4095) / 4096 * 4096
  regionOf (clusterOf k) ∈ s.dev.good ∧ (s.core k).routerOnly = false ∧ (∀ c ∈ cs, c.prod ≠ n) ∧
  (cs.map (fun c => up (c.ntid * (4 * c.vbud + 8 * c.sbud)))).sum +
    up (recNat p.bytes 0x08 2 * (4 * recNat p.bytes 0x0E 1 + 8 * recNat p.bytes 0x0F 1)) ≤ split.1 * 65536 ∧
  (cs.map (·.spsize)).sum + up (recNat p.bytes 0x14 4) ≤ split.2 * 65536 ∧
  (cs.map (·.ntid)).sum + recNat p.bytes 0x08 2 ≤ 2048 ∧
  (cs.map (fun c => c.ntid / 32)).sum + recNat p.bytes 0x08 2 / 32 ≤ 64 ∧
  (∀ c ∈ cs, c.amask &&& BitVec.ofNat 8 (recNat p.bytes 0x12 1) = 0 ∧ ¬(c.cgrant = true ∧ recNat p.bytes 0x13 1 % 2 = 1))

/-- A cluster takes one more cast of node n: energy within the budget less what the floors of the other nodes still hold back,
current, and refresh charge (R353 steps 3 to 5, R354, R358). -/
def ClusterTakes (s : State) (cl n : Nat) (p : Prod) : Prop :=
  let cs := (s.castsIn cl).map (·.2)
  let others := s.prods.filter (fun x => x.2.gallery == p.gallery && x.1 != n && !x.2.isCopy)
  let res := (others.map (fun x => floorEighths x.2.floorClass * 7000 - ((cs.filter (fun c => c.prod == x.1)).map (·.energy)).sum)).sum
  let share (b : Nat) : Int := if b = 0 then 16 else if b = 1 then 32 else 64
  let c := s.cluster cl
  let micro := c.temp * 1000000 + thermalCoef cl * (recNat p.bytes 0x58 4 + c.spent)
  let charge := share (if micro < 85000000 then 0 else if micro < 95000000 then 1 else 2) - share c.band + recNat p.bytes 0x5E 2
  (cs.map (·.energy)).sum + recNat p.bytes 0x58 4 + res ≤ 56000 ∧ (cs.map (·.current)).sum + recNat p.bytes 0x5C 2 ≤ 24000 ∧
  share c.band + (cs.map (·.charge)).sum + charge ≤ 1000 ∧ s.chargeFor p cl = charge

/-- The casts given, of node n, that have not ended are placed in turn on a cluster, each on its lowest core that takes it, an
ungated one first; z is the state after (R352). -/
def Placed (cl n : Nat) (p : Prod) (waited : Nat) : List (Nat × Nat) → State → State → Prop
  | [], s, z => z = s
  | (ck, g) :: rest, s, z =>
    (s.castEnded ck = true → Placed cl n p waited rest s z) ∧
    (s.castEnded ck = false → ClusterTakes s cl n p ∧ ∃ k, k / 4 = cl ∧ CoreTakes s k n p ∧
      (∀ j, j / 4 = cl → CoreTakes s j n p → ((s.core k).gated = true → (s.core j).gated = true) ∧
        ((s.core j).gated = (s.core k).gated → k ≤ j)) ∧
      Placed cl n p waited rest (s.placeCast ck g k n p waited) z)

/-- A thread as admission starts it: thread i of cast g of a launch (R59, R61, R344). -/
def Starts (p : Prod) (g i : Nat) (u : Thread) : Prop :=
  (∀ j, u.lane j = 0) ∧ u.uni 0 = p.recAddr ||| 0x8000_0000_0000_0000 ∧
  (∀ j, j < 7 → u.uni (j + 1) = BitVec.ofNat 64 (recNat p.bytes (0x20 + 8 * j) 8)) ∧ (∀ j, 8 ≤ j → u.uni j = 0) ∧
  u.p = 0 ∧ (∀ j, u.cue j = 0) ∧ u.fflags = 0 ∧ u.frm = 1 ∧ u.lodc = 0 ∧ u.pidx = 0 ∧ u.tcause = 0 ∧ u.priv = .program ∧
  u.run = .filed ∧ u.pc = BitVec.ofNat 64 (recNat p.bytes 0x00 8) ∧ u.outst = [] ∧ u.held = none ∧
  u.ident.tid = BitVec.ofNat 11 i ∧ u.ident.ntid = BitVec.ofNat 12 (recNat p.bytes 0x08 2) ∧
  u.ident.castid = BitVec.ofNat 2 (g % recNat p.bytes 0x0A 1) ∧ u.ident.seat = BitVec.ofNat 5 (i % 32) ∧
  u.ident.ensid = BitVec.ofNat 6 (g / recNat p.bytes 0x0A 1 % recNat p.bytes 0x0B 1) ∧
  u.ident.compid = BitVec.ofNat 6 (g / (recNat p.bytes 0x0A 1 * recNat p.bytes 0x0B 1))

/-- What refuses a launch record with a code of R348's table, in the record's fields; kernel records alone have the codes 1,
2, 4 and 5, and copy records alone the code 8. -/
def RecordFault (s : State) (gi : Nat) (g : Gallery) (pr : Priv) (bs : List Byte) (code : Nat) : Prop :=
  let f (off n : Nat) : Nat := recNat bs off n
  let kernel : Prop := f 0x0D 1 / 16 % 2 = 0
  let x := f 0x30 8
  let live := s.prods.filter (fun p => p.2.gallery == gi)
  (code = 1 ∧ kernel ∧ ¬((∃ k, f 0x08 2 = 32 * k ∧ 1 ≤ k ∧ k ≤ 64) ∧ 1 ≤ f 0x0A 1 ∧ f 0x0A 1 ≤ 4 ∧ 1 ≤ f 0x0B 1 ∧
    f 0x0B 1 ≤ 40 ∧ 1 ≤ f 0x0C 1 ∧ f 0x0C 1 ≤ g.tiles.length)) ∨
  (code = 2 ∧ kernel ∧ (64 < f 0x0E 1 ∨ 32 < f 0x0F 1 ∨ 34 < f 0x10 1 + f 0x11 1 ∨
    f 0x10 1 * 0x1_0000 < f 0x08 2 * (4 * f 0x0E 1 + 8 * f 0x0F 1) ∨ f 0x11 1 * 0x1_0000 < f 0x14 4)) ∨
  (code = 3 ∧ (f 0x13 1 / 2 % 2 ^ 7 ≠ 0 ∨ f 0x0D 1 / 2 ^ 5 % 2 ^ 3 ≠ 0 ∨ f 0x61 3 ≠ 0 ∨ f 0x7F 1 ≠ 0 ∨
    kernel ∧ (f 0x00 8 / 2 ^ 56 % 2 ^ 8 ≠ 0 ∨ f 0x00 8 % 4 ≠ 0) ∨ f 0x68 8 = 0 ∨ f 0x68 8 % 4096 ≠ 0 ∨
    f 0x70 8 % 8 ≠ 0 ∨ f 0x78 2 ≠ 0 ∧ f 0x70 8 = 0)) ∨
  (code = 4 ∧ kernel ∧ (56000 < f 0x58 4 ∨ 24000 < f 0x5C 2 ∨ 1000 < f 0x5E 2 ∨ 4 < f 0x60 1)) ∨
  (code = 5 ∧ kernel ∧ 8 < (live.map (fun p => if p.2.isCopy then 0 else floorEighths p.2.floorClass)).foldl (· + ·) 0 +
    floorEighths (f 0x60 1)) ∨
  (code = 6 ∧ 1 ≤ f 0x7E 1 ∧ f 0x7E 1 ≤ 4) ∨
  (code = 7 ∧ f 0x0D 1 / 2 ^ 3 % 2 = 1 ∧ (pr = .program ∨ live ≠ [])) ∨
  (code = 8 ∧ ¬kernel ∧ (x / 2 ^ 40 % 2 ^ 24 ≠ 0 ∨ x / 2 ^ 34 % 4 ≠ 0 ∨ x / 2 ^ 38 % 4 = 3 ∨ x / 2 ^ 36 % 4 = 3 ∨
    x % 2 ^ 32 % 16 ≠ 0 ∨ x % 2 ^ 32 < 16 ∨ 2 ^ 30 < x % 2 ^ 32 ∨
    x / 2 ^ 32 % 4 ≠ 0 ∧ (x / 2 ^ 32 % 4 = 3 ∨ g.protect = false ∨ x / 2 ^ 36 % 4 ≠ 0 ∨ x / 2 ^ 38 % 4 ≠ 0 ∨
      x % 2 ^ 32 ≠ 0x1_1040)))

/-! ## What an instruction leaves alone -/

/-- Every byte of memory reads as before. -/
def SameMemory (s z : State) : Prop := ∀ a, byteAt z.mem a = byteAt s.mem a

/-- Every byte outside n cells from a on reads as before. -/
def SameOutside (s z : State) (a n : Nat) : Prop := ∀ y, Outside y a n → byteAt z.mem y = byteAt s.mem y

/-- Every thread but one is unchanged. -/
def SameOthers (s z : State) (tk : Nat) : Prop := ∀ k, k ≠ tk → z.thread k = s.thread k

/-- What a word of one thread that touches registers alone may write: lane registers, uniform registers, whether the
predicates, and whether FFLAGS. -/
structure RegWrites where
  lanes : List Nat
  unis : List Nat
  preds : Bool
  flags : Bool
  deriving DecidableEq, Repr

/-- The words of one thread that act on its registers alone, with what each writes. -/
def registerWrites : Instr → Option RegWrites
  | .add _ d .. | .sub _ d .. | .addc _ d .. | .subb _ d .. | .min _ d .. | .max _ d .. | .minu _ d .. | .maxu _ d ..
  | .abs _ d .. | .and _ d .. | .or _ d .. | .xor _ d .. | .andn _ d .. | .shl _ d .. | .shr _ d .. | .sar _ d ..
  | .rotl _ d .. | .popc _ d .. | .clz _ d .. | .ctz _ d .. | .brev _ d .. | .bswap _ d .. | .bfx _ d .. | .bfi _ d ..
  | .addi _ d .. | .andi _ d .. | .ori _ d .. | .xori _ d .. | .shli _ d .. | .shri _ d .. | .sari _ d .. | .movi _ d ..
  | .movhi _ d .. | .mullo _ d .. | .mulhi _ d .. | .mulhiu _ d .. | .mad _ d .. | .div _ d .. | .divu _ d ..
  | .rem _ d .. | .remu _ d .. | .dot4s _ d .. | .dot4u _ d .. | .dot2s _ d .. | .pmovToV _ d | .mov _ d .. | .sel _ d ..
  | .s2vLo _ d .. | .s2vHi _ d .. => some ⟨[d.toNat], [], false, false⟩
  | .add64 _ d .. | .sub64 _ d .. => some ⟨[d.toNat, d.toNat + 1], [], false, false⟩
  | .cmp .. | .cmpi .. | .plop .. | .pmovToP .. => some ⟨[], [], true, false⟩
  | .fadd _ d .. | .fsub _ d .. | .fmul _ d .. | .ffma _ d .. | .fmin _ d .. | .fmax _ d .. | .fclass _ d .. | .frnd _ d ..
  | .pkadd _ d .. | .pkmul _ d .. | .pkfma _ d .. | .pkaddBf _ d .. | .pkmulBf _ d .. | .pkfmaBf _ d .. | .frcp _ d ..
  | .frsq _ d .. | .fsqrt _ d .. | .fdiv _ d .. | .fexp2 _ d .. | .flog2 _ d .. | .fsinpi _ d .. | .fcospi _ d ..
  | .ftanh _ d .. | .qntTf8 _ d .. | .qntTf6 _ d .. | .dqntTf8 _ d .. | .dqntTf6 _ d .. =>
    some ⟨[d.toNat], [], false, true⟩
  | .dadd _ d .. | .dsub _ d .. | .dmul _ d .. | .dfma _ d .. | .dmin _ d .. | .dmax _ d .. | .drcp _ d .. | .drsq _ d ..
  | .ddiv _ d .. | .cvt _ d .. => some ⟨[d.toNat, d.toNat + 1], [], false, true⟩
  | .fcmp .. | .dcmp .. => some ⟨[], [], true, true⟩
  | .v2sLo _ d .. | .v2sHi _ d .. | .v2sPair _ d .. => some ⟨[], [d.toNat], false, false⟩
  | .uadd _ d .. | .usub _ d .. | .umul _ d .. | .uand _ d .. | .uor _ d .. | .uxor _ d .. | .ushl _ d .. | .ushr _ d ..
  | .usar _ d .. | .umov _ d .. | .uaddi _ d .. | .movl _ d .. | .movlHi _ d .. | .csrr _ _ d | .rdtime _ d
  | .qread _ d .. => some ⟨[], [d.toNat], false, false⟩
  | .pfetch .. | .nop _ | .pfx .. => some ⟨[], [], false, false⟩
  | _ => none

/-- The word is a prefix, which waits for the word after it (R31). -/
def isPrefix : Instr → Bool
  | .pfx .. => true
  | _ => false

/-- Registers that a word does not write, the rounding mode, cues, trap registers, identity, privilege and the operations
under way are unchanged. -/
structure KeepsThread (t u : Thread) (w : RegWrites) : Prop where
  lane : ∀ n, n ∉ w.lanes → u.lane n = t.lane n
  uni : ∀ n, n ∉ w.unis → u.uni n = t.uni n
  preds : w.preds = false → u.p = t.p
  fflags : w.flags = false → u.fflags = t.fflags
  frm : u.frm = t.frm
  cues : u.k = t.k
  traps : u.tcause = t.tcause ∧ u.tepc = t.tepc ∧ u.tval = t.tval ∧ u.tstat = t.tstat ∧ u.tscratch = t.tscratch
  ident : u.ident = t.ident
  pidx : u.pidx = t.pidx
  priv : u.priv = t.priv
  outst : u.outst = t.outst

/-- Everything of the machine but the threads and the counter of free values is unchanged. -/
def SameMachine (s z : State) : Prop := z = { s with threads := z.threads, free := z.free }

end Sys2Proof.Safety
end

