-- ==== Sys2Proof/Certificates/Slice0/Obligations.lean ====
section
/-! DEFINITION. The statements for the provers, in the terms of Safety.lean. Each names the rules of the specification that
it formalises; where it rests on a reading of the model's own, it names the log entry. -/
open Sys2Proof Sys2Proof.Machine Sys2Proof.Safety

/-! ## Lane words -/

/-- R120, R123, R125, R96: sums and differences modulo 2^w, clamped once where the prefix saturates, carry and borrow
out; minimum, maximum, absolute value; bitwise words, the sign-extended immediates, and the two words that load a constant. -/
def Obligations.LaneArithmeticWords : Prop :=
  (∀ (e : Bool) (d a b : BitVec 6),
    LaneTwo (.add e d a b) e d a b (fun t x y =>
      if t.sat then BitVec.ofInt 32 (clampInt (x.toInt + y.toInt) (-(2 ^ 31)) (2 ^ 31 - 1))
      else BitVec.ofNat 32 (x.toNat + y.toNat)) ∧
    LaneTwo (.sub e d a b) e d a b (fun t x y =>
      BitVec.ofInt 32 (if t.sat then clampInt (x.toInt - y.toInt) (-(2 ^ 31)) (2 ^ 31 - 1) else x.toInt - y.toInt)) ∧
    LaneTwo (.addc e d a b) e d a b (fun _ x y => if 2 ^ 32 ≤ x.toNat + y.toNat then 1 else 0) ∧
    LaneTwo (.subb e d a b) e d a b (fun _ x y => if x.toNat < y.toNat then 1 else 0) ∧
    LanePairs (.add64 e d a b) e d a b (fun t x y =>
      if t.sat then BitVec.ofInt 64 (clampInt (x.toInt + y.toInt) (-(2 ^ 63)) (2 ^ 63 - 1))
      else BitVec.ofNat 64 (x.toNat + y.toNat)) ∧
    LanePairs (.sub64 e d a b) e d a b (fun t x y =>
      BitVec.ofInt 64 (if t.sat then clampInt (x.toInt - y.toInt) (-(2 ^ 63)) (2 ^ 63 - 1) else x.toInt - y.toInt))) ∧
  (∀ (e : Bool) (d a b : BitVec 6),
    LaneTwo (.min e d a b) e d a b (fun _ x y => BitVec.ofInt 32 (if x.toInt ≤ y.toInt then x.toInt else y.toInt)) ∧
    LaneTwo (.max e d a b) e d a b (fun _ x y => BitVec.ofInt 32 (if x.toInt ≤ y.toInt then y.toInt else x.toInt)) ∧
    LaneTwo (.minu e d a b) e d a b (fun _ x y => BitVec.ofNat 32 (Nat.min x.toNat y.toNat)) ∧
    LaneTwo (.maxu e d a b) e d a b (fun _ x y => BitVec.ofNat 32 (Nat.max x.toNat y.toNat)) ∧
    LaneOne (.abs e d a) e d a (fun x => BitVec.ofNat 32 x.toInt.natAbs)) ∧
  (∀ (e : Bool) (d a b : BitVec 6) (i : BitVec 12) (j : BitVec 17),
    LaneTwo (.and e d a b) e d a b (fun _ x y => x &&& y) ∧
    LaneTwo (.or e d a b) e d a b (fun _ x y => x ||| y) ∧
    LaneTwo (.xor e d a b) e d a b (fun _ x y => x ^^^ y) ∧
    LaneTwo (.andn e d a b) e d a b (fun _ x y => x &&& ~~~y) ∧
    LaneOne (.addi e d a i) e d a (fun x => BitVec.ofInt 32 (x.toInt + i.toInt)) ∧
    LaneOne (.andi e d a i) e d a (fun x => x &&& BitVec.ofInt 32 i.toInt) ∧
    LaneOne (.ori e d a i) e d a (fun x => x ||| BitVec.ofInt 32 i.toInt) ∧
    LaneOne (.xori e d a i) e d a (fun x => x ^^^ BitVec.ofInt 32 i.toInt) ∧
    LaneWord (.movi e d j) e [d.toNat] (fun _ => []) (fun t => t.setLane d.toNat (BitVec.ofInt 32 j.toInt)) ∧
    LaneWord (.movhi e d j) e [d.toNat] (fun _ => [])
      (fun t => t.setLane d.toNat (BitVec.ofNat 32 (j.toNat * 2 ^ 15 + (t.lane d.toNat).toNat % 2 ^ 15))))

/-- R120 to R122, R124: shifts by the whole of vb or by a count, the rotation by its low five bits; counts of bits,
reversals, and bit fields with their descriptor in vb. -/
def Obligations.LaneShiftsAndBitFields : Prop :=
  (∀ (e : Bool) (d a b : BitVec 6) (n : BitVec 5),
    LaneTwo (.shl e d a b) e d a b (fun _ x y => if 32 ≤ y.toNat then 0 else BitVec.ofNat 32 (x.toNat * 2 ^ y.toNat)) ∧
    LaneTwo (.shr e d a b) e d a b (fun _ x y => if 32 ≤ y.toNat then 0 else BitVec.ofNat 32 (x.toNat / 2 ^ y.toNat)) ∧
    LaneTwo (.sar e d a b) e d a b (fun _ x y =>
      if 32 ≤ y.toNat then (if x.toInt < 0 then 0xFFFF_FFFF else 0) else BitVec.ofInt 32 (x.toInt / 2 ^ y.toNat)) ∧
    LaneTwo (.rotl e d a b) e d a b (fun _ x y => x.rotateLeft (y.toNat % 32)) ∧
    LaneOne (.shli e d a n) e d a (fun x => BitVec.ofNat 32 (x.toNat * 2 ^ n.toNat)) ∧
    LaneOne (.shri e d a n) e d a (fun x => BitVec.ofNat 32 (x.toNat / 2 ^ n.toNat)) ∧
    LaneOne (.sari e d a n) e d a (fun x => BitVec.ofInt 32 (x.toInt / 2 ^ n.toNat))) ∧
  (∀ (e : Bool) (d a b : BitVec 6),
    LaneOne (.popc e d a) e d a (fun x => BitVec.ofNat 32 ((List.range 32).filter (fun i => x.getLsbD i)).length) ∧
    LaneOne (.clz e d a) e d a (fun x => BitVec.ofNat 32 ((List.range 32).filter (fun i => decide (x.toNat < 2 ^ i))).length) ∧
    LaneOne (.ctz e d a) e d a
      (fun x => BitVec.ofNat 32 ((List.range 32).filter (fun i => x.toNat % 2 ^ (i + 1) == 0)).length) ∧
    LaneOne (.brev e d a) e d a (fun x => x.reverse) ∧
    LaneOne (.bswap e d a) e d a (fun x => BitVec.ofNat 32 (leNat (leBytes 4 x.toNat).reverse)) ∧
    LaneTwo (.bfx e d a b) e d a b (fun _ x y =>
      let pos := y.toNat % 32
      let len := Nat.min (y.toNat / 2 ^ 8 % 64) 32
      let f := x.toNat / 2 ^ pos % 2 ^ len
      if y.getLsbD 15 = true ∧ 0 < len ∧ 2 ^ (len - 1) ≤ f then BitVec.ofInt 32 ((f : Int) - 2 ^ len)
      else BitVec.ofNat 32 f) ∧
    LaneWord (.bfi e d a b) e [d.toNat] (fun _ => [a.toNat, b.toNat]) (fun t =>
      let y := t.lane b.toNat
      let pos := y.toNat % 32
      let len := Nat.min (y.toNat / 2 ^ 8 % 64) 32
      let m : Word := BitVec.ofNat 32 ((2 ^ len - 1) * 2 ^ pos)
      t.setLane d.toNat ((t.lane d.toNat &&& ~~~m) ||| (BitVec.ofNat 32 ((t.lane a.toNat).toNat * 2 ^ pos) &&& m))))

/-- R116, R126 to R128: products, the multiply-add with its addend, quotients and remainders with their two edge cases;
packed dot products: DOT4 clamps once always, DOT2S where the prefix saturates. -/
def Obligations.LaneMultiplyDivideAndDot : Prop :=
  (∀ (e : Bool) (d a b : BitVec 6),
    LaneTwo (.mullo e d a b) e d a b (fun t x y =>
      BitVec.ofInt 32 (if t.sat then clampInt (x.toInt * y.toInt) (-(2 ^ 31)) (2 ^ 31 - 1) else x.toInt * y.toInt)) ∧
    LaneTwo (.mulhi e d a b) e d a b (fun _ x y => BitVec.ofInt 32 (x.toInt * y.toInt / 2 ^ 32)) ∧
    LaneTwo (.mulhiu e d a b) e d a b (fun _ x y => BitVec.ofNat 32 (x.toNat * y.toNat / 2 ^ 32)) ∧
    LaneAddend (.mad e d a b) e d a b (fun t x y z =>
      BitVec.ofInt 32 (if t.sat then clampInt (x.toInt * y.toInt + z.toInt) (-(2 ^ 31)) (2 ^ 31 - 1)
        else x.toInt * y.toInt + z.toInt)) ∧
    LaneTwo (.div e d a b) e d a b (fun _ x y =>
      if y = 0 then 0xFFFF_FFFF else BitVec.ofInt 32 (x.toInt.tdiv y.toInt)) ∧
    LaneTwo (.divu e d a b) e d a b (fun _ x y => if y = 0 then 0xFFFF_FFFF else BitVec.ofNat 32 (x.toNat / y.toNat)) ∧
    LaneTwo (.rem e d a b) e d a b (fun _ x y => if y = 0 then x else BitVec.ofInt 32 (x.toInt.tmod y.toInt)) ∧
    LaneTwo (.remu e d a b) e d a b (fun _ x y => if y = 0 then x else BitVec.ofNat 32 (x.toNat % y.toNat))) ∧
  (∀ (e : Bool) (d a b : BitVec 6),
    LaneAddend (.dot4s e d a b) e d a b (fun _ x y z =>
      BitVec.ofInt 32 (clampInt (z.toInt + ((List.range 4).map (fun i =>
        (x.extractLsb' (8 * i) 8).toInt * (y.extractLsb' (8 * i) 8).toInt)).sum) (-(2 ^ 31)) (2 ^ 31 - 1))) ∧
    LaneAddend (.dot4u e d a b) e d a b (fun _ x y z =>
      BitVec.ofNat 32 (Nat.min (z.toNat + ((List.range 4).map (fun i =>
        (x.toNat / 2 ^ (8 * i) % 256) * (y.toNat / 2 ^ (8 * i) % 256))).sum) (2 ^ 32 - 1))) ∧
    LaneAddend (.dot2s e d a b) e d a b (fun t x y z =>
      let total := z.toInt + (x.extractLsb' 0 16).toInt * (y.extractLsb' 0 16).toInt +
        (x.extractLsb' 16 16).toInt * (y.extractLsb' 16 16).toInt
      BitVec.ofInt 32 (if t.sat then clampInt total (-(2 ^ 31)) (2 ^ 31 - 1) else total)))

/-- R129 to R134, R38, R21, R75: integer compares combined into a predicate, predicate logic, and the predicate set;
moves, selection, and transfer between lane and uniform registers; a V2S is the latest writer of its register. -/
def Obligations.LanePredicatesAndMoves : Prop :=
  (∀ (e : Bool) (p : BitVec 4) (c : BitVec 2) (a b k d : BitVec 6) (j pa pb tt : BitVec 4) (i : BitVec 8),
    (k.toNat < 10 → LaneCompare (.cmp e p c a b k) e p c [a.toNat, b.toNat]
      (fun t => (intHolds k.toNat (t.lane a.toNat) (t.lane b.toNat), .none))) ∧
    (j.toNat < 10 → LaneCompare (.cmpi e p c a j i) e p c [a.toNat]
      (fun t => (intHolds j.toNat (t.lane a.toNat) (BitVec.ofInt 32 i.toInt), .none))) ∧
    LaneWord (.plop e p pa pb tt) e [] (fun _ => [])
      (fun t => t.setPred p.toNat (tt.getLsbD ((if t.pred pa.toNat then 2 else 0) + (if t.pred pb.toNat then 1 else 0)))) ∧
    LaneWord (.pmovToV e d) e [d.toNat] (fun _ => []) (fun t => t.setLane d.toNat (BitVec.ofNat 32 (t.p.toNat + 2 ^ 15))) ∧
    LaneWord (.pmovToP e a) e [] (fun _ => [a.toNat])
      (fun t => { t with p := BitVec.ofNat 15 (t.lane a.toNat).toNat })) ∧
  (∀ (e : Bool) (d a b : BitVec 6) (p : BitVec 4),
    LaneOne (.mov e d a) e d a (fun x => x) ∧
    LaneWord (.sel e d a b p) e [d.toNat] (fun _ => [a.toNat, b.toNat])
      (fun t => t.setLane d.toNat (if t.pred p.toNat = true then t.lane a.toNat else t.lane b.toNat)) ∧
    LaneWord (.s2vLo e d a) e [d.toNat] (fun _ => [64 + a.toNat])
      (fun t => t.setLane d.toNat (BitVec.ofNat 32 ((t.uni a.toNat).toNat % 2 ^ 32))) ∧
    LaneWord (.s2vHi e d a) e [d.toNat] (fun _ => [64 + a.toNat])
      (fun t => t.setLane d.toNat (BitVec.ofNat 32 ((t.uni a.toNat).toNat / 2 ^ 32))) ∧
    LaneWord (.v2sLo e d a) e [64 + d.toNat] (fun _ => [a.toNat])
      (fun t => t.laneToUni d.toNat (BitVec.ofNat 64 (t.lane a.toNat).toNat)) ∧
    LaneWord (.v2sHi e d a) e [64 + d.toNat] (fun _ => [a.toNat])
      (fun t => t.laneToUni d.toNat
        (BitVec.ofNat 64 ((t.lane a.toNat).toNat * 2 ^ 32 + (t.uni d.toNat).toNat % 2 ^ 32))) ∧
    LaneWord (.v2sPair e d a) e [64 + d.toNat] (fun _ => [a.toNat, a.toNat + 1])
      (fun t => t.laneToUni d.toNat
        (BitVec.ofNat 64 ((t.lane (a.toNat + 1)).toNat * 2 ^ 32 + (t.lane a.toNat).toNat))))

/-- R31, R33, R84 to R86: a prefix waits for its word, changes nothing else, and the word after it is next; REFORM files
the thread at the next scene, EXIT ends it, NOP only goes on. -/
def Obligations.PrefixReformExitNop : Prop :=
  (∀ (m : BitVec 4) (z : BitVec 1) (r : BitVec 3) (v : BitVec 6) (x : BitVec 1) (s : State) (t : Thread) (c : Cast),
    Ready s t c [] →
      exec (.pfx m z r v x) s = .next (s.putT s.focus { t with pc := t.pc + 4, pfx := some ⟨m, z == 1, r, v, x == 1⟩ })) ∧
  (∀ (e : Bool) (s : State) (t : Thread) (c : Cast), Ready s t c [] →
    exec .reform s = .next (wentTo s { t with run := .filed, age := s.tick } (t.pc + 4)) ∧
    (∃ z u, exec .exit s = .next z ∧ z.thread s.focus = some u ∧ u.run = .exited ∧ u.poison = none ∧ z.mem = s.mem ∧
      SameOthers s z s.focus) ∧
    exec (.nop e) s = .next (wentOn s t e 4))

/-! ## Floating point -/

/-- R149 to R156, R92, R103 to R105: FP32 words round the exact result once in the mode of the prefix or of FRM, and raise
its flags; packed words do each half by itself and raise the flags of both. A rounding chooses by its mode between the two
neighbours of the exact magnitude at the exponent of its leading bit, or of the subnormals; NX says that they differ, UF that
such a result is also tiny before the range is bounded, and a result beyond the largest finite value overflows by its mode.
A sum, a product and a fused sum round their exact values; an exact zero takes the sign that its terms share, else − under
rdn alone. Minimum, maximum and compare go by the exact values, −0 before +0 in the first two alone; the class goes by the
fields; FRND rounds to a whole value and keeps the sign of a zero. -/
def Obligations.Fp32AndPackedWords : Prop :=
  (∀ mode ∈ roundings, ∀ (neg sticky : Bool) (m n d : Nat) (e q : Int), 0 < d → StandsFor m sticky n d →
    let r := roundAt mode neg m e q sticky
    (q ≤ e → r = (m * 2 ^ (e - q).toNat, sticky)) ∧
    (e < q → RoundsTo mode neg n (d * 2 ^ (q - e).toNat) r.1 ∧ (r.2 = true ↔ n % (d * 2 ^ (q - e).toNat) ≠ 0))) ∧
  (∀ f ∈ formats, ∀ mode ∈ roundings, ∀ (neg sticky : Bool) (m : Nat) (e : Int), 0 < m → (sticky = true → 2 ^ (f.mb + 2) ≤ m) →
    let emin : Int := 1 - (f.bias : Int)
    let lead : Int := e + Nat.log2 m
    let q : Int := max lead emin - f.mb
    let r := roundAt mode neg m e q sticky
    let free := roundAt mode neg m e (lead - f.mb) sticky
    let z := f.round mode neg m e sticky
    let above : Prop := (f.bias : Int) < q + f.mb ∨ (q + f.mb = f.bias ∧ r.1 = 2 ^ (f.mb + 1))
    (above → z = (if mode = rtz ∨ mode = (if neg then rup else rdn) then f.largest neg else f.inf neg, .over)) ∧
    (¬ above →
      f.value z.1 = (if r.1 = 2 ^ (f.mb + 1) then .num neg (2 ^ f.mb) (q + 1) else .num neg r.1 q) ∧ z.1 < 2 ^ f.width ∧
      z.2 = ⟨false, false, false,
        r.2 && decide (lead + (if free.1 = 2 ^ (f.mb + 1) then 1 else 0) < emin), r.2⟩)) ∧
  (∀ f ∈ formats, ∀ (neg : Bool),
    f.value f.nan = .nan false ∧ f.value (f.inf neg) = .inf neg ∧ f.value (f.zero neg) = .num neg 0 (1 - (f.bias : Int) - f.mb) ∧
    f.value (f.largest neg) = .num neg (2 ^ (f.mb + 1) - 1) ((f.bias : Int) - f.mb)) ∧
  (∀ (f : Fmt) (mode : BitVec 3) (n1 n2 n3 : Bool) (m1 m2 m3 : Nat) (e1 e2 e3 : Int),
    let zeroOf (a b : Bool) : Nat × Fl := (f.zero (if a = b then a else decide (mode = rdn)), .none)
    let sumOf (a b : Bool) (x y : Int) (e : Int) : Nat × Fl :=
      if x + y = 0 then zeroOf a b else f.round mode (decide (x + y < 0)) (x + y).natAbs e false
    let at_ (n : Bool) (m : Nat) (e g : Int) : Int := signed n (m * 2 ^ (e - g).toNat)
    f.add mode (.num n1 m1 e1) (.num n2 m2 e2) =
      sumOf n1 n2 (at_ n1 m1 e1 (min e1 e2)) (at_ n2 m2 e2 (min e1 e2)) (min e1 e2) ∧
    f.mul mode (.num n1 m1 e1) (.num n2 m2 e2) =
      (if m1 * m2 = 0 then (f.zero (n1 ^^ n2), .none) else f.round mode (n1 ^^ n2) (m1 * m2) (e1 + e2) false) ∧
    f.fma mode (.num n1 m1 e1) (.num n2 m2 e2) (.num n3 m3 e3) =
      sumOf (n1 ^^ n2) n3 (at_ (n1 ^^ n2) (m1 * m2) (e1 + e2) (min (e1 + e2) e3)) (at_ n3 m3 e3 (min (e1 + e2) e3))
        (min (e1 + e2) e3) ∧
    f.add mode (.inf n1) (.inf n2) = (if n1 = n2 then (f.inf n1, .none) else (f.nan, .invalid)) ∧
    f.add mode (.inf n1) (.num n2 m2 e2) = (f.inf n1, .none) ∧
    f.add mode (.num n1 m1 e1) (.inf n2) = (f.inf n2, .none) ∧
    f.mul mode (.inf n1) (.inf n2) = (f.inf (n1 ^^ n2), .none) ∧
    f.mul mode (.inf n1) (.num n2 m2 e2) = (if m2 = 0 then (f.nan, .invalid) else (f.inf (n1 ^^ n2), .none)) ∧
    f.mul mode (.num n1 m1 e1) (.inf n2) = (if m1 = 0 then (f.nan, .invalid) else (f.inf (n1 ^^ n2), .none)) ∧
    f.fma mode (.num n1 m1 e1) (.num n2 m2 e2) (.inf n3) = (f.inf n3, .none) ∧
    (m2 ≠ 0 → f.fma mode (.inf n1) (.num n2 m2 e2) (.num n3 m3 e3) = (f.inf (n1 ^^ n2), .none) ∧
      f.fma mode (.num n2 m2 e2) (.inf n1) (.num n3 m3 e3) = (f.inf (n1 ^^ n2), .none) ∧
      f.fma mode (.inf n1) (.num n2 m2 e2) (.inf n3) =
        (if n3 = (n1 ^^ n2) then (f.inf n3, .none) else (f.nan, .invalid)))) ∧
  (∀ f ∈ formats, OrdersValues f ∧ ClassesValues f ∧ ∀ mode ∈ roundings, RoundsToWhole f mode) ∧
  (∀ (e : Bool) (d a b k : BitVec 6) (p : BitVec 4) (c : BitVec 2),
    LaneFloatTwo (.fadd e d a b) e d a b (fun m x y => fp32.add m (fp32.value x) (fp32.value y)) ∧
    LaneFloatTwo (.fsub e d a b) e d a b (fun m x y => fp32.add m (fp32.value x) (fp32.value y).flip) ∧
    LaneFloatTwo (.fmul e d a b) e d a b (fun m x y => fp32.mul m (fp32.value x) (fp32.value y)) ∧
    LaneFloatAddend (.ffma e d a b) e d a b (fun m x y z => fp32.fma m (fp32.value x) (fp32.value y) (fp32.value z)) ∧
    LaneFloatTwo (.fmin e d a b) e d a b (fun _ x y => fp32.minMax false x y) ∧
    LaneFloatTwo (.fmax e d a b) e d a b (fun _ x y => fp32.minMax true x y) ∧
    LaneFloatOne (.fclass e d a) e d a (fun _ x => (2 ^ fp32.classOf x, .none)) ∧
    LaneFloatOne (.frnd e d a) e d a (fun m x => fp32.integral m x) ∧
    LaneCompare (.fcmp e p c a b k) e p c [a.toNat, b.toNat]
      (fun t => fp32.compare k.toNat (t.lane a.toNat).toNat (t.lane b.toNat).toNat)) ∧
  (∀ (e : Bool) (d a b : BitVec 6),
    LaneFloatTwo (.pkadd e d a b) e d a b (inHalves2 (fun m x y => fp16.add m (fp16.value x) (fp16.value y))) ∧
    LaneFloatTwo (.pkmul e d a b) e d a b (inHalves2 (fun m x y => fp16.mul m (fp16.value x) (fp16.value y))) ∧
    LaneFloatAddend (.pkfma e d a b) e d a b
      (inHalves3 (fun m x y z => fp16.fma m (fp16.value x) (fp16.value y) (fp16.value z))) ∧
    LaneFloatTwo (.pkaddBf e d a b) e d a b (inHalves2 (fun m x y => bf16.add m (bf16.value x) (bf16.value y))) ∧
    LaneFloatTwo (.pkmulBf e d a b) e d a b (inHalves2 (fun m x y => bf16.mul m (bf16.value x) (bf16.value y))) ∧
    LaneFloatAddend (.pkfmaBf e d a b) e d a b
      (inHalves3 (fun m x y z => bf16.fma m (bf16.value x) (bf16.value y) (bf16.value z))))

/-- R155, R157: FP64 words on pairs; minimum, maximum and compare go by the exact values, as those of FP32 do. -/
def Obligations.Fp64Words : Prop := OrdersValues fp64 ∧ ∀ (e : Bool) (d a b k : BitVec 6) (p : BitVec 4) (c : BitVec 2),
  LaneDoubleTwo (.dadd e d a b) e d a b (fun m x y => fp64.add m (fp64.value x) (fp64.value y)) ∧
  LaneDoubleTwo (.dsub e d a b) e d a b (fun m x y => fp64.add m (fp64.value x) (fp64.value y).flip) ∧
  LaneDoubleTwo (.dmul e d a b) e d a b (fun m x y => fp64.mul m (fp64.value x) (fp64.value y)) ∧
  LaneWord (.dfma e d a b) e [d.toNat, d.toNat + 1]
    (fun t => [a.toNat, a.toNat + 1, b.toNat, b.toNat + 1, t.third d, t.third d + 1])
    (fun t =>
      let r := fp64.fma t.mode (fp64.value (t.pair a.toNat).toNat) (fp64.value (t.pair b.toNat).toNat)
        (fp64.value (t.pair (t.third d)).toNat)
      (t.setPair d.toNat (BitVec.ofNat 64 r.1)).raise r.2) ∧
  LaneDoubleTwo (.dmin e d a b) e d a b (fun _ x y => fp64.minMax false x y) ∧
  LaneDoubleTwo (.dmax e d a b) e d a b (fun _ x y => fp64.minMax true x y) ∧
  LaneCompare (.dcmp e p c a b k) e p c [a.toNat, a.toNat + 1, b.toNat, b.toNat + 1]
    (fun t => fp64.compare k.toNat (t.pair a.toNat).toNat (t.pair b.toNat).toNat)

/-- R158 to R160: division, roots and transcendental functions, each rounded once (log 10): quotients and roots round
their exact values, the special operands and the exact cases give what the table says, and worked values stand for the
inexact ones (FRSQ of 2.0 as the table has it). -/
def Obligations.DivisionRootsAndFunctions : Prop :=
  (∀ (f : Fmt) (mode : BitVec 3) (n1 n2 : Bool) (m1 m2 : Nat) (e1 e2 : Int),
    let x := FVal.num n1 m1 e1
    let y := FVal.num n2 m2 e2
    f.div mode (.inf n1) (.inf n2) = (f.nan, .invalid) ∧ f.div mode (.inf n1) y = (f.inf (n1 ^^ n2), .none) ∧
    f.div mode x (.inf n2) = (f.zero (n1 ^^ n2), .none) ∧
    (m2 = 0 → f.div mode x y = if m1 = 0 then (f.nan, .invalid) else (f.inf (n1 ^^ n2), .divZero)) ∧
    (m2 ≠ 0 → m1 = 0 → f.div mode x y = (f.zero (n1 ^^ n2), .none)) ∧
    (m2 ≠ 0 → m1 ≠ 0 → ∃ (r k : Nat) (st : Bool), 2 ^ (f.mb + 2) ≤ r ∧ StandsFor r st (m1 * 2 ^ k) m2 ∧
      f.div mode x y = f.round mode (n1 ^^ n2) r (e1 - e2 - k) st) ∧
    f.sqrt mode (.inf n1) = (if n1 then (f.nan, .invalid) else (f.inf false, .none)) ∧
    (m1 = 0 → f.sqrt mode x = (f.zero n1, .none) ∧ f.rsqrt mode x = (f.inf n1, .divZero)) ∧
    (m1 ≠ 0 → n1 = true → f.sqrt mode x = (f.nan, .invalid) ∧ f.rsqrt mode x = (f.nan, .invalid)) ∧
    (m1 ≠ 0 → n1 = false → ∃ (r k : Nat) (E : Int), 2 ^ (f.mb + 2) ≤ r ∧ e1 - k = 2 * E ∧
      r * r ≤ m1 * 2 ^ k ∧ m1 * 2 ^ k < (r + 1) * (r + 1) ∧
      f.sqrt mode x = f.round mode false r E (r * r != m1 * 2 ^ k)) ∧
    f.rsqrt mode (.inf n1) = (if n1 then (f.nan, .invalid) else (f.zero false, .none)) ∧
    (m1 ≠ 0 → n1 = false → ∃ (r k M : Nat) (E : Int), 2 ^ (f.mb + 2) ≤ r ∧
      (M = m1 ∧ e1 = 2 * E ∨ M = 2 * m1 ∧ e1 = 2 * E + 1) ∧
      r * r * M ≤ 2 ^ (2 * k) ∧ 2 ^ (2 * k) < (r + 1) * (r + 1) * M ∧
      f.rsqrt mode x = f.round mode false r (-E - k) (r * r * M != 2 ^ (2 * k)))) ∧
  (∀ (mode : BitVec 3) (n sg : Bool) (m j k : Nat) (e v : Int),
    exp2Round mode (.nan sg) = (fp32.nan, if sg then .invalid else .none) ∧
    exp2Round mode (.inf n) = (if n then fp32.zero false else fp32.inf false, .none) ∧
    exp2Round mode (.num n 0 e) = (fp32.one false, .none) ∧
    (v ≠ 0 → -149 ≤ v → v ≤ 127 → k ≤ 149 →
      exp2Round mode (.num (decide (v < 0)) (v.natAbs * 2 ^ k) (-k)) = fp32.round mode false 1 v false) ∧
    log2Round mode (.nan sg) = (fp32.nan, if sg then .invalid else .none) ∧
    log2Round mode (.inf n) = (if n then (fp32.nan, .invalid) else (fp32.inf false, .none)) ∧
    log2Round mode (.num n 0 e) = (fp32.inf true, .divZero) ∧
    (m ≠ 0 → log2Round mode (.num true m e) = (fp32.nan, .invalid)) ∧
    log2Round mode (.num false (2 ^ k) e) =
      (if e + k = 0 then (fp32.zero false, .none) else fp32.round mode (decide (e + k < 0)) (e + k).natAbs 0 false) ∧
    sinPiRound mode (.nan sg) = (fp32.nan, if sg then .invalid else .none) ∧
    sinPiRound mode (.inf n) = (fp32.nan, .invalid) ∧
    (k ≤ 149 → sinPiRound mode (.num n (j * 2 ^ k) (-k)) = (fp32.zero n, .none)) ∧
    (k ≤ 148 → sinPiRound mode (.num n ((2 * j + 1) * 2 ^ k) (-1 - k)) = (fp32.one (n ^^ (j % 2 == 1)), .none)) ∧
    cosPiRound mode (.nan sg) = (fp32.nan, if sg then .invalid else .none) ∧
    cosPiRound mode (.inf n) = (fp32.nan, .invalid) ∧
    (k ≤ 149 → cosPiRound mode (.num n (j * 2 ^ k) (-k)) = (fp32.one (j % 2 == 1), .none)) ∧
    (k ≤ 148 → cosPiRound mode (.num n ((2 * j + 1) * 2 ^ k) (-1 - k)) = (fp32.zero false, .none)) ∧
    tanhRound mode (.nan sg) = (fp32.nan, if sg then .invalid else .none) ∧
    tanhRound mode (.inf n) = (fp32.one n, .none) ∧
    tanhRound mode (.num n 0 e) = (fp32.zero n, .none)) ∧
  (∀ x ∈ [(rne, 0x3F35_04F3), (rtz, 0x3F35_04F3), (rdn, 0x3F35_04F3), (rup, 0x3F35_04F4)],
    fp32.rsqrt x.1 (fp32.value 0x4000_0000) = (x.2, .inexact)) ∧
  (∀ x ∈ [(rne, 0x3F00_0000, 0x3FB5_04F3), (rup, 0x3F00_0000, 0x3FB5_04F4), (rne, 0xBFA0_0000, 0x3ED7_44FD),
      (rtz, 0xBFA0_0000, 0x3ED7_44FC)], exp2Round x.1 (fp32.value x.2.1) = (x.2.2, .inexact)) ∧
  (∀ x ∈ [(rne, 0x4040_0000, 0x3FCA_E00D), (rup, 0x4040_0000, 0x3FCA_E00E), (rne, 0x3F40_0000, 0xBED4_7FCC),
      (rup, 0x3F40_0000, 0xBED4_7FCB)], log2Round x.1 (fp32.value x.2.1) = (x.2.2, .inexact)) ∧
  (∀ x ∈ [(rne, 0x3E80_0000, 0x3F35_04F3), (rup, 0xBF90_0000, 0x3EC3_EF16)],
    sinPiRound x.1 (fp32.value x.2.1) = (x.2.2, .inexact)) ∧
  (∀ x ∈ [(rne, 0x3E00_0000, 0x3F6C_835E), (rdn, 0x3F40_0000, 0xBF35_04F4)],
    cosPiRound x.1 (fp32.value x.2.1) = (x.2.2, .inexact)) ∧
  (∀ x ∈ [(rne, 0x3F80_0000, 0x3F42_F7D6), (rtz, 0xBF00_0000, 0xBEEC_9A9E)],
    tanhRound x.1 (fp32.value x.2.1) = (x.2.2, .inexact)) ∧
  ∀ (e : Bool) (d a b : BitVec 6),
  LaneFloatOne (.frcp e d a) e d a (fun m x => fp32.div m (.num false 1 0) (fp32.value x)) ∧
  LaneFloatOne (.frsq e d a) e d a (fun m x => fp32.rsqrt m (fp32.value x)) ∧
  LaneFloatOne (.fsqrt e d a) e d a (fun m x => fp32.sqrt m (fp32.value x)) ∧
  LaneFloatTwo (.fdiv e d a b) e d a b (fun m x y => fp32.div m (fp32.value x) (fp32.value y)) ∧
  LaneFloatOne (.fexp2 e d a) e d a (fun m x => exp2Round m (fp32.value x)) ∧
  LaneFloatOne (.flog2 e d a) e d a (fun m x => log2Round m (fp32.value x)) ∧
  LaneFloatOne (.fsinpi e d a) e d a (fun m x => sinPiRound m (fp32.value x)) ∧
  LaneFloatOne (.fcospi e d a) e d a (fun m x => cosPiRound m (fp32.value x)) ∧
  LaneFloatOne (.ftanh e d a) e d a (fun m x => tanhRound m (fp32.value x)) ∧
  LaneDoubleOne (.drcp e d a) e d a (fun m x => fp64.div m (.num false 1 0) (fp64.value x)) ∧
  LaneDoubleOne (.drsq e d a) e d a (fun m x => fp64.rsqrt m (fp64.value x)) ∧
  LaneDoubleTwo (.ddiv e d a b) e d a b (fun m x y => fp64.div m (fp64.value x) (fp64.value y))

/-- R94, R107, R149: sums, products and fused sums of which an operand is a NaN give the canonical NaN of their format, and
raise NV exactly where an operand signals (or a fused product is 0 × ∞). FFLAGS is sticky: no lane word of floating point
clears a flag. -/
def Obligations.NansAndFlagsOfFloatingPoint : Prop :=
  (∀ (f : Fmt) (m : BitVec 3) (x y z : FVal),
    ((x.isNan || y.isNan) = true →
      f.add m x y = (f.nan, if x.isSnan || y.isSnan then .invalid else .none) ∧
      f.mul m x y = (f.nan, if x.isSnan || y.isSnan then .invalid else .none)) ∧
    ((x.isNan || y.isNan || z.isNan) = true →
      f.fma m x y z = (f.nan, if x.isSnan || y.isSnan || z.isSnan ||
        (x.isZero && y.isInf) || (x.isInf && y.isZero) then .invalid else .none))) ∧
  (∀ (i : Instr) (s z : State) (t u : Thread), floatWord i = true →
    s.thread s.focus = some t → Unstepped t → exec i s = .next z → z.thread s.focus = some u → t.fflags &&& u.fflags = t.fflags)

/-- R161 to R171, R97 to R99, R103 to R105, R110, R111: conversion between formats, quantising and dequantising under a
curve that fits, and the load of a curve. An integer result is the value rounded to a whole, reduced or clamped; a tapered
result is the code whose value the mode chooses, ±MAXT where the value lies above it; the forward curve is one fused
rounding on its segment, the inverse the exact division rounded to the decoded float, whose own inexactness raises no flag
(the model's choice, log 34). The decoded codes and the worked conversions are the tables' own. -/
def Obligations.ConversionWords : Prop :=
  (∀ (w : Nat × Bool) (mode : BitVec 3) (sat n tap sg : Bool) (m : Nat) (e i : Int) (f : Fmt) (t : Taper),
    let fit (v : Int) : Nat := ((if sat then clampInt v (intMin w) (intMax w) else v) % 2 ^ w.1).toNat
    let r := roundAt mode n m e 0 false
    toInteger w mode sat (.real (.num n m e) tap) = (fit (signed n r.1), ⟨false, false, false, false, r.2⟩) ∧
    toInteger w mode sat (.real (.nan sg) tap) = (0, .invalid) ∧
    toInteger w mode sat (.real (.inf n) tap) =
      (if sat then fit (if n then intMin w else intMax w) else 0, .invalid) ∧
    toInteger w mode sat (.int i) = (fit i, .none) ∧
    toIeee f mode (.int i) =
      (if i = 0 then (f.zero false, .none) else f.round mode (decide (i < 0)) i.natAbs 0 false) ∧
    toIeee f mode (.real (.num n m e) tap) = (if m = 0 then (f.zero n, .none) else f.round mode n m e false) ∧
    toIeee f mode (.real (.inf n) tap) = (f.inf n, .none) ∧
    toIeee f mode (.real (.nan sg) tap) = (f.nan, if sg && !tap then .invalid else .none) ∧
    toTaper t mode sat (.int i) = (if i = 0 then (0, .none) else t.round mode (decide (i < 0)) i.natAbs 0 false) ∧
    toTaper t mode sat (.real (.num n m e) tap) = (if m = 0 then (0, .none) else t.round mode n m e false) ∧
    toTaper t mode sat (.real (.inf n) tap) =
      (if sat then (if n then 2 ^ t.bits else 0) + t.largestCode else t.nanCode,
        if sat then .over else .invalid) ∧
    toTaper t mode sat (.real (.nan sg) tap) = (t.nanCode, if tap then .none else .invalid)) ∧
  (∀ (mode : BitVec 3) (sat : Bool) (x src dst : Nat),
    cvtIn 0 x = .real (fp64.value (x % 2 ^ 64)) false ∧ cvtIn 1 x = .real (fp32.value (x % 2 ^ 32)) false ∧
    cvtIn 2 x = .real (fp16.value (x % 2 ^ 16)) false ∧ cvtIn 3 x = .real (bf16.value (x % 2 ^ 16)) false ∧
    cvtIn 4 x = .real (Taper.tf8.value (x % 2 ^ 8)) true ∧ cvtIn 5 x = .real (Taper.tf6.value (x % 2 ^ 6)) true ∧
    cvtIn 8 x = .int (BitVec.ofNat 8 x).toInt ∧ cvtIn 9 x = .int (x % 2 ^ 8 : Nat) ∧
    cvtIn 10 x = .int (BitVec.ofNat 16 x).toInt ∧ cvtIn 12 x = .int (BitVec.ofNat 32 x).toInt ∧
    cvtIn 14 x = .int (BitVec.ofNat 64 x).toInt ∧
    convert src 0 mode sat x = toIeee fp64 mode (cvtIn src x) ∧ convert src 1 mode sat x = toIeee fp32 mode (cvtIn src x) ∧
    convert src 2 mode sat x = toIeee fp16 mode (cvtIn src x) ∧ convert src 3 mode sat x = toIeee bf16 mode (cvtIn src x) ∧
    convert src 4 mode sat x = toTaper .tf8 mode sat (cvtIn src x) ∧
    convert src 5 mode sat x = toTaper .tf6 mode sat (cvtIn src x) ∧
    (dst = 8 ∨ dst = 10 ∨ dst = 12 ∨ dst = 14 →
      convert src dst mode sat x = toInteger (if dst = 8 then 8 else if dst = 10 then 16 else if dst = 12 then 32 else 64, true)
        mode sat (cvtIn src x)) ∧
    convert src 9 mode sat x = toInteger (8, false) mode sat (cvtIn src x)) ∧
  (∀ x ∈ [(rne, 0xFFFF_FFFE), (rtz, 0xFFFF_FFFE), (rup, 0xFFFF_FFFE), (rdn, 0xFFFF_FFFD), (rna, 0xFFFF_FFFD)],
    convert 1 12 x.1 false 0xC020_0000 = (x.2, .inexact)) ∧
  (∀ e < 2,
    Taper.tf8.units 1 = 1 ∧ Taper.tf8.units (2 + e) = 4 * 2 ^ e ∧
    (∀ f < 2, Taper.tf8.units (4 + 2 * e + f) = 8 * 2 ^ e * (2 + f)) ∧
    (∀ f < 4, Taper.tf8.units (8 + 4 * e + f) = 16 * 2 ^ e * (4 + f)) ∧
    (∀ f < 8, Taper.tf8.units (16 + 8 * e + f) = 32 * 2 ^ e * (8 + f)) ∧
    (∀ f < 16, Taper.tf8.units (32 + 16 * e + f) = 64 * 2 ^ e * (16 + f)) ∧
    (∀ f < 16, Taper.tf8.units (64 + 16 * e + f) = 256 * 2 ^ e * (16 + f)) ∧
    (∀ f < 8, Taper.tf8.units (96 + 8 * e + f) = 2048 * 2 ^ e * (8 + f)) ∧
    (∀ f < 4, Taper.tf8.units (112 + 4 * e + f) = 16384 * 2 ^ e * (4 + f)) ∧
    (∀ f < 2, Taper.tf8.units (120 + 2 * e + f) = 131072 * 2 ^ e * (2 + f)) ∧
    Taper.tf8.units (124 + e) = 256 * 4096 * 2 ^ e ∧ Taper.tf8.units 126 = 1024 * 4096 ∧ Taper.tf8.units 127 = 4096 * 4096) ∧
  (Taper.tf6.units 1 = 1 ∧ (∀ f < 2, Taper.tf6.units (2 + f) = 2 + f) ∧ (∀ f < 4, Taper.tf6.units (4 + f) = 4 + f) ∧
    (∀ f < 8, Taper.tf6.units (8 + f) = 8 + f) ∧ (∀ f < 8, Taper.tf6.units (16 + f) = 2 * (8 + f)) ∧
    (∀ f < 4, Taper.tf6.units (24 + f) = 8 * (4 + f)) ∧ (∀ f < 2, Taper.tf6.units (28 + f) = 32 * (2 + f)) ∧
    Taper.tf6.units 30 = 128 ∧ Taper.tf6.units 31 = 256) ∧
  (∀ (t : Taper), ∀ mode ∈ roundings, ∀ (neg : Bool) (m : Nat) (e : Int), 0 < m →
    let sh : Int := e + (if t = .tf8 then 12 else 4)
    let n := m * 2 ^ sh.toNat
    let d := 2 ^ (-sh).toNat
    let top := t.units t.largestCode
    let z := t.round mode neg m e false
    (top * d < n → z = ((if neg then 2 ^ t.bits else 0) + t.largestCode, .over)) ∧
    (n ≤ top * d → ∃ k ≤ t.largestCode, TapersTo t mode neg n d k ∧
      z.1 = (if k = 0 then 0 else (if neg then 2 ^ t.bits else 0) + k) ∧
      z.2 = ⟨false, false, false, decide (n < d), decide (n ≠ t.units k * d)⟩)) ∧
  (∀ (t : Taper) (k : Option Curve) (mode : BitVec 3) (scale : Int) (n : Bool) (m x : Nat) (e : Int),
    let delta := if t = .tf8 then 256 else 1
    let g : Int := min e 0
    let y := m * 2 ^ (e - g).toNat
    let unit := delta * 2 ^ (-g).toNat
    let mag := if n then 2 ^ t.bits else 0
    (y < 16 * unit → curveForward t k m e = fp32.fma rne (.num false (y % unit) g) (fp32.value (curveS k (y / unit)))
      (fp32.value (curveW t k (y / unit)))) ∧
    (scale = -128 ∨ (fp32.value x).isNan = true ∨ (fp32.value x).isInf = true →
      quantise t k mode scale x = (t.nanCode, .invalid)) ∧
    (scale ≠ -128 → fp32.value x = .num n m (e + scale) →
      (16 * unit ≤ y → quantise t k mode scale x = (mag + t.largestCode, if 16 * unit < y then .over else .none)) ∧
      (y < 16 * unit → ∀ v, curveForward t k m e = v →
        (∀ ns ms es, fp32.value v.1 = .num ns ms es → quantise t k mode scale x =
          (if ms = 0 then (0, v.2) else ((t.round mode n ms es false).1, v.2.or (t.round mode n ms es false).2))) ∧
        (∀ ns, fp32.value v.1 = .inf ns → quantise t k mode scale x = (mag + t.largestCode, v.2.or .over)))) ∧
    (scale = -128 ∨ (t.value x).isNan = true → dequantise t k scale x = (fp32.nan, .none)) ∧
    (scale ≠ -128 → t.value x = .num n m e → ∀ v, curveInverse t k m e = v → dequantise t k scale x =
      (if v.1 = 0 then (fp32.zero n, .none) else fp32.round rne n v.1 (v.2 + scale) false))) ∧
  (∀ (t : Taper) (k : Curve) (m : Nat) (e : Int),
    let delta := if t = .tf8 then 256 else 1
    let w (i : Nat) : FVal := fp32.value (curveW t (some k) i)
    curveInverse t none m e = (m, e) ∧
    (curveCheck delta k.entries 16 0 = 0 →
      ∃ i ≤ 15, (∀ j ≤ 15, j ≤ i ↔ (FVal.num false m e).lt (w j) = false) ∧
      ∃ (nw ns : Bool) (mw ms : Nat) (ew es : Int), w i = .num nw mw ew ∧ fp32.value (curveS (some k) i) = .num ns ms es ∧
        let E : Int := min (min e ew) (min es 0)
        let d := ms * 2 ^ (es - E).toNat
        let n := i * delta * d + (m * 2 ^ (e - E).toNat - mw * 2 ^ (ew - E).toNat)
        ((i + 1) * delta * d ≤ n → curveInverse t (some k) m e = ((i + 1) * delta, 0)) ∧
        (n < (i + 1) * delta * d → n = 0 → curveInverse t (some k) m e = (0, 0)) ∧
        (n < (i + 1) * delta * d → 0 < n → ∃ (r j : Nat) (st ng : Bool), 2 ^ 12 ≤ r ∧ StandsFor r st (n * 2 ^ j) d ∧
          decodedFloat.value (decodedFloat.round rne false r (-j) st).1 =
            .num ng (curveInverse t (some k) m e).1 (curveInverse t (some k) m e).2))) ∧
  quantise .tf8 none rne 1 0x40A6_6666 = (0x55, .inexact) ∧ dequantise .tf8 none 1 0x55 = (0x40A8_0000, .none) ∧
  ∀ (e : Bool) (d a b sf tf : BitVec 6) (s : State) (t : Thread) (c : Cast),
  LaneWord (.cvt e d a sf tf) e (if wideCode tf.toNat then [d.toNat, d.toNat + 1] else [d.toNat])
    (fun _ => if wideCode sf.toNat then [a.toNat, a.toNat + 1] else [a.toNat])
    (fun t =>
      let x := if wideCode sf.toNat then (t.pair a.toNat).toNat else (t.lane a.toNat).toNat
      let r := convert sf.toNat tf.toNat t.mode t.sat x
      (if wideCode tf.toNat then t.setPair d.toNat (BitVec.ofNat 64 r.1)
        else t.setLane d.toNat (BitVec.ofNat 32 r.1)).raise r.2) ∧
  (Ready s t c [d.toNat, a.toNat, b.toNat] →
    let y := t.lane b.toNat
    let k := c.curve (y.toNat / 2 ^ 8 % 4)
    let scale := (y.extractLsb' 0 8).toInt
    let done (r : Nat × Fl) : Out := .next (wentOn s ((t.setLane d.toNat (BitVec.ofNat 32 r.1)).raise r.2) e 4)
    (c.curveFits (y.toNat / 2 ^ 8 % 4) .tf8 = true →
      exec (.qntTf8 e d a b) s = done (quantise .tf8 k t.frm scale (t.lane a.toNat).toNat) ∧
      exec (.dqntTf8 e d a b) s = done (dequantise .tf8 k scale ((t.lane a.toNat).toNat % 2 ^ 8))) ∧
    (c.curveFits (y.toNat / 2 ^ 8 % 4) .tf6 = true →
      exec (.qntTf6 e d a b) s = done (quantise .tf6 k t.frm scale (t.lane a.toNat).toNat) ∧
      exec (.dqntTf6 e d a b) s = done (dequantise .tf6 k scale ((t.lane a.toNat).toNat % 2 ^ 6)))) ∧
  (∀ (s1 : State) (t1 : Thread) (es : List DWord), Ready s t c [d.toNat, a.toNat, a.toNat + 1, b.toNat] →
    let n := (t.lane b.toNat).toNat % 4
    let tf6 := (t.lane b.toNat).getLsbD 2
    let st := curveCheck (if tf6 then Taper.tf6.delta else Taper.tf8.delta) es 16 0
    (n = 0 → exec (.ctbl e d a b) s = .next (wentOn s (t.setLane d.toNat 5) e 4)) ∧
    (n ≠ 0 → State.readDoubles c s.focus 16 (t.pair a.toNat) s t [] = .ok (s1, t1, es) →
      exec (.ctbl e d a b) s = .next (wentOn
        (if st = 0 then s1.putC (castOf s.focus) { c with curves := tput c.curves n ⟨es, tf6⟩ }
          else s1.putC (castOf s.focus) c) (t1.setLane d.toNat (BitVec.ofNat 32 st)) e 4)))

/-! ## Memory words -/

/-- R77, R78, R80, R81, R177, R178, R336: a load takes its value at its access, counts on cue A, leaves every register as
it is, and its destinations are outstanding. The value is one that the order of accesses allows: what the place holds, what
the core's copy of its line holds (R302), in the weight store what it held at the production's start (R294), in host memory
what a host agent has overwritten (R316), and for a .REP load what the bytes have held (R305); where several are allowed,
which is free (logs 4, 35, 36). A counted operation whose data are there completes where no refresh window holds its store:
the registers receive the values, the cue falls, and the operation is outstanding no more. A load of host or pool memory, which
later accesses may overtake, then keeps the value of its issue or takes one that a host agent has written since (R316,
log 36). -/
def Obligations.LoadsCountAndComplete : Prop :=
  (∀ (e : Bool) (d a : BitVec 6) (b : BitVec 5) (m : BitVec 1) (z sp : BitVec 3) (s s1 : State) (t : Thread) (c : Cast)
      (l : Loc),
    let n := sizeOf3 z
    let addr := t.address a.toNat b.toNat (m == 1) n
    Ready s t c (dataRegs d.toNat n ++ addrRegs a.toNat b.toNat (m == 1)) → t.cueFull t.cueA = false →
    s.checked t c s.focus (spaceOf sp) addr n .read = .ok (s1, l) →
    ∃ y u o x, exec (.ld e d a b m z sp) s = .next y ∧ y.thread s.focus = some u ∧ y.mem = s1.mem ∧
      u.v = t.v ∧ u.u = t.u ∧ u.p = t.p ∧ u.k = (t.incCue t.cueA).k ∧ u.outst = t.outst ++ [o] ∧
      o.cue = t.cueA ∧ o.regs = dataRegs d.toNat n ∧ o.ready = true ∧ o.vals = loadVals z x ∧
      (sp = 1 ∧ MayReplicate s1 t c addr l → HeldSince s1 t c l n x) ∧
      (¬ (sp = 1 ∧ MayReplicate s1 t c addr l) → ReadsAs s1 t c l n x) ∧ u.pc = t.pc + 4) ∧
  (∀ (s : State) (tk op : Nat) (t : Thread) (o : Outst),
    s.thread tk = some t → t.outst.find? (fun x => x.op == op) = some o → o.ready = true → s.refreshing o.store = false →
    ((∀ x ∈ t.late, x.op ≠ op) → exec (.loadComplete tk op) s = .next (s.putT tk
      (if t.run = .exited then { t with outst := t.outst.filter (fun x => x.op != op) }
        else (({ t with outst := t.outst.filter (fun x => x.op != op) } : Thread).putRegs o.regs o.vals).decCue o.cue))) ∧
    (∀ x, t.late.find? (fun x => x.op == op) = some x → t.run ≠ .exited →
      ∃ y u vals, exec (.loadComplete tk op) s = .next y ∧ y.thread tk = some u ∧
        (vals = o.vals ∨ ∃ w ∈ s.lateChoices x, vals = loadVals x.form w.1) ∧
        u.v = (t.putRegs o.regs vals).v ∧ u.u = (t.putRegs o.regs vals).u ∧ u.k = (t.decCue o.cue).k ∧
        u.outst = t.outst.filter (fun x => x.op != op) ∧ u.pc = t.pc))

/-- R177, R178, R299: a store writes the register bytes that its size names at the place of its address, and no register. -/
def Obligations.StoresWriteTheirBytes : Prop :=
  ∀ (e : Bool) (d a : BitVec 6) (b : BitVec 5) (m : BitVec 1) (z sp : BitVec 3) (s s1 s2 : State) (t : Thread) (c : Cast)
    (l : Loc),
  let n := sizeOf3 z
  Ready s t c (dataRegs d.toNat n ++ addrRegs a.toNat b.toNat (m == 1)) →
  s.checked t c s.focus (spaceOf sp) (t.address a.toNat b.toNat (m == 1) n) n .write = .ok (s1, l) →
  s1.snapGuard l = .ok s2 →
  ∃ y u, exec (.st e d a b m z sp) s = .next y ∧ y.thread s.focus = some u ∧
    numAt y.mem l.cell n = t.storeData d.toNat n % 2 ^ (8 * n) ∧
    (∀ x, Outside x l.cell n → byteAt y.mem x = byteAt s1.mem x) ∧
    u.v = t.v ∧ u.u = t.u ∧ u.p = t.p ∧ u.k = t.k ∧ u.outst = t.outst ∧ u.pc = t.pc + 4

/-- R180, R307: MCST makes no store where one of its addresses fails its checks. Else its stores are made in the order of the
addresses, one at a time, so that accesses of other agents may fall between them, and the thread stays at the word until the
last is made; each is translated when it is made (R176, R188), and where no store touches what the others are translated by,
every place then holds the data. A later address that no longer passes translation traps there (log 35, the model's
reading). -/
def Obligations.MulticastStoresAllOrNothing : Prop :=
  ∀ (e : Bool) (d a : BitVec 6) (b : BitVec 5) (m z : BitVec 1) (k : BitVec 2) (s s1 s2 : State) (t : Thread) (c : Cast)
    (l : Loc) (ls : List Loc) (x : TrapInfo) (v : Nat) (a' : DWord) (rest : List DWord),
  let n := if z = 1 then 8 else 4
  let i : Instr := .mcst e d a b m z k
  let data := t.storeData d.toNat n
  let as := mcstAddrs t a.toNat b.toNat (m == 1) n (k.toNat + 1)
  let stored (y : State) (l : Loc) (ls : List DWord) (v : Nat) (w : State) : Prop :=
    ∃ z u, exec i y = .next z ∧ z.thread s.focus = some u ∧ numAt z.mem l.cell n = v % 2 ^ (8 * n) ∧
      (∀ q, Outside q l.cell n → byteAt z.mem q = byteAt w.mem q) ∧ u.v = t.v ∧ u.u = t.u ∧ u.k = t.k ∧
      (ls = [] → u.held = none ∧ u.pc = t.pc + 4) ∧ (ls ≠ [] → u.held = some (.mcst ls n v) ∧ u.pc = t.pc)
  (Ready s t c (dataRegs d.toNat n ++
    (if m = 1 then vRange a.toNat (2 * (k.toNat + 1)) else vRange a.toNat (k.toNat + 1) ++ [64 + b.toNat])) →
    t.held = none →
    (State.checkAll t c s.focus n as s [] = .trap x → exec i s = .next (s.trapAt s.focus t c x)) ∧
    (State.checkAll t c s.focus n as s [] = .ok (s1, l :: ls) → s1.snapGuard l = .ok s2 → stored s l as.tail data s1) ∧
    (State.checkAll t c s.focus n as s [] = .ok (s1, ls) → ls.length = k.toNat + 1 ∧
      (NoSnapshot s → Unmoved s1 t c n as ls → ∃ z u, runs i (k.toNat + 1) s = .next z ∧ z.thread s.focus = some u ∧
        (∀ l ∈ ls, numAt z.mem l.cell n = data % 2 ^ (8 * n)) ∧
        (∀ q, (∀ l ∈ ls, Outside q l.cell n) → byteAt z.mem q = byteAt s1.mem q) ∧
        u.held = none ∧ u.pc = t.pc + 4 ∧ u.v = t.v ∧ u.u = t.u ∧ u.p = t.p ∧ u.k = t.k ∧ u.outst = t.outst))) ∧
  (s.thread s.focus = some t → s.cast (castOf s.focus) = some c → Unstepped t → t.held = some (.mcst (a' :: rest) n v) →
    (s.locate t c (castOf s.focus) .global a' n .write = .ok (s1, l) →
      (s1.snapGuard l = .ok s2 → stored s l rest v s1) ∧ (s1.snapGuard l = .hold .snapshot → exec i s = .next s)) ∧
    (s.locate t c (castOf s.focus) .global a' n .write = .trap x → exec i s = .next (s.trapAt s.focus t c x)))

/-- R182, R183: atomics on 32 and 64 bits: what each stores; the old value goes to the destination, counted on cue A. -/
def Obligations.AtomicsReadAndWriteAtOnce : Prop :=
  ∀ (e : Bool) (d a : BitVec 6) (b : BitVec 5) (m w p : BitVec 1),
  let n := if w = 1 then 8 else 4
  let regs := dataRegs d.toNat n
  let y (t : Thread) : Nat := if w = 1 then (t.pair d.toNat).toNat else (t.lane d.toNat).toNat
  let signed (x : Nat) : Int := if x < 2 ^ (8 * n - 1) then (x : Int) else (x : Int) - 2 ^ (8 * n)
  AtomicWord (.aadd e d a b m w p) d a b m w p regs (fun t x => x + y t) ∧
  AtomicWord (.amin e d a b m w p) d a b m w p regs (fun t x => if signed x ≤ signed (y t) then x else y t) ∧
  AtomicWord (.amax e d a b m w p) d a b m w p regs (fun t x => if signed x < signed (y t) then y t else x) ∧
  AtomicWord (.aand e d a b m w p) d a b m w p regs (fun t x => x &&& y t) ∧
  AtomicWord (.aor e d a b m w p) d a b m w p regs (fun t x => x ||| y t) ∧
  AtomicWord (.axor e d a b m w p) d a b m w p regs (fun t x => x ^^^ y t) ∧
  AtomicWord (.axch e d a b m w p) d a b m w p regs (fun t _ => y t) ∧
  AtomicWord (.afadd e d a b m w p) d a b m w p regs (fun t x =>
    if w = 1 then (fp64.add rne (fp64.value x) (fp64.value (y t))).1
    else (fp32.add rne (fp32.value x) (fp32.value (y t))).1) ∧
  AtomicWord (.acas e d a b m w p) d a b m w p
    (if w = 1 then [d.toNat, d.toNat + 1, d.toNat + 2, d.toNat + 3] else [d.toNat, d.toNat + 1]) (fun t x =>
      if x = y t then (if w = 1 then (t.pair (d.toNat + 2)).toNat else (t.lane (d.toNat + 1)).toNat) else x)

/-- R179, R181: a prefetch changes nothing; a fence with nothing to wait for goes on, a FENCE.E waits for the engine
operations and framed matrix stores of its thread and goes on once they have completed. A FENCE.R bounds later .REP loads
by the key of the core's latest access (log 4), a FENCE.H later reads of host memory by the host writes so far (log 36). -/
def Obligations.PrefetchAndFence : Prop :=
  ∀ (e : Bool) (a : BitVec 6) (b : BitVec 5) (m : BitVec 1) (sp k : BitVec 3) (s : State) (t : Thread) (c : Cast)
    (tk : Nat) (ops : List Nat),
  let bound (x : Thread) : Thread :=
    { x with fenceR := if k.getLsbD 1 then s.nowKey c.agent else x.fenceR
             repFrom := if k.getLsbD 1 then s.hostCount else x.repFrom
             hostFrom := if k.getLsbD 0 then s.hostCount else x.hostFrom
             late := if k.getLsbD 0 then x.late.map (fun y => y.capped s.hostCount) else x.late }
  (Ready s t c (addrRegs a.toNat b.toNat (m == 1)) → exec (.pfetch e a b m sp) s = .next (wentOn s t e 4)) ∧
  (Ready s t c [] → t.held = none → (k.getLsbD 2 = false ∨ s.pendingEngine s.focus = []) →
    exec (.fence e k) s = .next (wentOn s (bound t) e 4)) ∧
  (Ready s t c [] → k.getLsbD 2 = true → s.pendingEngine s.focus ≠ [] →
    exec (.fence e k) s = .next (s.putT s.focus { t with held := some (.fence (s.pendingEngine s.focus) k e) })) ∧
  (s.focus = tk → s.thread tk = some t → s.cast (castOf tk) = some c → Unstepped t → t.held = some (.fence ops k e) →
    (∀ o ∈ ops, o ∉ s.pendingEngine tk) →
    exec (.fenceComplete tk) s = .next (wentOn s (bound { t with held := none }) e 4))

/-- R37, R177, R187, R192: a load, store or atomic that is not naturally aligned takes ALIGN with its address and does
nothing else; an MCST with the first address that is not, where those before it pass their checks. An aligned one that lies out
of range, fails translation or hits a watchpoint takes RANGE, PAGE or WATCH with its address (R174, R190, R192, R201); a walk
that fails over lines with errors logs them (log 35). An address with a bit above 55 fails with FKIND 4, an entry that is not
valid with FKIND 0, else a malformed one with FKIND 1 (R186, R318, R403), a supervisor page refuses program privilege with
FKIND 3, a page refuses what its permissions do not allow with FKIND 2. -/
def Obligations.AlignmentAndTranslationChecks : Prop :=
  (∀ (e : Bool) (d a : BitVec 6) (b : BitVec 5) (m : BitVec 1) (z sp : BitVec 3) (w p : BitVec 1) (s : State) (t : Thread)
      (c : Cast),
    let n := sizeOf3 z
    let x := t.address a.toNat b.toNat (m == 1) n
    let y := t.address a.toNat b.toNat (m == 1) (if w = 1 then 8 else 4)
    (Ready s t c (dataRegs d.toNat n ++ addrRegs a.toNat b.toNat (m == 1)) → x.toNat % n ≠ 0 →
      (t.cueFull t.cueA = false → exec (.ld e d a b m z sp) s = .next (s.trapAt s.focus t c (trapOf .align x))) ∧
      exec (.st e d a b m z sp) s = .next (s.trapAt s.focus t c (trapOf .align x))) ∧
    let atoms (regs : List Nat) (is : List Instr) : Prop :=
      Ready s t c (regs ++ addrRegs a.toNat b.toNat (m == 1)) → y.toNat % (if w = 1 then 8 else 4) ≠ 0 →
        t.cueFull t.cueA = false → ∀ i ∈ is, exec i s = .next (s.trapAt s.focus t c (trapOf .align y))
    atoms (dataRegs d.toNat (if w = 1 then 8 else 4)) [.aadd e d a b m w p, .amin e d a b m w p, .amax e d a b m w p,
      .aand e d a b m w p, .aor e d a b m w p, .axor e d a b m w p, .axch e d a b m w p, .afadd e d a b m w p] ∧
    atoms (if w = 1 then [d.toNat, d.toNat + 1, d.toNat + 2, d.toNat + 3] else [d.toNat, d.toNat + 1])
      [.acas e d a b m w p]) ∧
  (∀ (e : Bool) (d a : BitVec 6) (b : BitVec 5) (m z : BitVec 1) (k : BitVec 2) (s s1 : State) (t : Thread) (c : Cast)
      (before after : List DWord) (x : DWord) (ls : List Loc),
    let n := if z = 1 then 8 else 4
    Ready s t c (dataRegs d.toNat n ++
      (if m = 1 then vRange a.toNat (2 * (k.toNat + 1)) else vRange a.toNat (k.toNat + 1) ++ [64 + b.toNat])) →
    t.held = none → mcstAddrs t a.toNat b.toNat (m == 1) n (k.toNat + 1) = before ++ x :: after →
    State.checkAll t c s.focus n before s [] = .ok (s1, ls) →
    (x.toNat % n ≠ 0 → exec (.mcst e d a b m z k) s = .next (s.trapAt s.focus t c (trapOf .align x))) ∧
    (x.toNat % n = 0 → ∀ w, FailsAt s1 t c .global x n .write w →
      exec (.mcst e d a b m z k) s = .next ((Noted s s1 c x w).trapAt s.focus t c w))) ∧
  (∀ (e : Bool) (d a : BitVec 6) (b : BitVec 5) (m : BitVec 1) (z sp : BitVec 3) (w p : BitVec 1) (s : State) (t : Thread)
      (c : Cast) (f : TrapInfo),
    let n := sizeOf3 z
    let x := t.address a.toNat b.toNat (m == 1) n
    let l := if w = 1 then 8 else 4
    let y := t.address a.toNat b.toNat (m == 1) l
    (Ready s t c (dataRegs d.toNat n ++ addrRegs a.toNat b.toNat (m == 1)) → x.toNat % n = 0 →
      (t.cueFull t.cueA = false → FailsAt s t c (spaceOf sp) x n .read f →
        exec (.ld e d a b m z sp) s = .next ((Noted s s c x f).trapAt s.focus t c f)) ∧
      (FailsAt s t c (spaceOf sp) x n .write f →
        exec (.st e d a b m z sp) s = .next ((Noted s s c x f).trapAt s.focus t c f))) ∧
    let atoms (regs : List Nat) (is : List Instr) : Prop :=
      Ready s t c (regs ++ addrRegs a.toNat b.toNat (m == 1)) → y.toNat % l = 0 → t.cueFull t.cueA = false →
        FailsAt s t c (if p = 1 then .scratch else .global) y l .rmw f →
        ∀ i ∈ is, exec i s = .next ((Noted s s c y f).trapAt s.focus t c f)
    atoms (dataRegs d.toNat l) [.aadd e d a b m w p, .amin e d a b m w p, .amax e d a b m w p,
      .aand e d a b m w p, .aor e d a b m w p, .axor e d a b m w p, .axch e d a b m w p, .afadd e d a b m w p] ∧
    atoms (if w = 1 then [d.toNat, d.toNat + 1, d.toNat + 2, d.toNat + 3] else [d.toNat, d.toNat + 1])
      [.acas e d a b m w p]) ∧
  (∀ (m : List Host.Cell) (g n : Nat) (gal : Gallery) (va : DWord) (k : Acc) (pr : Priv),
    let addr := entryAddr m g gal.groot.toNat va.toNat
    let entry := entryAt m g gal.groot.toNat va.toNat
    va.toNat < 2 ^ 56 → n < 4 → (∀ i, i ≤ n → addr i + 8 ≤ gal.memSize) →
    (∀ i, i < n → (entry i).testBit 0 = true ∧ (entry i).testBit 1 = false) →
      ((entry n).testBit 0 = false → translate m g gal va pr k = .fail 0) ∧
      ((entry n).testBit 0 = true → (entry n).testBit 1 = true ∨ n = 3 → (∃ i, i ≤ n ∧ pteMalformed (entry i) (i + 1) = true) →
        translate m g gal va pr k = .fail 1)) ∧
  (∀ (e level : Nat), 1 ≤ level → level ≤ 4 →
    let page := fld e 16 40 * 2 ^ 16
    let leaf : Prop := e.testBit 1 = true
    (pteMalformed e level = true ↔
      fld e 56 8 ≠ 0 ∨ fld e 12 2 ≠ 0 ∨ e.testBit 6 = true ∨ fld e 14 2 = 3 ∨ (leaf ∧ level = 1) ∨ (¬leaf ∧ level = 4) ∨
      (¬leaf ∧ fld e 14 2 ≠ 0) ∨ (leaf ∧ page % 2 ^ (56 - 10 * level) ≠ 0) ∨
      (leaf ∧ e.testBit 11 = true ∧ (fld e 14 2 ≠ 0 ∨ page % 2 ^ (57 - 10 * level) ≠ 0)) ∨
      (leaf ∧ e.testBit 10 = true ∧ fld e 14 2 ≠ 0))) ∧
  (∀ (m : List Host.Cell) (g : Nat) (gal : Gallery) (va : DWord) (k : Acc) (pr : Priv) (e ea bits : Nat)
      (trail : List Nat),
    (2 ^ 56 ≤ va.toNat → translate m g gal va pr k = .fail 4) ∧
    (va.toNat < 2 ^ 56 → walk m g gal va.toNat = .leaf e ea bits trail →
      (e.testBit 5 = true → translate m g gal va .program k = .fail 3) ∧
      (e.testBit 5 = false ∨ pr = .supervisor →
        (e.testBit 4 = false → translate m g gal va pr .fetch = .fail 2) ∧
        (e.testBit 2 = false → translate m g gal va pr .read = .fail 2) ∧
        (e.testBit 3 = false → translate m g gal va pr .write = .fail 2) ∧
        (e.testBit 2 = false ∨ e.testBit 3 = false → translate m g gal va pr .rmw = .fail 2))))

/-- R117, R177 to R183: a memory word leaves every byte but those that it stores to, at the places of its addresses (an MCST
under way at those that it has still to store to), and
the leaf entries of its addresses, whose AC and D the hardware sets (R187). A load stores nothing. The page and stage tables
start at multiples of 8, so that no two entries overlap. A memory word writes no register, predicate or flag at its issue, and
no other thread; one that does not trap writes no trap register either. -/
def Obligations.FrameOfMemoryWords : Prop :=
  (∀ (i : Instr) (s z : State) (t : Thread) (c : Cast),
    memoryWord i = true → s.thread s.focus = some t → s.cast (castOf s.focus) = some c → Unstepped t →
    (∀ g, s.gal c.gallery = some g → g.groot.toNat % 8 = 0 ∧ g.stbase.toNat % 8 = 0) → exec i s = .next z →
    ∀ y, (∀ a ∈ (accesses i t).1, ∀ x, leafCell s c a = some x → Outside y x 8) →
      ((accesses i t).2.2.2.writes = true → ∀ a ∈ (accesses i t).1, ∀ l,
        placeAt s t c (accesses i t).2.2.1 a (accesses i t).2.1 (accesses i t).2.2.2 = some l →
        Outside y l.cell (accesses i t).2.1) →
      (∀ rest n x, t.held = some (.mcst rest n x) → ∀ a ∈ rest, (∀ w, leafCell s c a = some w → Outside y w 8) ∧
        ∀ l, placeAt s t c .global a n .write = some l → Outside y l.cell n) →
      byteAt z.mem y = byteAt s.mem y) ∧
  (∀ (i : Instr) (s z : State) (t u : Thread),
    memoryWord i = true → s.thread s.focus = some t → Unstepped t → exec i s = .next z → z.thread s.focus = some u →
    u.v = t.v ∧ u.u = t.u ∧ u.p = t.p ∧ u.fflags = t.fflags ∧ u.frm = t.frm ∧ SameOthers s z s.focus ∧
    ∀ c, s.cast (castOf s.focus) = some c →
      (∃ (y : State) (x : TrapInfo), z = y.trapAt s.focus t c x) ∨
      (u.tcause = t.tcause ∧ u.tepc = t.tepc ∧ u.tval = t.tval ∧ u.tstat = t.tstat))

/-- R9, R117: a word of one thread that acts on registers alone either traps at its own address, or changes nothing but its
own thread, and there only the registers that it writes. -/
def Obligations.FrameOfRegisterWords : Prop := ∀ (i : Instr) (s z : State) (t : Thread) (c : Cast) (w : RegWrites),
  registerWrites i = some w → s.thread s.focus = some t → s.cast (castOf s.focus) = some c → Unstepped t →
  exec i s = .next z →
  (∃ x, z = s.trapAt s.focus t c x) ∨
  (SameMemory s z ∧ SameMachine s z ∧ SameOthers s z s.focus ∧
    ∃ u, z.thread s.focus = some u ∧ KeepsThread t u w)

/-! ## Words of a window -/

/-- R219: SHFL gives each member the value of the member at its source seat, and its own where that seat is no member;
the source is a number, s[sn], the member's seat XOR a number, or its own vd. R215: members that are released go on past
the word, each with its own registers. -/
def Obligations.ShufflesExchangeLanes : Prop :=
  (∀ (e : Bool) (d a : BitVec 6) (m n : BitVec 5),
    let from_ (ms : List (Nat × Thread)) (p : Nat × Thread) (j : Nat) : Thread :=
      p.2.setLane d.toNat (atSeat ms j a.toNat (p.2.lane a.toNat))
    let regs := [d.toNat, a.toNat, 64 + m.toNat]
    MeetingWord (.shflIdx e d a m n) e m false regs (fun ms p => from_ ms p n.toNat) ∧
    MeetingWord (.shflSidx e d a m n) e m false (regs ++ [64 + n.toNat])
      (fun ms p => from_ ms p ((p.2.uni n.toNat).toNat % 32)) ∧
    MeetingWord (.shflXor e d a m n) e m false regs (fun ms p => from_ ms p (seatOf (tidOf p.1) ^^^ n.toNat)) ∧
    MeetingWord (.shflVidx e d a m) e m false regs (fun ms p => from_ ms p ((p.2.lane d.toNat).toNat % 32))) ∧
  (∀ (s : State) (c : Cast) (e : Bool) (ms : List (Nat × Thread)) (k : Nat) (u : Thread),
    (ms.map (·.1)).Nodup → (∀ p ∈ ms, Unstepped p.2) →
    ((k, u) ∈ ms → ∃ z, (s.release c e ms).thread k = some z ∧ z.v = u.v ∧ z.u = u.u ∧ z.p = u.p ∧ z.fflags = u.fflags ∧
      z.held = none ∧ z.pc = u.pc + 4 ∧ (e = true → z.hdr = u.pc + 4 ∧ z.inScene = false)) ∧
    (k ∉ ms.map (·.1) → (s.release c e ms).thread k = s.thread k) ∧ (s.release c e ms).mem = s.mem)

/-- R220, R221, R112: VOTE, REDUX, SCAN and HAD give every member its result and raise the flags of all operations in every
member; HAD asks for the full mask. The operators and identities are the table's; a stage of the tree joins each seat with
its partner where that is present, SCAN folds each member's range in seat order from the identity, and a stage of the
rotation gives each pair its sum and its difference; the rules' worked values come out. -/
def Obligations.WindowWordsCombineMembers : Prop :=
  (∀ (a b : Word),
    let is_ (k : Nat) (c : Word) : Prop := windowOp k a.toNat b.toNat = (c.toNat, .none)
    is_ 0 (a + b) ∧ is_ 1 (if b.toInt < a.toInt then b else a) ∧ is_ 2 (if a.toInt < b.toInt then b else a) ∧
    is_ 3 (if b.toNat < a.toNat then b else a) ∧ is_ 4 (if a.toNat < b.toNat then b else a) ∧
    is_ 5 (a &&& b) ∧ is_ 6 (a ||| b) ∧ is_ 7 (a ^^^ b) ∧
    windowOp 8 a.toNat b.toNat = fp32.add rne (fp32.value a.toNat) (fp32.value b.toNat) ∧
    windowOp 9 a.toNat b.toNat = fp32.minMax false a.toNat b.toNat ∧
    windowOp 10 a.toNat b.toNat = fp32.minMax true a.toNat b.toNat) ∧
  ((List.range 11).map windowIdentity = [0, 0x7FFF_FFFF, 0x8000_0000, 0xFFFF_FFFF, 0, 0xFFFF_FFFF, 0, 0, 0x8000_0000,
    0x7F80_0000, 0xFF80_0000]) ∧
  (∀ m ∈ [1, 2, 4, 8, 16], ∀ (k j : Nat) (x : List (Option Nat)) (y : List Nat) (f : Fl), x.length = 32 → y.length = 32 → j < 32 →
    (treeStage k m x f).1.getD j none =
      (if j &&& m = 0 then
        match x.getD j none, x.getD (j + m) none with
        | some a, some b => some (windowOp k a b).1
        | none, some b => some b
        | a, none => a
      else x.getD j none) ∧
    (hadStage m y f).1.getD j 0 =
      (if j &&& m = 0 then (fp32.add rne (fp32.value (y.getD j 0)) (fp32.value (y.getD (j + m) 0))).1
      else (fp32.add rne (fp32.value (y.getD (j - m) 0)) (fp32.value (y.getD j 0)).flip).1) ∧
    (∀ g ∈ [Fl.nv, Fl.dz, Fl.of, Fl.uf, Fl.nx],
      g (treeStage k m x f).2 = (g f || (List.range 32).any (fun i => (i &&& m == 0) &&
        match x.getD i none, x.getD (i + m) none with
        | some a, some b => g (windowOp k a b).2
        | _, _ => false)) ∧
      g (hadStage m y f).2 = (g f || (List.range 32).any (fun i => (i &&& m == 0) &&
        (g (fp32.add rne (fp32.value (y.getD i 0)) (fp32.value (y.getD (i + m) 0))).2 ||
          g (fp32.add rne (fp32.value (y.getD i 0)) (fp32.value (y.getD (i + m) 0)).flip).2))))) ∧
  (∀ (k seat : Nat) (incl : Bool) (xs : List (Nat × Nat)),
    let fold (i : Nat) : Nat × Fl := (xs.filter (fun p => decide (p.1 < i) || (incl && p.1 == i))).foldl
      (fun r p => ((windowOp k r.1 p.2).1, r.2.or (windowOp k r.1 p.2).2)) (windowIdentity k, .none)
    (scan k incl xs).1 seat = (fold seat).1 ∧
    ∀ g ∈ [Fl.nv, Fl.dz, Fl.of, Fl.uf, Fl.nx],
      g (scan k incl xs).2 = (g (windowRead k xs) || xs.any (fun p => g (fold p.1).2))) ∧
  (let four := [(0, 0x4B80_0000), (1, 0x3F80_0000), (2, 0x3F80_0000), (3, 0x3F80_0000)]
   treeReduce 8 four = (0x4B80_0001, .inexact) ∧
   ((List.range 4).map (scan 8 true four).1, (scan 8 true four).2) = (List.replicate 4 0x4B80_0000, .inexact)) ∧
  hadamard (List.replicate 32 0x3F80_0000) = (0x40B5_04F3 :: List.replicate 31 0, .none) ∧
  hadamard ((List.replicate 32 0).set 5 0x3F80_0000) =
    ((List.range 32).map (fun j => if (j.testBit 0 ^^ j.testBit 2) then 0xBE35_04F3 else 0x3E35_04F3), .none) ∧
  ∀ (e : Bool) (d a : BitVec 6) (m : BitVec 5) (k : BitVec 4),
  let regs := [d.toNat, a.toNat, 64 + m.toNat]
  let give (p : Nat × Thread) (x : Nat) (f : Fl) : Thread := (p.2.setLane d.toNat (BitVec.ofNat 32 x)).raise f
  (k.toNat < 6 → MeetingWord (.vote e d a m k) e m false regs
    (fun ms p => give p (voteValue k.toNat (seatValues ms a)) .none)) ∧
  MeetingWord (.redux e d a m k) e m false regs (fun ms p =>
    let r := treeReduce k.toNat (seatValues ms a)
    give p r.1 r.2) ∧
  MeetingWord (.scanInc e d a m k) e m false regs (fun ms p =>
    let r := scan k.toNat true (seatValues ms a)
    give p (r.1 (seatOf (tidOf p.1))) r.2) ∧
  MeetingWord (.scanExc e d a m k) e m false regs (fun ms p =>
    let r := scan k.toNat false (seatValues ms a)
    give p (r.1 (seatOf (tidOf p.1))) r.2) ∧
  MeetingWord (.had e d a m) e m true regs (fun ms p =>
    let r := hadamard ((seatValues ms a).map (·.2))
    give p (r.1.getD (seatOf (tidOf p.1)) 0) r.2)

/-- R214, R217, R220: of every word that meets (the four of SHFL, VOTE, REDUX, the two of SCAN, and HAD, which asks for the
full mask): a member whose set is not complete is held with the tick of its arrival; a thread outside the mask takes ILLEGAL
with the mask's register, as does one whose HAD has not the full mask; where a member has Exited every thread of the set
takes RDV, each at its own instruction, with the seats of the mask that have not arrived. The set is the threads of the window
that are held there at the privilege with the mask. -/
def Obligations.RendezvousHoldsOrFails : Prop :=
  (∀ (s : State) (ck w code : Nat) (c : Cast) (pc : DWord) (pr : Priv) (mask : Word),
    let set := s.rdvSet ck w pc pr mask
    (∀ p, p ∈ set ↔ p ∈ s.threads ∧ castOf p.1 = ck ∧ windowOf (tidOf p.1) = w ∧ p.2.pc = pc ∧ p.2.priv = pr ∧
      ∃ since, p.2.held = some (.rdv mask since)) ∧
    (∀ j, j < 32 → ((seatBits set).getLsbD j = true ↔ ∃ p ∈ set, seatOf (tidOf p.1) = j)) ∧
    ((set.map (·.1)).Nodup → EachTraps s (s.failSet ck w c pc pr mask code) c
      (fun _ => trapOf .rdv (BitVec.ofNat 64 (code * 2 ^ 32 + (mask &&& ~~~seatBits set).toNat))) set)) ∧
  ∀ (i : Instr) (m : BitVec 5) (all : Bool) (regs : List Nat) (s : State) (t : Thread) (c : Cast),
  let ck := castOf s.focus
  let w := windowOf (tidOf s.focus)
  let seat := seatOf (tidOf s.focus)
  let held := seatBits (s.rdvSet ck w t.pc t.priv (maskOf t m))
  let member := (maskOf t m).getLsbD seat = true ∧ (all = true → maskOf t m = 0xFFFF_FFFF)
  meetingForm i = some (m, all, regs) → Ready s t c regs →
  (¬ member → exec i s = .next (s.trapAt s.focus t c (trapOf .illegal (BitVec.ofNat 64 (64 + m.toNat))))) ∧
  (member → (∀ p ∈ s.window ck w, p.2.run = .exited → (maskOf t m).getLsbD (seatOf (tidOf p.1)) = false) →
    (∃ j, j < 32 ∧ j ≠ seat ∧ (maskOf t m).getLsbD j = true ∧ held.getLsbD j = false) →
    exec i s = .next (s.putT s.focus { t with held := some (.rdv (maskOf t m) s.tick) })) ∧
  (member → (∃ p ∈ s.window ck w, p.2.run = .exited ∧ (maskOf t m).getLsbD (seatOf (tidOf p.1)) = true) →
    exec i s = .next ((s.failSet ck w c t.pc t.priv (maskOf t m) 1).trapAt s.focus t c
      (trapOf .rdv (rdvTval 0 1 (maskOf t m &&& ~~~held &&& ~~~(1#32 <<< seat))))))

/-! ## Control flow -/

/-- R139 to R147, R29: transfers: the target of each, which of them land, and the links. JTAB refuses an index at or above
its entry count with BOUND, and else goes to the table base plus the signed word that its read of the table finds; where the
target then fails a check, what the read did stands. -/
def Obligations.TransfersAndJumpTables : Prop :=
  (∀ (p : BitVec 4) (i : BitVec 1) (o : BitVec 19) (o18 : BitVec 18) (o16 : BitVec 16) (d a : BitVec 6) (u : BitVec 5)
      (k : BitVec 3) (s : State) (t : Thread) (c : Cast),
    let rel (x : Thread) (n : Int) : DWord := x.pc + BitVec.ofInt 64 (4 * n)
    ((t.pred p.toNat ^^ (i == 1)) = true → Ready s t c [] →
      (s.checkTarget t c (rel t o.toInt) false false = .ok () → exec (.bra p i o) s = .next (wentTo s t (rel t o.toInt)))) ∧
    ((t.pred p.toNat ^^ (i == 1)) = false → Ready s t c [] → exec (.bra p i o) s = .next (wentTo s t (t.pc + 4))) ∧
    Transfers (.call d o18) [d.toNat, d.toNat + 1] [] false false (fun x => rel x o18.toInt)
      (fun x => x.setPair d.toNat (x.pc + 4)) ∧
    Transfers (.jmpi a) [a.toNat, a.toNat + 1] [] true true (fun x => x.pair a.toNat) (fun x => x) ∧
    Transfers (.calli d a) [d.toNat, d.toNat + 1, a.toNat, a.toNat + 1] [] true true (fun x => x.pair a.toNat)
      (fun x => x.setPair d.toNat (x.pc + 4)) ∧
    Transfers (.ret a) [a.toNat, a.toNat + 1] [] true false (fun x => x.pair a.toNat) (fun x => x) ∧
    Transfers (.ucall u o16) [64 + u.toNat] [] false false (fun x => rel x o16.toInt) (fun x => x.putUni u.toNat (x.pc + 4)) ∧
    Transfers (.uret u) [64 + u.toNat] [u.toNat] true false (fun x => x.uni u.toNat) (fun x => x) ∧
    (k.toNat < 7 → Ready s t c (if k = 0 then [] else [64 + u.toNat]) →
      ∃ s' t', MayCharge s s' t t' (if k = 0 then [] else [u.toNat]) ∧
        (uniHolds k.toNat (t.uni u.toNat) = true → s'.checkTarget t' c (rel t' o16.toInt) false false = .ok () →
          exec (.ubra u k o16) s = .next (wentTo s' t' (rel t' o16.toInt))) ∧
        (uniHolds k.toNat (t.uni u.toNat) = false → exec (.ubra u k o16) s = .next (wentTo s' t' (t'.pc + 4))))) ∧
  (∀ (n a : BitVec 6) (b : BitVec 5) (s s1 : State) (t : Thread) (c : Cast) (l : Loc),
    let idx := (t.lane a.toNat).toNat
    let at_ := t.uni b.toNat + BitVec.ofNat 64 (4 * idx)
    let r := s1.readBy t c at_ l 4
    let target := t.uni b.toNat + BitVec.ofInt 64 (BitVec.ofNat 32 r.2.2).toInt
    Ready s t c [a.toNat, 64 + b.toNat] →
    (n.toNat + 1 ≤ idx → exec (.jtab n a b) s = .next (s.trapAt s.focus t c (trapOf .bound (BitVec.ofNat 64 idx)))) ∧
    (idx ≤ n.toNat → ∀ x, s.checked t c s.focus .global at_ 4 .read = .trap x →
      exec (.jtab n a b) s = .next (s.trapAt s.focus t c x)) ∧
    (idx ≤ n.toNat → s.checked t c s.focus .global at_ 4 .read = .ok (s1, l) →
      ReadsAs s1 t c l 4 r.2.2 ∧
      (r.1.checkTarget r.2.1 c target true true = .ok () → exec (.jtab n a b) s = .next (r.1.putT s.focus
        { r.2.1 with pc := target, hdr := target, inScene := false, pfx := none, suppress := false })) ∧
      (∀ x, r.1.checkTarget r.2.1 c target true true = .trap x →
        exec (.jtab n a b) s = .next (r.1.trapAt s.focus r.2.1 c x))))

/-- R140: a register target that is not a multiple of 4 takes TARGET before it is fetched; a target whose fetch fails a check of
R187 takes PAGE; a word there that is no header takes TARGET for a register target; a landing scene of larger budgets takes
BUDGET. TVAL is the target each time, also where the landing descriptor's own fetch fails (log 34). The word fetched is that of
the production's start (R28). A scene whose header, or a word of which, fails its fetch is no scene: its threads take PAGE at its
header (R192). -/
def Obligations.TargetChecksInOrder : Prop :=
  ∀ (s : State) (t : Thread) (c : Cast) (a : DWord) (r l : Bool) (w d : Word) (fk : Nat) (g : Gallery) (p : Prod) (y : Xlat),
  (s.gal c.gallery = some g → tfind s.prods c.prod = some p →
    (translate s.readable c.gallery g a t.priv .fetch = .fail fk → s.fetch c t.priv a = .fail fk) ∧
    (translate s.readable c.gallery g a t.priv .fetch = .ok y →
      s.fetch c t.priv a = .ok (BitVec.ofNat 32 (numAt p.code y.loc.cell 4)))) ∧
  (a.toNat % 4 = 0 ∨ r = false → s.fetch c t.priv a = .fail fk → s.checkTarget t c a r l = .trap ⟨.page, a, fk, 0⟩) ∧
  (a.toNat % 4 = 0 ∨ r = false → s.fetch c t.priv a = .ok w → isHeader w = true → isLanding w = true →
    s.fetch c t.priv (a + 4) = .fail fk → s.checkTarget t c a r l = .trap ⟨.page, a, fk, 0⟩) ∧
  (s.fetch c t.priv a = .fail fk → s.fetchScene c t.priv a = .page fk) ∧
  (a.toNat % 4 ≠ 0 → s.checkTarget t c a true l = .trap (trapOf .target a)) ∧
  (a.toNat % 4 = 0 ∨ r = false → s.fetch c t.priv a = .ok w →
    (isHeader w = false → s.checkTarget t c a r l = if r then .trap (trapOf .target a) else .ok ()) ∧
    (isHeader w = true → isLanding w = false → s.checkTarget t c a r l = if l then .trap (trapOf .target a) else .ok ()) ∧
    (isHeader w = true → isLanding w = true → s.fetch c t.priv (a + 4) = .ok d →
      s.checkTarget t c a r l = if d.toNat % 128 ≤ c.vbud ∧ d.toNat / 2 ^ 8 % 64 ≤ c.sbud then .ok ()
        else .trap (trapOf .budget a)))

/-! ## Uniform words -/

/-- R135 to R137, R35: uniform arithmetic on 64 bits, shifts by the whole of sb, immediates and literals. -/
def Obligations.UniformArithmetic : Prop := ∀ (e : Bool) (d a b : BitVec 5) (i : BitVec 14) (v : BitVec 32),
  let two (w : Instr) (f : DWord → DWord → DWord) : Prop :=
    UniformWord w e 4 [64 + d.toNat, 64 + a.toNat, 64 + b.toNat] [a.toNat, b.toNat]
      (fun t => t.putUni d.toNat (f (t.uni a.toNat) (t.uni b.toNat)))
  two (.uadd e d a b) (fun x y => BitVec.ofNat 64 (x.toNat + y.toNat)) ∧
  two (.usub e d a b) (fun x y => BitVec.ofInt 64 (x.toInt - y.toInt)) ∧
  two (.umul e d a b) (fun x y => BitVec.ofNat 64 (x.toNat * y.toNat)) ∧
  two (.uand e d a b) (fun x y => x &&& y) ∧
  two (.uor e d a b) (fun x y => x ||| y) ∧
  two (.uxor e d a b) (fun x y => x ^^^ y) ∧
  two (.ushl e d a b) (fun x y => if 64 ≤ y.toNat then 0 else BitVec.ofNat 64 (x.toNat * 2 ^ y.toNat)) ∧
  two (.ushr e d a b) (fun x y => if 64 ≤ y.toNat then 0 else BitVec.ofNat 64 (x.toNat / 2 ^ y.toNat)) ∧
  two (.usar e d a b) (fun x y =>
    if 64 ≤ y.toNat then (if x.toInt < 0 then BitVec.ofInt 64 (-1) else 0) else BitVec.ofInt 64 (x.toInt / 2 ^ y.toNat)) ∧
  UniformWord (.umov e d a) e 4 [64 + d.toNat, 64 + a.toNat] [a.toNat] (fun t => t.putUni d.toNat (t.uni a.toNat)) ∧
  UniformWord (.uaddi e d a i) e 4 [64 + d.toNat, 64 + a.toNat] [a.toNat]
    (fun t => t.putUni d.toNat (t.uni a.toNat + BitVec.ofInt 64 i.toInt)) ∧
  UniformWord (.movl e d v) e 8 [64 + d.toNat] [] (fun t => t.putUni d.toNat (BitVec.ofInt 64 v.toInt)) ∧
  UniformWord (.movlHi e d v) e 8 [64 + d.toNat] [d.toNat]
    (fun t => t.putUni d.toNat (BitVec.ofNat 64 (v.toNat * 2 ^ 32 + (t.uni d.toNat).toNat % 2 ^ 32)))

/-! ## Control and status registers -/

/-- R199, R107, R106, R76, R61, R195, R202, R69, R363, R217: what CSRR reads and what a written value leaves, register by
register; the steppings that the fuses give read 0 (log 6). CSRW writes the value of s[r], CSRS the old value OR it, CSRC the
old value AND NOT it, each through the access code of every field; TCAUSE is cleared by ones, so that CSRC clears nothing. -/
def Obligations.CsrReadsAndWrites : Prop :=
  (∀ (e : Bool) (n : BitVec 12) (r : BitVec 5) (s : State) (t : Thread) (c : Cast) (g : Gallery) (k i : Nat) (x : DWord),
    Ready s t c [64 + r.toNat] → csrCheck n.toNat false t = none →
    exec (.csrr e n r) s = .next (wentOn s (t.putUni r.toNat (csrRead s t c n.toNat)) e 4) ∧
    (c.res = .core k → s.gal c.gallery = some g → i < 8 →
      (n.toNat, x) ∈ [(0x001, t.fflags.setWidth 64), (0x002, t.frm.setWidth 64), (0x003, t.lodc.setWidth 64),
        (0x200, t.ident.tid.setWidth 64), (0x201, t.ident.ntid.setWidth 64), (0x202, t.ident.castid.setWidth 64),
        (0x203, t.ident.seat.setWidth 64), (0x204, t.ident.ensid.setWidth 64), (0x205, t.ident.compid.setWidth 64),
        (0x400, t.tcause.setWidth 64), (0x401, t.tepc), (0x402, c.tvec), (0x403, t.tval),
        (0x404, BitVec.ofNat 64 ((if t.tstat.ppriv = .supervisor then 1 else 0) + (if t.tstat.nest then 2 else 0) +
          (if t.tstat.skip then 4 else 0) + t.tstat.dist.toNat * 2 ^ 8 + t.tstat.acc.toNat * 2 ^ 28 +
          (if t.tstat.pendSlice then 2 ^ 30 else 0) + (if t.tstat.pendHalt then 2 ^ 31 else 0) +
          t.tstat.fkind.toNat * 2 ^ 32)),
        (0x405, t.tscratch),
        (0x406, if t.step then 1 else 0), (0x410, t.pidx), (0x411, (s.core k).wingage.setWidth 64),
        (0x412, BitVec.ofNat 64 ((if c.notify then 2 ^ 32 else 0) + c.ticks)), (0x413, BitVec.ofNat 64 c.rdvto),
        (0x420 + i, tget c.bpaddr i 0), (0x428 + i, tget c.bpctl i 0), (0x430 + i % 4, tget c.wpaddr (i % 4) 0),
        (0x434 + i % 4, tget c.wpctl (i % 4) 0),
        (0x600, 0x4E52_564F), (0x601, 0x0053_3536), (0x602, BitVec.ofNat 64 (2 + s.dev.fw.toNat * 2 ^ 16)),
        (0x603, BitVec.ofNat 64 (s.dev.good.length % 256 + g.tiles.length % 256 * 2 ^ 8 + g.names % 2 ^ 14 * 2 ^ 16)),
        (0x604, BitVec.ofNat 64 (2048 + 64 * 2 ^ 12 + 34 * 2 ^ 19 + 8 * 2 ^ 25 + 16 * 2 ^ 29))] →
      csrRead s t c n.toNat = x)) ∧
  (∀ (e : Bool) (n : BitVec 12) (r : BitVec 5) (s : State) (t : Thread) (c : Cast),
    Ready s t c [64 + r.toNat] → csrCheck n.toNat true t = none → (s.lag t).getLsbD r.toNat = false →
    let old := csrRead s t c n.toNat
    let x := t.uni r.toNat
    let put (y : DWord) : State :=
      let w := csrPut s s.focus t c n.toNat y
      (w.s.putC (castOf s.focus) w.c).finish s.focus w.t w.c e 4
    exec (.csrw e n r) s = .next (put x) ∧
    (n.toNat ≠ 0x400 → exec (.csrs e n r) s = .next (put (old ||| x)) ∧ exec (.csrc e n r) s = .next (put (old &&& ~~~x))) ∧
    (n.toNat = 0x400 → exec (.csrs e n r) s = .next (put x) ∧ exec (.csrc e n r) s = .next (put 0))) ∧
  (∀ (s : State) (tk k i : Nat) (t : Thread) (c : Cast) (y : DWord), c.res = .core k →
    let x := y.toNat
    let age (x : Nat) : BitVec 11 := BitVec.ofNat 11
      (if x % 2 ^ 11 < 16 then 16 else if 1024 < x % 2 ^ 11 then 1024 else x % 2 ^ 11)
    let kept (lo n : Nat) : DWord := BitVec.ofNat 64 (x % 2 ^ 44 / 2 ^ lo * 2 ^ lo + x % 2 ^ n)
    let put (n : Nat) : CsrRes := csrPut s tk t c n y
    put 0x001 = ⟨s, { t with fflags := BitVec.ofNat 5 x }, c⟩ ∧
    put 0x002 = ⟨s, { t with frm := if 1 ≤ x % 8 ∧ x % 8 ≤ 5 then BitVec.ofNat 3 x else t.frm }, c⟩ ∧
    put 0x003 = ⟨s, { t with lodc := BitVec.ofNat 32 x }, c⟩ ∧
    put 0x400 = ⟨s, { t with tcause := t.tcause &&& ~~~(BitVec.ofNat 23 x) }, c⟩ ∧
    put 0x401 = ⟨s, { t with tepc := BitVec.ofNat 64 (x % 2 ^ 56 / 4 * 4) }, c⟩ ∧
    put 0x402 = ⟨s, t, { c with tvec := BitVec.ofNat 64 (x % 2 ^ 56 / 4 * 4 + x % 2) }⟩ ∧
    put 0x403 = ⟨s, { t with tval := y }, c⟩ ∧
    put 0x404 = ⟨s, { t with tstat := {
      fkind := BitVec.ofNat 8 (x / 2 ^ 32), pendHalt := y.getLsbD 31, pendSlice := y.getLsbD 30,
      acc := BitVec.ofNat 2 (x / 2 ^ 28), dist := BitVec.ofNat 5 (x / 2 ^ 8), skip := y.getLsbD 2, nest := y.getLsbD 1,
      ppriv := if y.getLsbD 0 then .supervisor else .program } }, c⟩ ∧
    put 0x405 = ⟨s, { t with tscratch := y }, c⟩ ∧
    put 0x406 = ⟨if y.getLsbD 1 then s.haltCast (castOf tk) (some tk) else s, { t with step := y.getLsbD 0 }, c⟩ ∧
    put 0x410 = ⟨s, { t with pidx := y }, c⟩ ∧
    put 0x411 = ⟨s.putCore k { s.core k with wingage := age x }, t, c⟩ ∧
    put 0x412 = ⟨s, t, { c with notify := y.getLsbD 32, ticks := Nat.max 1000 (x % 2 ^ 32) }⟩ ∧
    put 0x413 = ⟨s, t, { c with rdvto := Nat.min (x % 2 ^ 25) (2 ^ 24) }⟩ ∧
    (i < 8 → put (0x420 + i) = ⟨s, t, { c with bpaddr := tset c.bpaddr i (BitVec.ofNat 64 (x % 2 ^ 56 / 4 * 4)) 0 }⟩ ∧
      put (0x428 + i) = ⟨s, t, { c with bpctl := tset c.bpctl i (kept 22 3) 0 }⟩) ∧
    (i < 4 → put (0x430 + i) = ⟨s, t, { c with wpaddr := tset c.wpaddr i (BitVec.ofNat 64 (x % 2 ^ 56)) 0 }⟩ ∧
      put (0x434 + i) = ⟨s, t, { c with wpctl := tset c.wpctl i (kept 17 6) 0 }⟩)) ∧
  (∀ (s : State) (tk : Nat) (t : Thread),
    let z := s.haltCast (castOf tk) (some tk)
    z.mem = s.mem ∧ z.thread tk = s.thread tk ∧
    (∀ j, castOf j ≠ castOf tk → z.thread j = s.thread j) ∧
    (∀ j, j ≠ tk → castOf j = castOf tk → s.thread j = some t → z.thread j = some
      (if t.run = .exited then t else if t.priv = .program then { t with haltDue := true }
        else { t with tstat := { t.tstat with pendHalt := true } })))

/-- R43, R44: an unassigned number takes ILLEGAL, whoever asks; a number above the thread's privilege PRIV, and no thread
has the curator's; a write to a read-only number ILLEGAL; each with the number, and nothing is written. Any other access
passes. The ranges of the table are those whose first and last numbers are assigned and whose neighbours are not (R384). -/
def Obligations.CsrAccessRules : Prop :=
  (∀ n ∈ [0x001, 0x003, 0x200, 0x205, 0x400, 0x406, 0x410, 0x413, 0x420, 0x427, 0x428, 0x42F, 0x430, 0x433, 0x434, 0x437, 0x600,
    0x604, 0xC00, 0xC02, 0xC06, 0xE00], csrAssigned n = true) ∧
  (∀ n ∈ [0x000, 0x004, 0x1FF, 0x206, 0x3FF, 0x407, 0x40F, 0x414, 0x41F, 0x438, 0x5FF, 0x605, 0x800, 0xBFF, 0xC01, 0xC07, 0xDFF,
    0xE01, 0xFFF], csrAssigned n = false) ∧
  ∀ (e : Bool) (n : BitVec 12) (r : BitVec 5) (s : State) (t : Thread) (c : Cast),
  s.thread s.focus = some t → s.cast (castOf s.focus) = some c →
  let trapped (k : Cause) : Out := .next (s.trapAt s.focus t c (trapOf k (BitVec.ofNat 64 n.toNat)))
  let lowest := n.toNat / 2 ^ 10
  let writes (o : Out) : Prop := exec (.csrw e n r) s = o ∧ exec (.csrs e n r) s = o ∧ exec (.csrc e n r) s = o
  (csrAssigned n.toNat = false → exec (.csrr e n r) s = trapped .illegal ∧ writes (trapped .illegal)) ∧
  (csrAssigned n.toNat = true →
    (lowest = 3 ∨ (lowest = 1 ∧ t.priv = .program) → exec (.csrr e n r) s = trapped .priv ∧ writes (trapped .priv)) ∧
    (lowest = 0 ∨ (lowest = 1 ∧ t.priv = .supervisor) →
      csrCheck n.toNat false t = none ∧
      (n.getLsbD 9 = true → writes (trapped .illegal)) ∧
      (n.getLsbD 9 = false → csrCheck n.toNat true t = none)))

/-- R69, R106, R190, R195, R203, R217, R363, R384: the writes that have rows of their own, each completed as the write of
its register; curator writes: GSEL at once; the bases of the gallery that GSEL names are held and PEND is set, SNAPRES is in
force at once where no snapshot is in flight; where no gallery bears the tag, nothing is written. Every other assigned
writable number acts for the thread in focus as CSRW does; a number that is not assigned, is read-only or has a row of its
own writes nothing here. -/
def Obligations.RegisterWritesWithRowsOfTheirOwn : Prop :=
  (∀ (y : BitVec 64) (n : BitVec 12) (s : State) (t : Thread) (c : Cast) (k : Nat),
    s.thread s.focus = some t → s.cast (castOf s.focus) = some c →
    let x := y.toNat
    let ck := castOf s.focus
    let age : BitVec 11 := BitVec.ofNat 11
      (if x % 2 ^ 11 < 16 then 16 else if 1024 < x % 2 ^ 11 then 1024 else x % 2 ^ 11)
    let done (z : State) (u : Thread) (d : Cast) : Out := .next ((z.putC ck d).putT s.focus u)
    let plain (m : Nat) : Prop := m ∈ [0x001, 0x003, 0x401, 0x403, 0x404, 0x405, 0x410] ∨ (0x420 ≤ m ∧ m ≤ 0x437)
    (c.res = .core k → exec (.wingageWrite y) s = done (s.putCore k { s.core k with wingage := age }) t c) ∧
    (c.coreNo = none → exec (.wingageWrite y) s = done s t c) ∧
    exec (.frmWrite y) s = done s { t with frm := if 1 ≤ x % 8 ∧ x % 8 ≤ 5 then BitVec.ofNat 3 x else t.frm } c ∧
    exec (.tcauseClear y) s = done s { t with tcause := t.tcause &&& ~~~(BitVec.ofNat 23 x) } c ∧
    exec (.tvecWrite y) s = done s t { c with tvec := BitVec.ofNat 64 (x % 2 ^ 56 / 4 * 4 + x % 2) } ∧
    exec (.haltcast y) s =
      done (if y.getLsbD 1 then s.haltCast ck (some s.focus) else s) { t with step := y.getLsbD 0 } c ∧
    exec (.rdvtoWrite y) s = done s t { c with rdvto := Nat.min (x % 2 ^ 25) (2 ^ 24) } ∧
    exec (.tsliceWrite y) s = done s t { c with notify := y.getLsbD 32, ticks := Nat.max 1000 (x % 2 ^ 32) } ∧
    (plain n.toNat → let w := csrPut s s.focus t c n.toNat y
      exec (.csrPlainWrite n y) s = done w.s w.t w.c) ∧
    (¬ plain n.toNat → n.toNat ≠ 0xC00 → exec (.csrPlainWrite n y) s = .next s)) ∧
  (∀ (y : BitVec 64) (n : BitVec 12) (s : State) (g : Gallery),
    let k := s.dev.gsel.toNat
    exec (.csrPlainWrite 0xC00 y) s = .next { s with dev := { s.dev with gsel := BitVec.ofNat 8 y.toNat } } ∧
    (s.gal k = none → exec (.curatorBaseWrite n y) s = .next s ∧ exec (.snapresWrite y) s = .next s) ∧
    (s.gal k = some g →
      exec (.curatorBaseWrite 0xC02 y) s = .next (s.putG k { g with grootW := y, pend := true }) ∧
      exec (.curatorBaseWrite 0xC03 y) s = .next (s.putG k { g with ntbaseW := y, pend := true }) ∧
      exec (.curatorBaseWrite 0xC04 y) s = .next (s.putG k { g with stbaseW := y, pend := true }) ∧
      exec (.curatorBaseWrite 0xC05 y) s = .next (s.putG k { g with fpbaseW := y, pend := true }) ∧
      (g.snap = none → exec (.snapresWrite y) s = .next (s.putG k { g with snapresW := y, snapres := y })) ∧
      (g.snap ≠ none → exec (.snapresWrite y) s = .next (s.putG k { g with snapresW := y }))))

/-- R200: RDTIME reads the reference ticks since reset. -/
def Obligations.TimeIsReferenceTicks : Prop := ∀ (e : Bool) (r : BitVec 5) (s : State) (t : Thread) (c : Cast) (n : Nat),
  (Ready s t c [64 + r.toNat] →
    exec (.rdtime e r) s = .next (wentOn s (t.putUni r.toNat (BitVec.ofNat 64 s.tick)) e 4)) ∧
  (s.passTime n).tick = s.tick + n

/-! ## Traps -/

/-- R193, R195: trap entry of a running thread where TVEC is enabled: the cause's bit is set beside those that stand, TEPC
takes the instruction's address, TVAL the value, TSTAT the privilege before, the distance to the header and whether traps
nest; the thread is Filed at TVEC.BASE at supervisor privilege with no cue bound, and its registers are unchanged. -/
def Obligations.TrapEntrySavesAndEnters : Prop := ∀ (s : State) (t : Thread) (c : Cast) (x : TrapInfo),
  c.tvecEn = true → t.held = none → t.run = .member → t.dueHalt = false → t.dueSlice = false →
  (t.priv = .program ∨ pcBits t.instrPc ≠ c.tvecBase) →
  ∃ u, (s.trapAt s.focus t c x).thread s.focus = some u ∧
    u.tcause = t.tcause ||| (1#23 <<< x.cause.num) ∧ u.tepc = pcBits t.instrPc ∧ u.tval = x.tval ∧
    u.tstat.ppriv = t.priv ∧ u.tstat.fkind = BitVec.ofNat 8 x.fkind ∧ u.tstat.acc = BitVec.ofNat 2 x.acc ∧
    u.tstat.dist = BitVec.ofNat 5 ((t.instrPc - t.hdr).toNat / 4) ∧
    u.tstat.nest = decide (t.priv = .supervisor) ∧
    u.priv = .supervisor ∧ u.pc = c.tvecBase ∧ u.hdr = c.tvecBase ∧ u.run = .filed ∧ u.inScene = false ∧
    u.cueA = 15 ∧ u.cueB = 15 ∧ u.v = t.v ∧ u.u = t.u ∧ u.p = t.p ∧ u.k = t.k ∧ u.fflags = t.fflags ∧
    (s.trapAt s.focus t c x).mem = s.mem ∧ SameOthers s (s.trapAt s.focus t c x) s.focus

/-- R197, R346: where TVEC is not enabled, or the handler's own first instruction traps, the thread ends as unhandled; its
production counts it, and keeps the one with the lowest key, which is that of the core's latest access (log 35). -/
def Obligations.UnhandledTrapsEndTheThread : Prop :=
  ∀ (s : State) (t : Thread) (c : Cast) (x : TrapInfo) (p : Prod),
  tfind s.prods c.prod = some p →
  (c.tvecEn = false ∨ (t.priv = .supervisor ∧ pcBits t.instrPc = c.tvecBase)) →
  ∃ u q, (s.trapAt s.focus t c x).thread s.focus = some u ∧ u.run = .exited ∧
    tfind (s.trapAt s.focus t c x).prods c.prod = some q ∧ q.unhandled = p.unhandled + 1 ∧
    (p.first ≠ [] → (s.nowKey c.agent).before p.firstKey = false → q.first = p.first ∧ q.firstKey = p.firstKey) ∧
    (p.first = [] ∨ (s.nowKey c.agent).before p.firstKey = true → q.firstKey = s.nowKey c.agent ∧ q.first.length = 4 ∧
      q.first.getD 0 0 = BitVec.ofNat 64 c.gidx ∧
      q.first.getD 1 0 = BitVec.ofNat 64 (tidOf s.focus) ∧ q.first.getD 3 0 = pcBits t.instrPc)

/-- R198: TRAP and BKPT take their cause with the code as TVAL, and TEPC past the instruction. -/
def Obligations.SoftwareTrapsResumeAfterThemselves : Prop :=
  ∀ (e : Bool) (code : BitVec 16) (s : State) (t : Thread) (c : Cast),
  Ready s t c [] → c.tvecEn = true → t.held = none → t.run = .member → t.dueHalt = false → t.dueSlice = false →
  (t.priv = .program ∨ pcBits (t.pc + 4) ≠ c.tvecBase) →
  (∃ z u, exec (.trap e code) s = .next z ∧ z.thread s.focus = some u ∧ u.tcause = t.tcause ||| (1#23 <<< 16) ∧
    u.tepc = pcBits (t.pc + 4) ∧ u.tval = BitVec.ofNat 64 code.toNat ∧ u.priv = .supervisor ∧ u.pc = c.tvecBase) ∧
  (∃ z u, exec (.bkpt e code) s = .next z ∧ z.thread s.focus = some u ∧ u.tcause = t.tcause ||| (1#23 <<< 17) ∧
    u.tepc = pcBits (t.pc + 4) ∧ u.tval = BitVec.ofNat 64 code.toNat ∧ u.priv = .supervisor ∧ u.pc = c.tvecBase)

/-- R196, R4: RETT resumes at TEPC under the header DIST words before it, at the privilege that TSTAT holds; a HALT or SLICE
held in PEND enters again at once where that privilege is program, but in a quiesce of the gallery stays held (R391, log 24).
At program privilege RETT takes PRIV. -/
def Obligations.ReturnFromTraps : Prop := ∀ (s : State) (t : Thread) (c : Cast),
  (Ready s t c [] → t.priv = .supervisor →
    (t.tstat.ppriv = .supervisor ∨ (t.tstat.pendHalt = false ∧ t.tstat.pendSlice = false) ∨ s.quiescing c = true) →
    ∃ u, exec .rett s = .next (s.putT s.focus u) ∧ u.priv = t.tstat.ppriv ∧ u.pc = t.tepc ∧
      u.hdr = t.tepc - BitVec.ofNat 64 (4 * t.tstat.dist.toNat) ∧ u.run = .filed ∧ u.inScene = false ∧
      u.suppress = t.tstat.skip ∧ u.tstat = { t.tstat with skip := false } ∧ u.v = t.v ∧ u.u = t.u ∧ u.k = t.k ∧
      u.tcause = t.tcause ∧ u.tval = t.tval) ∧
  (Ready s t c [] → t.priv = .supervisor → t.tstat.ppriv = .program → t.tstat.pendHalt = true → c.tvecEn = true →
    s.quiescing c = false → t.held = none → t.run = .member →
    ∃ z u, exec .rett s = .next z ∧ z.thread s.focus = some u ∧ u.tcause.getLsbD 21 = true ∧ u.priv = .supervisor ∧
      u.tepc = pcBits t.tepc ∧ u.pc = c.tvecBase) ∧
  (s.thread s.focus = some t → s.cast (castOf s.focus) = some c → t.priv = .program →
    exec .rett s = .next (s.trapAt s.focus t c (trapOf .priv 0)))

/-- R202: a single-stepped thread at program privilege completes its instruction and then takes STEP, before the next: NOP
always, and every word of one thread that acts on registers alone where it takes no trap of its own (R192). A prefix is no
instruction by itself. -/
def Obligations.SingleStepTrapsAfterOneInstruction : Prop := ∀ (e : Bool) (s : State) (t : Thread) (c : Cast),
  let stepped (z : State) (n : Nat) : Prop := ∃ u, z.thread s.focus = some u ∧ u.tcause = t.tcause ||| (1#23 <<< 20) ∧
    u.tepc = pcBits (t.pc + BitVec.ofNat 64 n) ∧ u.priv = .supervisor ∧ u.pc = c.tvecBase ∧ u.hdr = c.tvecBase ∧
    u.tstat.nest = false ∧ u.tstat.ppriv = .program ∧ z.mem = s.mem ∧ SameOthers s z s.focus
  s.thread s.focus = some t → s.cast (castOf s.focus) = some c →
  t.step = true → t.priv = .program → c.tvecEn = true → t.held = none → t.run = .member →
  t.dueHalt = false → t.dueSlice = false → s.takeOwed s.focus t c = none →
  (breakpointAt c t (tidOf s.focus) t.pc = none → ∃ z, exec (.nop e) s = .next z ∧ stepped z 4) ∧
  (∀ (i : Instr) (w : RegWrites) (z : State), registerWrites i = some w → isPrefix i = false → exec i s = .next z →
    (∃ x, z = s.trapAt s.focus t c x) ∨ stepped z (wordBytes (encode i)).length)

/-- R4, R44, R60, R80, R192, R201: of every word, with the registers that it names in field order (of a masked-off lane word
those that it zeroes): a word that the thread's privilege refuses takes its trap first; then a register at or above its
budget takes BUDGET with the register's number, before an outstanding register takes HAZARD with its number, before a
breakpoint at the word takes HWBP with its own number. What a masked-off lane word is checked for is log 7's, that a prefix's vc
field comes last log 16's (the model's inferences), and that FENCE and TFETCH, which take no trap after decode, still take HWBP
log 34's (the model's choice). -/
def Obligations.ChecksBeforeAWordInOrder : Prop :=
  ∀ (i : Instr) (regs : List Nat) (s : State) (t : Thread) (c : Cast) (r n : Nat),
  let above (r : Nat) : Bool := if r < 64 then decide (c.vbud ≤ r) else decide (c.sbud ≤ r - 64)
  let trapped (k : Cause) (v : Nat) : Out := .next (s.trapAt s.focus t c (trapOf k (BitVec.ofNat 64 v)))
  s.thread s.focus = some t → s.cast (castOf s.focus) = some c → t.held = none → namedRegs i t = some regs →
  (∀ x, wordPriv i t = some x → exec i s = .next (s.trapAt s.focus t c x)) ∧
  (wordPriv i t = none →
    (regs.find? above = some r → exec i s = trapped .budget r) ∧
    (InBudget c regs → regs.find? (fun r => t.outst.any (fun o => o.regs.contains r)) = some r →
      exec i s = trapped .hazard r) ∧
    (InBudget c regs → NoHazard t regs → breakpointAt c t (tidOf s.focus) t.pc = some n →
      exec i s = trapped .hwbp n))

/-! ## WAIT -/

/-- R87, R89 to R91: a WAIT whose registers are legal makes its thread Waiting on them, with the phases captured in PIDX; one
whose PIDX holds the tag of a WAIT goes on from the time spent and the phases there; an illegal register, the first in
order, takes ILLEGAL before any load. It ends, with p[pd] clear, once its conditions are met, and orders the thread's later
reads of host memory where a compare of host memory met them (R316); with p[pd] set where its time is up and they are not;
else its thread goes on waiting. It is then Filed at the next scene with PIDX 0. A failing load traps. It evaluates at every
tick, and again when a cue that it names has changed. -/
def Obligations.WaitsBeginAndEnd : Prop :=
  (∀ (p : BitVec 4) (a : BitVec 5) (n : BitVec 2) (r : BitVec 5) (s : State) (t : Thread) (c : Cast) (g : Gallery),
    let w (all : Bool) : WaitOn := ⟨p.toNat, a.toNat, n.toNat + 1, all, r.toNat, none⟩
    let regs := (List.range (n.toNat + 1)).map (fun i => 64 + (a.toNat + i)) ++ [64 + r.toNat]
    let both (o : Bool → Out) : Prop := exec (.waitAny p a n r) s = o false ∧ exec (.waitAll p a n r) s = o true
    let bad (i : Nat) : Prop := condIllegal g (t.uni (a.toNat + i)).toNat = true
    let late : Prop := (t.uni r.toNat).toNat / 2 ^ 25 % 2 ^ 7 ≠ 0 ∨ 2 ^ 24 < (t.uni r.toNat).toNat % 2 ^ 25
    Ready s t c regs → s.lag t = 0 → s.gal c.gallery = some g →
    (∀ k, k ≤ n.toNat → bad k → (∀ i, i < k → ¬ bad i) →
      both (fun _ => .next (s.trapAt s.focus t c (trapOf .illegal (BitVec.ofNat 64 (64 + (a.toNat + k))))))) ∧
    ((∀ i, i ≤ n.toNat → ¬ bad i) → late →
      both (fun _ => .next (s.trapAt s.focus t c (trapOf .illegal (BitVec.ofNat 64 (64 + r.toNat)))))) ∧
    ((∀ i, i ≤ n.toNat → ¬ bad i) → ¬ late →
      (t.pidx.toNat / 2 ^ 60 = 1 → both (fun all => .next (s.putT s.focus { t with
        pidx := BitVec.ofNat 64 (2 ^ 60 + t.pidx.toNat / 2 ^ 35 % 2 ^ 25 * 2 ^ 35 + t.pidx.toNat % 2 ^ 32)
        run := .waiting, waitOn := some (w all), waitSince := s.tick }))) ∧
      (t.pidx.toNat / 2 ^ 60 ≠ 1 →
        (∀ s1 t1 phases, State.capture s.focus c ((w true).descriptors t) 0 s t 0 = .ok (s1, t1, phases) →
          both (fun all => .next (s1.putT s.focus { t1 with
            pidx := BitVec.ofNat 64 (2 ^ 60 + phases)
            run := .waiting, waitOn := some (w all), waitSince := s1.tick }))) ∧
        (∀ s1 t1 x, State.capture s.focus c ((w true).descriptors t) 0 s t 0 = .late s1 t1 x →
          both (fun _ => .next (s1.trapAt s.focus t1 c x)))))) ∧
  (∀ (g : Gallery) (x : Nat), x < 2 ^ 64 → (condIllegal g x = true ↔
    (x / 2 ^ 60 = 0 ∧ (x / 2 ^ 12 ≠ 0 ∨ x % 2 ^ 12 = 0)) ∨
    (x / 2 ^ 60 = 1 ∧ (6 ≤ x / 2 ^ 57 % 8 ∨ x % 4 ≠ 0)) ∨
    (x / 2 ^ 60 = 2 ∧ x / 16 % 2 ^ 56 ≠ 0) ∨
    (x / 2 ^ 60 = 3 ∧ x / 2 ^ 56 % 16 ≠ 0) ∨
    (x / 2 ^ 60 = 4 ∧ (x / 2 ^ 40 % 2 ^ 20 ≠ 0 ∨ x / 2 ^ 12 % 16 ≠ 0 ∨ calendarKey g (x % 2 ^ 12) = none)) ∨
    (x / 2 ^ 60 = 5 ∧ (x / 2 ^ 57 % 8 ≠ 0 ∨ x % 16 ≠ 0)) ∨ 6 ≤ x / 2 ^ 60)) ∧
  (∀ (s s1 : State) (tk : Nat) (t t1 : Thread) (c : Cast) (w : WaitOn) (bs : List Bool),
    let ds := w.descriptors t
    let conds := State.conditions tk c ((t.uni w.st >>> 32).setWidth 32) (fld t.pidx.toNat 0 32) ds 0 s t []
    let late := w.timeout t ≠ 0 ∧ w.timeout t ≤ t.elapsed s.tick
    let met := (w.all = true ∧ ∀ b ∈ bs, b = true) ∨ (w.all = false ∧ ∃ b ∈ bs, b = true)
    let ended (u : Thread) (b : Bool) : State := s1.putT tk
      { u.setPred w.pd b with
        pc := u.pc + 4
        hdr := u.pc + 4
        inScene := false
        pfx := none
        suppress := false
        pidx := 0
        waitOn := none
        run := .filed
        age := s.tick }
    s.thread tk = some t → s.cast (castOf tk) = some c → t.run = .waiting → t.waitOn = some w → Unstepped t1 →
    (conds = .ok (s1, t1, bs) →
      (met → (∃ p ∈ ds.zip bs, p.2 = true ∧ s1.condHost t1 c p.1 = true) →
        exec (.waitEvaluate tk) s = .next (ended { t1 with hostFrom := s1.hostCount } false)) ∧
      (met → (∀ p ∈ ds.zip bs, p.2 = true → s1.condHost t1 c p.1 = false) →
        exec (.waitEvaluate tk) s = .next (ended t1 false)) ∧
      (¬ met → late → exec (.waitEvaluate tk) s = .next (ended t1 true)) ∧
      (¬ met → ¬ late → exec (.waitEvaluate tk) s =
        .next (s1.putT tk { t1 with waitOn := some { w with cues := some (w.cuesNow t) } }))) ∧
    (∀ x, conds = .late s1 t1 x → exec (.waitEvaluate tk) s = .next (s1.trapAt tk t1 c x)) ∧
    (late → exec (.waitTimeout tk) s = exec (.waitEvaluate tk) s) ∧
    (¬ late → exec (.waitTimeout tk) s = .next s) ∧
    s.threadTick tk = s.evaluated tk ∧ (t.evaluatesNow = true ↔ w.cues ≠ some (w.cuesNow t)))

/-! ## Convergence registers, barriers, matrix words -/

/-- R223, R224, R227, R229 to R231: CONV declares a register's set, its second register checked first (log 16); while the
operation is issued or threads are held at q, a program takes MISMATCH, and a supervisor's declaration replaces the old one:
the held signers take MISMATCH, and over an issued operation it waits for its completion. QREAD reads a register. BINIT sets up
a barrier record, and BAR arrives at one: it goes on with the phase where it only arrives or drops, and else waits for the
phase to move; resumed, it only waits; a malformed record takes ILLEGAL with its address. An arrival counts one more arrived,
a drop expects one less; where all that are expected have arrived, none have arrived and the phase moves by one. What QREAD counts as signed in the
ISSUED state, and which declaration a CONV over it is compared with, is log 34 (the model's choices). -/
def Obligations.ConvergenceAndBarrierWords : Prop :=
  (∀ (e : Bool) (d q a b sel : BitVec 5),
    EffectWord (.conv e q a b) e [64 + a.toNat, 64 + b.toNat] [a.toNat, b.toNat] (fun s t c =>
      let ck := castOf s.focus
      let w := t.uni a.toNat
      let x := t.uni b.toNat
      let r := c.qreg q.toNat
      let new := if w = 0 ∨ x.toNat % 2 ^ 32 = 0 then none else some (w, BitVec.ofNat 32 x.toNat, x.getLsbD 32)
      let s1 := s.abandon ck q.toNat 1
      let put (z : State) (y : QReg) : Res (State × Thread) :=
        .ok (z.putC ck (((z.cast ck).getD c).setQ q.toNat y), t)
      if 2 ^ 33 ≤ x.toNat then .trap (trapOf .illegal (BitVec.ofNat 64 (64 + b.toNat)))
      else if 2 ^ (c.ntid / 32) ≤ w.toNat then .trap (trapOf .illegal (BitVec.ofNat 64 (64 + a.toNat)))
      else if x.getLsbD 32 = true ∧ ((tfind s.prods c.prod).map Prod.cpe) ≠ some 4 then .trap (mismatch 2 q.toNat)
      else if new = r.declared then .ok (s, t)
      else if r.state = .issued ∨ s.heldSigners ck q.toNat ≠ [] then
        if t.priv = .program then .trap (mismatch 1 q.toNat)
        else if r.state = .issued then put s1 { r with next := some (new.getD (0, 0, false)) }
        else put s1 (r.declare new)
      else put s (r.declare new)) ∧
    EffectWord (.qread e d q sel) e [64 + d.toNat] [] (fun s t c =>
      .ok (s, t.putUni d.toNat (s.qread (castOf s.focus) q.toNat (tidOf s.focus) (c.qreg q.toNat) sel.toNat)))) ∧
  (∀ (s : State) (ck q tid : Nat) (r : QReg),
    s.qread ck q tid r 0 = BitVec.ofNat 64
      ((match r.state with | .empty => 0 | .opened => 1 | .issued => 2 | .done => 3) * 2 ^ 62 +
        (if r.quartet then 2 ^ 61 else 0) + (s.qMembers ck r).length * 2 ^ 36 + (s.signed ck q r).length * 2 ^ 24 +
        r.gen.toNat) ∧
    s.qread ck q tid r 1 = r.w ∧
    s.qread ck q tid r 2 = BitVec.ofNat 64 ((if r.quartet then 2 ^ 32 else 0) + r.m.toNat) ∧
    s.qread ck q tid r 3 = BitVec.ofNat 64
      (seatBits ((s.signed ck q r).filter (fun p => windowOf (tidOf p.1) == windowOf tid))).toNat ∧
    (∀ p ∈ s.signed ck q r, p ∈ s.threads ∧ castOf p.1 = ck ∧
      (r.state = .issued → ∃ x ∈ r.signers, x.1 = p.1) ∧
      (r.state ≠ .issued → (p.2.signs q).isSome = true ∧ ∀ o ∈ r.owed, o.1 ≠ tidOf p.1))) ∧
  (∀ (e : Bool) (a b : BitVec 5) (s s0 s1 : State) (t : Thread) (c : Cast) (l : Loc),
    let x := (t.uni b.toNat).toNat
    let desc := t.uni a.toNat
    Ready s t c [64 + a.toNat, 64 + b.toNat] → s.lag t = 0 →
    (2 ^ 57 ≤ desc.toNat →
      exec (.binit e a b) s = .next (s.trapAt s.focus t c (trapOf .illegal (BitVec.ofNat 64 (64 + a.toNat))))) ∧
    (desc.toNat < 2 ^ 57 → (x = 0 ∨ 2 ^ 32 ≤ x) →
      exec (.binit e a b) s = .next (s.trapAt s.focus t c (trapOf .illegal (BitVec.ofNat 64 (64 + b.toNat))))) ∧
    (desc.toNat < 2 ^ 57 → 0 < x → x < 2 ^ 32 →
      s.checked t c s.focus (barSpace desc) (barAddr desc) 16 .rmw = .ok (s1, l) → s1.snapGuard l = .ok s0 →
      ∃ z u, exec (.binit e a b) s = .next (wentOnAt z s.focus u e 4) ∧ u.v = t.v ∧ u.u = t.u ∧ u.k = t.k ∧
        (s1.poisoned l = false →
          numAt z.mem l.cell 16 = x + (numAt s1.mem l.cell 16 / 2 ^ 64 % 2 ^ 32) * 2 ^ 64 ∧ u.poison = t.poison) ∧
        (∀ y, Outside y l.cell 16 → byteAt z.mem y = byteAt s1.mem y))) ∧
  (∀ (e : Bool) (d a : BitVec 5) (s s0 s1 : State) (t : Thread) (c : Cast) (l : Loc),
    let desc := t.uni a.toNat
    let r := BarRec.of (s1.value l 16)
    Ready s t c [64 + d.toNat, 64 + a.toNat] → s.lag t = 0 →
    (2 ^ 59 ≤ desc.toNat →
      exec (.bar e d a) s = .next (s.trapAt s.focus t c (trapOf .illegal (BitVec.ofNat 64 (64 + a.toNat))))) ∧
    (desc.toNat < 2 ^ 59 → t.pidx.toNat / 2 ^ 60 = 2 →
      s.checked t c s.focus (barSpace desc) (barAddr desc) 16 .read = .ok (s1, l) →
      (∀ z, s1.barWait s.focus t c d.toNat desc e (t.pidx.toNat % 2 ^ 32) = .ok z → exec (.bar e d a) s = .next z) ∧
      (∀ x, s1.barWait s.focus t c d.toNat desc e (t.pidx.toNat % 2 ^ 32) = .trap x →
        exec (.bar e d a) s = .next (s.trapAt s.focus t c x))) ∧
    (desc.toNat < 2 ^ 59 → t.pidx.toNat / 2 ^ 60 ≠ 2 →
      s.checked t c s.focus (barSpace desc) (barAddr desc) 16 .rmw = .ok (s1, l) →
      (r.malformed = true → ∃ (z : State) (u : Thread), z.mem = s1.mem ∧ u.v = t.v ∧ u.u = t.u ∧
        exec (.bar e d a) s = .next (z.trapAt s.focus u c (trapOf .illegal (barAddr desc)))) ∧
      (r.malformed = false → s1.snapGuard l = .ok s0 → ∃ (z : State) (u : Thread), u.v = t.v ∧
        u.u = t.u ∧ u.k = t.k ∧ u.pidx = t.pidx ∧
        numAt z.mem l.cell 16 = (r.arrive (desc.getLsbD 58)).num % 2 ^ 128 ∧
        (∀ y, Outside y l.cell 16 → byteAt z.mem y = byteAt s1.mem y) ∧
        ((desc.getLsbD 57 || desc.getLsbD 58) = true →
          exec (.bar e d a) s = .next (wentOnAt z s.focus (u.putUni d.toNat (BitVec.ofNat 64 r.phase)) e 4)) ∧
        ((desc.getLsbD 57 || desc.getLsbD 58) = false → ∀ w,
          z.barWait s.focus { u with pidx := barPidx r.phase } c d.toNat desc e r.phase = .ok w →
          exec (.bar e d a) s = .next w) ∧
        ((desc.getLsbD 57 || desc.getLsbD 58) = false → ∀ x,
          z.barWait s.focus { u with pidx := barPidx r.phase } c d.toNat desc e r.phase = .trap x →
          exec (.bar e d a) s = .next (z.trapAt s.focus { u with pidx := barPidx r.phase } c x))))) ∧
  (∀ (s s1 : State) (tk d p : Nat) (t : Thread) (c : Cast) (desc : DWord) (e : Bool) (l : Loc),
    let r := s1.readBy t c (barAddr desc + 8) l 4
    Unstepped t → s.locate t c (castOf tk) (barSpace desc) (barAddr desc + 8) 4 .read = .ok (s1, l) →
    ReadsAs s1 t c l 4 r.2.2 ∧
    (r.2.2 = p → s.barWait tk t c d desc e p = .ok (r.1.putT tk { r.2.1 with held := some (.bar d desc e) })) ∧
    (r.2.2 ≠ p → s.barWait tk t c d desc e p = .ok (wentOnAt r.1 tk
      { r.2.1.putUni d (BitVec.ofNat 64 p) with pidx := 0, held := none } e 4))) ∧
  (∀ (r : BarRec), r.malformed = false → r.phase < 2 ^ 32 →
    (r.arrived + 1 < r.expect → r.arrive false = { r with arrived := r.arrived + 1 }) ∧
    (r.arrived + 1 = r.expect → r.arrive false = { r with arrived := 0, phase := (r.phase + 1) % 2 ^ 32 }) ∧
    (0 < r.arrived → r.arrived + 1 = r.expect →
      r.arrive true = { r with expect := r.expect - 1, arrived := 0, phase := (r.phase + 1) % 2 ^ 32 }) ∧
    ((r.arrived = 0 ∨ r.arrived + 1 < r.expect) → r.arrive true = { r with expect := r.expect - 1 }) ∧
    (r.expect < 2 ^ 32 → BarRec.of (r.expect + r.arrived * 2 ^ 32 + r.phase * 2 ^ 64) = r))

/-- R225, R226: MMA, MPOLY and MITER sign the register of a cast, QMMA that of a quartet. That a plain signing beside a quartet
set takes code 2, after the tests of code 4, and a QMMA under a plain set code 4, is log 21 (the model's inference). -/
def Obligations.CastLevelWordsSign : Prop :=
  ∀ (e : Bool) (q : BitVec 4) (d x t g : BitVec 3) (a b : BitVec 4) (z p : BitVec 1) (g2 : BitVec 2) (n : BitVec 6),
  SigningWord (.mma e q d a b z) e (insWord (.mma false q d a b z)) false ∧
  SigningWord (.qmma e q d a b z) e (insWord (.qmma false q d a b z)) true ∧
  SigningWord (.mpoly e q d x t g p) e (insWord (.mpoly false q d x t g p)) false ∧
  SigningWord (.miter e q d x t g2 p n) e (insWord (.miter false q d x t g2 p n)) false

/-- R263 to R266, R271, R272: accumulator words take their places in matrix order; ACOEF writes its coefficient; ALOAD reads
its elements at its place in program order. R254 to R256: VRES, VREL and TFETCH act on the vitrine. That ALOAD reads, and
ASTORE writes, all its elements in one turn is log 34 (the model's choice). -/
def Obligations.AccumulatorAndVitrineWords : Prop :=
  ∀ (e : Bool) (d d2 : BitVec 3) (a b : BitVec 5) (rec : BitVec 4),
  let none_ : Thread → Prop := fun _ => True
  let index (t : Thread) : Prop := (t.uni a.toNat).toNat < 2 ^ 12
  AccumulatorWord (.azero e d) e (insWord (.azero false d)) [] [] [] [d.toNat] none_ (fun _ => []) ∧
  AccumulatorWord (.aread e d a b) e (insWord (.aread false d a b)) [64 + a.toNat, 64 + b.toNat] [a.toNat] [64 + b.toNat]
    [d.toNat] index (fun t => [t.uni a.toNat]) ∧
  AccumulatorWord (.awrite e d a b) e (insWord (.awrite false d a b)) [64 + a.toNat, 64 + b.toNat] [a.toNat, b.toNat] []
    [d.toNat] index (fun t => [t.uni a.toNat, t.uni b.toNat]) ∧
  AccumulatorWord (.atrn e d d2) e (insWord (.atrn false d d2)) [] [] [] [d.toNat, d2.toNat] none_ (fun _ => []) ∧
  AccumulatorWord (.astat e d d2 b) e (insWord (.astat false d d2 b)) [64 + b.toNat] [] [64 + b.toNat] [d.toNat] none_
    (fun _ => []) ∧
  (∀ (s : State) (t : Thread) (c : Cast), Ready s t c [64 + a.toNat] → t.cueFull t.cueB = false → c.cgrant = true →
    ∃ z, exec (.acoef e d a) s = .next z ∧
      tget (z.core c.onCore).coef d.toNat 0 = BitVec.ofNat 32 (t.uni a.toNat).toNat) ∧
  (∀ (s s1 : State) (t : Thread) (c : Cast) (ls : List Loc),
    let base := t.uni a.toNat
    let ctl := t.uni b.toNat
    let n := ctlSize ctl.toNat
    let as := elementAddrs base ctl
    Ready s t c [64 + a.toNat, 64 + b.toNat] → s.lag t = 0 → t.cueFull t.cueB = false →
    (∀ x, tileMemCheck c d.toNat base ctl = some x →
      exec (.aload e d a b) s = .next (s.trapAt s.focus t c x) ∧ exec (.astore e d a b) s = .next (s.trapAt s.focus t c x)) ∧
    (tileMemCheck c d.toNat base ctl = none →
      (State.locateAll t c s.focus n .read as s [] = .ok (s1, ls) → firstWatch t c s.focus n .read as = none →
        ∃ z o, exec (.aload e d a b) s = .next z ∧ (z.core c.onCore).order = (s1.core c.onCore).order ++ [o] ∧
          o.elems = (State.readAll c n (as.zip ls) s1 t []).2.2 ∧ o.words = [ctl] ∧ o.tk = some s.focus) ∧
      (State.locateAll t c s.focus n .write as s [] = .ok (s1, ls) →
        let ds := as.filterMap (fun x => s.destOf c t.priv x)
        (ds.any Dest.isFramed = true → ds.all Dest.isFramed = false →
          exec (.astore e d a b) s = .next (s.trapAt s.focus t c (resv 14 d.toNat 0))) ∧
        ((ds.any Dest.isFramed = false ∨ ds.all Dest.isFramed = true) → firstWatch t c s.focus n .write as = none →
          ∃ z o u, exec (.astore e d a b) s = .next z ∧ (z.core c.onCore).order = (s1.core c.onCore).order ++ [o] ∧
            o.places = ds ∧ o.words = [ctl] ∧ z.thread s.focus = some u ∧ u.v = t.v ∧ u.u = t.u ∧
            (ds.any Dest.isFramed = false → u.held = some (.astore o.op e)))))) ∧
  EffectWord (.vres e rec a b) e [64 + a.toNat, 64 + (a.toNat + 1), 64 + b.toNat] [a.toNat, a.toNat + 1, b.toNat]
    (fun s t c =>
      let x := t.uni b.toNat
      match vresCode c (t.uni a.toNat) (t.uni (a.toNat + 1)) x.toNat with
      | some k => .trap (resv k rec.toNat 0)
      | none => .ok (s.putC (castOf s.focus) { c with vt := tput c.vt rec.toNat ⟨t.uni a.toNat, t.uni (a.toNat + 1), x,
          if (dTaper x.toNat).isSome then c.curve (dCurve x.toNat) else none⟩ }, t)) ∧
  EffectWord (.vrel e rec) e [] [] (fun s t c =>
    .ok (s.putC (castOf s.focus) { c with vt := tdel c.vt rec.toNat }, t)) ∧
  EffectWord (.tfetch e rec b) e [64 + b.toNat] [b.toNat] (fun s t _ => .ok (s, t))

/-- R114, R242, R222, R226, R252, R258, R265, R266, R272, R277, R280, R281: the array of a core takes up the first cast-level
operation that no earlier entry blocks, of a quartet where its four casts are there; a group of a product gives every element
the group sum of its old value and of the operands' values, the exact sum of the products rounded once and then added; a step of MPOLY is a whole product on the scaled identity, a phase
of MITER one on the scaled tile, and its commit records the residual and decides the outcome in order. It completes once
every part is finished, with DONE and a new generation in every cast. A per-thread operation acts once nothing before it blocks
it: AZERO clears, ALOAD places, AREAD, AWRITE and ATRN read, write and transpose elements, ASTAT reads a status word. -/
def Obligations.MatrixOrderEvents : Prop :=
  (∀ (f : Fmt) (acc : Nat) (ps : List ((Bool × Nat × Int) × (Bool × Nat × Int))) (E : Int),
    let num (x : Bool × Nat × Int) : FVal := .num x.1 x.2.1 x.2.2
    let sum := (ps.map (fun p =>
      signed (p.1.1 ^^ p.2.1) (p.1.2.1 * p.2.2.1 * 2 ^ (p.1.2.2 + p.2.2.2 - E).toNat))).sum
    E ≤ 0 → (∀ p ∈ ps, E ≤ p.1.2.2 + p.2.2.2) → sum ≠ 0 →
    ∃ (m : Nat) (e : Int), E ≤ e ∧ m * 2 ^ (e - E).toNat = sum.natAbs ∧
      let g := f.round rne (decide (sum < 0)) m e false
      let r := f.add rne (f.value acc) (f.value g.1)
      f.group acc (ps.map (fun p => (num p.1, num p.2))) = (r.1, g.2.or r.2)) ∧
  (let times (a b : Nat) : FVal × FVal := (bf16.value a, bf16.value b)
   fp32.group 0 (times 0x4580 0x4580 :: List.replicate 7 (times 0x3F80 0x3F80)) = (0x4B80_0004, .inexact) ∧
   fp32.group 0x4B80_0004 (List.replicate 8 (times 0x3F80 0xBF80)) = (0x4B80_0000, .none)) ∧
  ∀ (s : State) (k : Nat) (o : MatOp) (c : Cast) (before : List MatOp),
  let core := s.core k
  let w := o.word
  let d := wD w
  let product := isMpoly w = false ∧ isMiter w = false
  (firstCastOp [] core.order = some (before, o) → o.started = false → (∀ b ∈ before, b.blocks o = false) →
    s.wholeQuartet o = true → (∀ x ∈ core.order, x.op = o.op → x = o) →
    ∃ z p, exec (.matrixOpStart k) s = .next z ∧ p ∈ (z.core k).order ∧ p.op = o.op ∧ p.started = true ∧ z.mem = s.mem ∧
      (product → wZ w = true → o.groups = 0 → o.ra.isSome = true →
        ∀ i j, i < 64 → j < 64 → (z.core k).elem d i j = 0) ∧
      (product → wZ w = false → ∀ n i j, (z.core k).elem n i j = core.elem n i j)) ∧
  (firstCastOp [] core.order = some (before, o) → o.started = true → o.finished = false → core.grants ≠ 0 →
    s.waitsForParts o = false → product → ∀ ra rb, (s.fetchGroup k o).2.ra = some ra → (s.fetchGroup k o).2.rb = some rb →
    let p := (s.fetchGroup k o).2
    let at_ := (s.fetchGroup k o).1.core k
    p.word = w → p.started = true → p.finished = false → ∀ i j, i < 64 → j < 64 →
      ((s.matrixUnit k).core k).elem d i j = (p.groupElem at_ ra rb i j).1.setWidth 32 ∧
      (dFmt ra.desc.toNat = 0 → ((s.matrixUnit k).core k).elem (d + 1) i j =
        ((p.groupElem at_ ra rb i j).1 >>> 32).setWidth 32) ∧
      (∀ n, n ≠ d → (n ≠ d + 1 ∨ dFmt ra.desc.toNat ≠ 0) → ((s.matrixUnit k).core k).elem n i j = at_.elem n i j)) ∧
  (isMpoly w = true → o.started = true → o.step < polyDeg w → o.groups = 0 →
    d ≠ polyX w → d ≠ polyT w → polyX w ≠ polyT w →
    let r := o.units core 8
    r.2.step = o.step + 1 ∧ r.2.groups = 0 ∧
    r.1.tile (polyTile w (o.step + 1)) = (tileProduct (polyP w) false (core.tile (polyTile w o.step)) (core.tile (polyX w))
      (scaledIdentity (o.coef (polyDeg w - (o.step + 1))))).1 ∧
    (∀ n, n ≠ polyTile w (o.step + 1) → r.1.tile n = core.tile n)) ∧
  (isMiter w = true → o.started = true → o.outcome = 0 → o.groups = 0 → d ≠ iterT1 w → d ≠ iterT2 w → iterT1 w ≠ iterT2 w →
    let x := core.tile d
    let i := iterDeg w - o.step
    (o.step = 0 → let r := o.units core 1
      r.2.step = 1 ∧ r.2.elems = (if iterDeg w = 0 then [] else (o.gram core).1.map (fun y => y.setWidth 64)) ∧
      r.1.tile (iterTile w (iterDeg w)) = (scaledTile (o.coef (iterDeg w)) x).1 ∧ r.1.tile d = x) ∧
    (0 < o.step → o.step ≤ iterDeg w → let r := o.units core 8
      r.2.step = o.step + 1 ∧ r.2.groups = 0 ∧ r.1.tile d = x ∧
      r.1.tile (iterTile w i) = (tileProduct (iterP w) false (core.tile (iterTile w (i + 1)))
        (o.elems.map (fun y => y.setWidth 32)) (scaledTile (o.coef i) x).1).1) ∧
    (iterDeg w < o.step → let r := o.units core 1
      let y := core.tile (iterT1 w)
      let res := residual y x
      let bad : Prop := (∃ v ∈ y, finiteWord v = false) ∨ finiteWord res = false
      (r.1.status d).res = res ∧ (r.1.status d).prev = (if o.iter = 0 then 0 else o.last) ∧ r.2.iter = o.iter + 1 ∧
      (bad → r.2.outcome = 2 ∧ r.1.tile d = x) ∧
      (¬ bad → r.1.tile d = y ∧ r.2.outcome =
        (if le32 res (o.coef 7) = true then 1
        else if o.grew = true ∧ lt32 o.last res = true then 3
        else if o.iter + 1 = iterCap w then 4 else 0)))) ∧
  (firstCastOp [] core.order = some (before, o) → isQmma w = false → s.opParts o = [(k, o)] →
    o.finished = true → s.cast o.ck = some c → (c.qreg o.q).next = none →
    ∃ z d, exec (.matrixOpComplete k) s = .next z ∧ z.cast o.ck = some d ∧
      ((s.qMembers o.ck (c.qreg o.q)) ≠ [] → (d.qreg o.q).gen = (c.qreg o.q).gen + 1) ∧
      ((s.qMembers o.ck (c.qreg o.q)) ≠ [] → s.heldSigners o.ck o.q = [] →
        (d.qreg o.q).state = .done ∧ (d.qreg o.q).progress = o.progress)) ∧
  (firstCastOp [] core.order = some (before, o) → isQmma w = true →
    let ps := s.opParts o
    let open_ := ∃ p ∈ ps, p.2.finished = false
    (ps.length ≠ 4 ∨ open_ → exec (.matrixOpComplete k) s = .next s) ∧
    (ps.length = 4 → ¬ open_ → (ps.map (fun p => p.2.ck)).Nodup →
      (∀ p ∈ ps, p.2.q = o.q ∧ s.heldSigners p.2.ck o.q = [] ∧
        ∃ x, s.cast p.2.ck = some x ∧ (x.qreg o.q).next = none ∧ s.qMembers p.2.ck (x.qreg o.q) ≠ []) →
      ∃ z, exec (.matrixOpComplete k) s = .next z ∧ ∀ p ∈ ps, (∀ x ∈ (z.core p.1).order, x.op ≠ o.op) ∧
        ∀ x, s.cast p.2.ck = some x → ∃ y, z.cast p.2.ck = some y ∧ (y.qreg o.q).state = .done ∧
          (y.qreg o.q).gen = (x.qreg o.q).gen + 1 ∧ (y.qreg o.q).progress = p.2.progress)) ∧
  (firstReady [] core.order = some o → (acFn w ≠ 2 ∨ NoSnapshot s) →
    ∃ z, exec (.accOpComplete k) s = .next z ∧ (z.core k).order = core.order.filter (fun p => p.op != o.op)) ∧
  (∀ (e : Bool) (d d2 : BitVec 3) (a b : BitVec 5) (tk : Nat) (t : Thread) (x : Outst), firstReady [] core.order = some o →
    let v (n : Nat) : Nat := (o.words.getD n 0).toNat
    let ends (P : State → Prop) : Prop := ∃ z, exec (.accOpComplete k) s = .next z ∧ P z
    let gives (y : DWord) : Prop := o.tk = some tk → s.thread tk = some t → t.outst.find? (fun p => p.op == o.op) = some x →
      x.regs = [64 + b.toNat] → t.run ≠ .exited → t.held = none →
      ends (fun z => z.mem = s.mem ∧ ∃ u, z.thread tk = some u ∧ u.uni b.toNat = y ∧ u.k = (t.decCue x.cue).k ∧
        u.outst = t.outst.filter (fun p => p.op != o.op) ∧ ∀ n, n ≠ b.toNat → u.uni n = t.uni n)
    (w = insWord (.azero e d) → ends (fun z => ∀ i j, i < 64 → j < 64 → (z.core k).elem d.toNat i j = 0)) ∧
    (w = insWord (.aload e d a b) → ends (fun z => ∀ i j, i < 64 → j < 64 →
      (ctlFmt (v 0) ≠ 3 → (z.core k).elem d.toNat i j = widened (ctlFmt (v 0)) (fromMemory (v 0) o.elems i j)) ∧
      (ctlFmt (v 0) = 3 → (z.core k).elem d.toNat i j = (fromMemory (v 0) o.elems i j).setWidth 32 ∧
        (z.core k).elem (d.toNat + 1) i j = (fromMemory (v 0) o.elems i j >>> 32).setWidth 32))) ∧
    (w = insWord (.aread e d a b) → gives ((core.elem d.toNat (v 0 / 64 % 64) (v 0 % 64)).setWidth 64)) ∧
    (w = insWord (.awrite e d a b) → ends (fun z =>
      (z.core k).elem d.toNat (v 0 / 64 % 64) (v 0 % 64) = BitVec.ofNat 32 (v 1) ∧
      ∀ n i j, i < 64 → j < 64 → (n, i, j) ≠ (d.toNat, v 0 / 64 % 64, v 0 % 64) →
        (z.core k).elem n i j = core.elem n i j)) ∧
    (w = insWord (.atrn e d d2) → ends (fun z => ∀ i j, i < 64 → j < 64 →
      (z.core k).elem d.toNat i j = core.elem d2.toNat j i)) ∧
    (w = insWord (.astat e d d2 b) →
      gives (if d2 = 1 then (core.status d.toNat).report else if d2 = 2 then (core.status d.toNat).res.setWidth 64
        else if d2 = 3 then (core.status d.toNat).prev.setWidth 64 else (core.status d.toNat).event.setWidth 64) ∧
      ends (fun z => ((z.core k).status d.toNat).event = if d2 = 4 then 0 else (core.status d.toNat).event)))

/-! ## Engines -/

/-- R322, R323, R325, R329, R332, R429: COPY, GATHER, SCATTER and COLL queue an operation or trap; a thread held for a slot
issues when one is free; an operation whose accesses are all made completes: cue B falls, or its fault is owed. A unit reads a
line whole, or writes every element whose destination lies in a line, and nothing else, with the bytes of its source: of COPY the
element of the same number, of GATHER and SCATTER the one, or to the one, that its index names (of one index twice the highest
element), of COLL the fold over the ranks in ascending order, or one rank's element (R308, R320, R328, R330, R430). -/
def Obligations.EngineOperationsIssueAndComplete : Prop :=
  (∀ (s s1 : State) (n sp a : Nat) (o : EngOp) (l : Loc) (d : Dest),
    let key := lineKey sp a
    tfind s.ops n = some o → o.owed = false → o.stopped = false → o.base < o.limit → o.kind ≠ 3 → a % 128 = 0 → a < 2 ^ 64 →
    sp ≤ 2 → tfind o.reads key = none → o.idxIn sp a ≠ [] ∨ o.srcIn sp a ≠ [] →
    s.engineLocate o sp a 128 .read = .ok (s1, l, d) → s1.poisoned l = false → o.lost = false →
    let z := s.engineUnit n (2 * key)
    let bs : List Byte := match l with
      | .weights _ _ => leBytes 128 (s1.weightValue o.prod l 128)
      | _ => bytesAt s1.mem l.cell 128
    z.mem = s1.mem ∧ tfind z.ops n = some { o with reads := tput o.reads key (bs, false) }) ∧
  (∀ (s s1 : State) (n sp a : Nat) (o : EngOp) (g : Gallery) (l r : Loc) (d : Dest),
    let key := lineKey sp a
    let els := o.dstIn sp a
    tfind s.ops n = some o → o.owed = false → o.stopped = false → o.base < o.limit → o.kind ≠ 3 → o.seal = 0 → a % 128 = 0 →
    a < 2 ^ 64 → sp ≤ 2 → o.sd.toNat % o.size = 0 → o.sa.toNat % o.size = 0 → o.writes.contains key = false → els ≠ [] →
    o.indexed? = true → (∀ i ∈ els, ∃ bs b, s.elemBytes o i = some (bs, b) ∧ bs.length = o.size) →
    s.engineLocate o sp a 128 .write = .ok (s1, r, d) → s1.destPlace d = some l → s1.gal o.gallery = some g → g.snap = none →
    (∀ gi base bits off, d = .understudy gi base bits off →
      ∀ j < 8, Outside ((Loc.dram gi (stageAddr g base)).cell + j) l.cell 128) →
    let z := s.engineUnit n (2 * key + 1)
    (∃ p, tfind z.ops n = some p ∧ p = { o with writes := key :: o.writes }) ∧
    (∀ c, Outside c l.cell 128 → byteAt z.mem c = byteAt s1.mem c) ∧
    ∀ i ∈ els, (∀ j ∈ els, i < j → o.dstOf j ≠ o.dstOf i) → ∃ x bs b, o.dstOf i = some x ∧ s.elemBytes o i = some (bs, b) ∧
      bytesAt z.mem (l.cell + (x - a)) o.size = bs ∧
      ∀ gi base bits off, d = .understudy gi base bits off → ∃ h p, z.gal gi = some h ∧ l = .dram gi p ∧
        ∀ j < o.size, tfind h.under (p + (x - a) + j) = bs[j]?) ∧
  (∀ (o : EngOp) (i sp a n : Nat) (line bs : List Byte) (b : Bool),
    (tfind o.reads (lineKey sp a) = some (line, b) → o.bytes sp a n = some ((line.drop (a % 128)).take n, b)) ∧
    (o.kind = 0 ∨ o.kind = 1 → o.dstOf i = some (o.sd.toNat + i * o.size)) ∧
    (o.kind = 0 ∨ o.kind = 2 → o.srcOf i = some (o.sa.toNat + i * o.size)) ∧
    (o.bytes 0 (o.sa1.toNat + 4 * i) 4 = some (bs, b) →
      let x : DWord := (BitVec.ofNat 32 (leNat bs)).signExtend 64 * BitVec.ofNat 64 o.size
      (o.kind = 1 → o.srcOf i = some (o.sa + x).toNat) ∧ (o.kind = 2 → o.dstOf i = some (o.sd + x).toNat)) ∧
    (0 < o.size → o.size ≤ 128 → (i ∈ o.dstIn sp a ↔
      sp = o.dsp ∧ o.base ≤ i ∧ i < o.limit ∧ ∃ x, o.dstOf i = some x ∧ x / 128 = a / 128))) ∧
  (∀ (s : State) (o : EngOp) (i y : Nat) (bs : List Byte) (b : Bool), o.kind ≠ 3 → o.seal = 0 → o.srcOf i = some y →
    o.bytes o.ssp y o.size = some (bs, b) → ∃ x, s.elemBytes o i = some (bs, x)) ∧
  (∀ (s : State) (o : EngOp) (g : Gallery) (i : Nat) (xs : List Nat),
    let part (r j : Nat) : Option (List Byte × Bool) := (g.box o.boxKey).bytes o.size ((r * o.count + j) * o.size) o.size
    let P := (s.members o).length
    let fold (j : Nat) : Prop := xs.length = P → (∀ r x, xs[r]? = some x → part r j = some (leBytes o.size x, false)) →
      (∀ x ∈ xs, x < 2 ^ (8 * o.size)) → xs ≠ [] →
      s.elemBytes o i = some (leBytes o.size (collFold o.collOp o.collType xs), false)
    o.kind = 3 → s.gal o.gallery = some g → 0 < o.count →
    (o.collOp = 0 ∨ o.collOp = 1 ∨ o.collOp = 2 → fold i) ∧
    (o.collOp = 5 → fold (o.rank * (o.count / P) + i)) ∧
    (o.collOp = 3 → s.elemBytes o i = part (i / o.count) (i % o.count)) ∧
    (o.collOp = 4 → s.elemBytes o i = part o.root i)) ∧
  (∀ (op type x y : Nat) (xs : List Nat),
    let f := if type = 0 then fp32 else if type = 2 then bf16 else fp64
    collFold op type (x :: y :: xs) = collFold op type (collCombine op type x y :: xs) ∧
    (type = 0 ∨ type = 2 ∨ type = 3 → collFold op type [x] = (if (f.value x).isNan = true then f.nan else x) ∧
      collCombine 0 type x y = (f.add rne (f.value x) (f.value y)).1 ∧ collCombine 5 type x y = collCombine 0 type x y ∧
      collCombine 1 type x y = (f.minMax true x y).1 ∧ collCombine 2 type x y = (f.minMax false x y).1) ∧
    (collFold op 1 [x] = x ∧ collFold op 4 [x] = x ∧
      collCombine 0 1 x y = (x + y) % 2 ^ 32 ∧ collCombine 0 4 x y = (x + y) % 2 ^ 64 ∧
      collCombine 1 1 x y = (if (BitVec.ofNat 32 x).slt (BitVec.ofNat 32 y) then y else x) ∧
      collCombine 2 1 x y = (if (BitVec.ofNat 32 y).slt (BitVec.ofNat 32 x) then y else x) ∧
      collCombine 1 4 x y = (if (BitVec.ofNat 64 x).slt (BitVec.ofNat 64 y) then y else x) ∧
      collCombine 2 4 x y = (if (BitVec.ofNat 64 y).slt (BitVec.ofNat 64 x) then y else x))) ∧
  ∀ (e : Bool) (d a b : BitVec 5),
  EngineWord (.copy e d a b) e (insWord (.copy e d a b)) [64 + d.toNat, 64 + a.toNat, 64 + b.toNat]
    [d.toNat, a.toNat, b.toNat] ∧
  EngineWord (.gather e d a b) e (insWord (.gather e d a b))
    [64 + d.toNat, 64 + a.toNat, 64 + (a.toNat + 1), 64 + b.toNat] [d.toNat, a.toNat, a.toNat + 1, b.toNat] ∧
  EngineWord (.scatter e d a b) e (insWord (.scatter e d a b))
    [64 + d.toNat, 64 + a.toNat, 64 + (a.toNat + 1), 64 + b.toNat] [d.toNat, a.toNat, a.toNat + 1, b.toNat] ∧
  EngineWord (.coll e d a b) e (insWord (.coll e d a b)) [64 + d.toNat, 64 + a.toNat, 64 + b.toNat]
    [d.toNat, a.toNat, b.toNat] ∧
  EngineSlotWord e (insWord (.copy e d a b)) ∧ EngineSlotWord e (insWord (.gather e d a b)) ∧
  EngineSlotWord e (insWord (.scatter e d a b)) ∧ EngineSlotWord e (insWord (.coll e d a b)) ∧
  (∀ (s : State) (n : Nat) (o : EngOp) (t : Thread), tfind s.ops n = some o →
    (o.finished = false ∨ o.owed = true ∨ o.stopped = true → exec (.engineOpComplete n) s = .next s) ∧
    (o.finished = true → o.owed = false → o.stopped = false → o.node = none → s.thread o.tk = some t → t.run ≠ .exited →
      (o.err = none → ∃ z, exec (.engineOpComplete n) s = .next z ∧ tfind z.ops n = none ∧ z.mem = s.mem ∧
        z.thread o.tk = some (t.decCue o.cue) ∧ SameOthers s z o.tk) ∧
      (∀ x, o.err = some x → ∃ z u, exec (.engineOpComplete n) s = .next z ∧ tfind z.ops n = some u ∧ u.owed = true ∧
        u.ftval = x ∧ z.mem = s.mem ∧ z.thread o.tk = some (t.decCue o.cue) ∧ SameOthers s z o.tk)))

/-- R319, R320, R332, R333, R395: PUBLISH of whole framed pages that no engine operation of its thread may still write goes
on with every pair merged and swapped; one that must wait is held, and takes its key when the wait is over; a range that is
not made of whole pages and a page that is not framed take ENGINE. Of one pair: what engines wrote comes on stage as written,
every other byte as it stood, and GEN rises by one. -/
def Obligations.PublishMergesAndSwaps : Prop :=
  (∀ (e : Bool) (a b : BitVec 5) (s s1 : State) (t : Thread) (c : Cast) (g : Gallery) (ps : List (Nat × Xlat)),
    let x := (t.uni a.toNat).toNat
    let n := (t.uni b.toNat).toNat
    let w := insWord (.publish e a b)
    let pairs := ps.map (fun p => (p.2.page, p.2.bits))
    let agent := engineAgent (clusterOf c.onCore)
    let met := (s1.ptsAfter agent (s1.nowKey c.agent)).walkPages agent c.gallery pairs ps
    let swapped := met.publishPairs agent c.gallery pairs
    let done (tk : Nat) (u : Thread) : State :=
      wentOnAt (swapped.1.ptsAfter c.agent swapped.2) tk { u with held := none } e 4
    s.lag t = 0 → t.cueFull t.cueB = false → s.gal c.gallery = some g →
    (Ready s t c [64 + a.toNat, 64 + b.toNat] →
      (s.notPages c.gallery g x n = true → exec (.publish e a b) s = .next (s.trapAt s.focus t c (engineTrap 6 x))) ∧
      (s.notPages c.gallery g x n = false → s.pages c.gallery g t.priv .write x n = .ok ps →
        (∀ p, ps.find? (fun p => !p.2.framed) = some p →
          exec (.publish e a b) s = .next (s.trapAt s.focus t c (engineTrap 5 p.1))) ∧
        ((∀ p ∈ ps, p.2.framed = true) →
          (s.writesRange s.focus x n pairs = true →
            exec (.publish e a b) s = .next (s.putT s.focus { t with held := some (.publish w) })) ∧
          (s.writesRange s.focus x n pairs = false → s.guardPairs c.gallery g pairs = .ok s1 →
            exec (.publish e a b) s = .next (done s.focus t))))) ∧
    (∀ tk, s.thread tk = some t → s.cast (castOf tk) = some c → t.held = some (.publish w) → Unstepped t →
      s.notPages c.gallery g x n = false → s.pages c.gallery g t.priv .write x n = .ok ps →
      (∀ p ∈ ps, p.2.framed = true) → s.writesRange tk x n pairs = false → s.guardPairs c.gallery g pairs = .ok s1 →
      exec (.publishTake tk) s = .next (done tk t))) ∧
  (∀ (s : State) (gi base bits : Nat) (g : Gallery) (key : Key),
    let sb := stageBase s.mem gi g base bits
    let ub := understudyBase s.mem gi g base bits
    let z := s.publishPair gi base bits key
    s.gal gi = some g → tsorted g.under = true →
    (stageAddr g base + 8 ≤ base ∨ base + 2 ^ (bits + 1) ≤ stageAddr g base) →
    (∀ i, i < 2 ^ bits → byteAt z.mem (Loc.dram gi (ub + i)).cell =
      (match tfind g.under (ub + i) with
      | some y => y
      | none => byteAt s.mem (Loc.dram gi (sb + i)).cell)) ∧
    stageWord z.mem gi g base = stageNext (stageWord s.mem gi g base) ∧
    (∀ y, Outside y (Loc.dram gi ub).cell (2 ^ bits) → Outside y (Loc.dram gi (stageAddr g base)).cell 8 →
      byteAt z.mem y = byteAt s.mem y))

/-! ## Launches and grid barriers -/

/-- R345, R347 to R349, R331, R421: LAUNCH and GNODE of a record make a live node, ready or held, and return its handle, or
return the code that refuses it; LAUNCH of a handle releases a held node, which enters the ready queue once it has no
predecessor; GDEP records a successor, refuses or does nothing; the stub page does the same at supervisor privilege. A ready
copy node of an open gallery starts its operation where no weight load excludes it. The code that refuses a record is the
lowest one whose condition in the record's fields holds (Safety.RecordFault). Hardware reaches records at supervisor
privilege as the curator (log 11, the model's choice), a sealed copy node is checked as R323 checks a sealed COPY (log 20),
and what the stub page answers for a malformed operation and when is log 24. -/
def Obligations.NodesAreCreatedAndReleased : Prop :=
  (∀ (e : Bool) (d a b : BitVec 5),
    EffectWord (.launch e d a) e [64 + d.toNat, 64 + a.toNat] [a.toNat] (fun s t c =>
      (s.launchOp c.agent c.gallery t.priv (t.uni a.toNat) (64 + a.toNat)).bind (fun r =>
        .ok (r.1, (s.oweRecord t c (t.uni a.toNat)).putUni d.toNat r.2))) ∧
    EffectWord (.gnode e d a) e [64 + d.toNat, 64 + a.toNat] [a.toNat] (fun s t c =>
      (s.gnodeOp c.agent c.gallery t.priv (t.uni a.toNat) (64 + a.toNat)).bind (fun r =>
        .ok (r.1, (s.oweRecord t c (t.uni a.toNat)).putUni d.toNat r.2))) ∧
    (∀ (s : State) (t : Thread) (c : Cast), Ready s t c [64 + a.toNat, 64 + b.toNat] →
      ∃ s' t', MayCharge s s' t t' [a.toNat, b.toNat] ∧
        let u := s'.oweRecord (s'.oweRecord t' c (t'.uni a.toNat)) c (t'.uni b.toNat)
        let r := s'.gdepOp c.agent c.gallery t'.priv (t'.uni a.toNat) (t'.uni b.toNat) (64 + a.toNat) (64 + b.toNat)
        (∀ z, r = .ok z → exec (.gdep e a b) s = .next (wentOnAt z s.focus u e 4)) ∧
        (∀ x, r = .trap x → exec (.gdep e a b) s =
          .next (((s'.noteRecord t' c (t'.uni a.toNat)).noteRecord t' c (t'.uni b.toNat)).trapAt s.focus u c x)))) ∧
  (∀ (s : State) (gi : Nat) (g : Gallery) (pr : Priv) (bs : List Byte),
    (∀ k, s.recordCode gi g pr bs = some k ↔
      RecordFault s gi g pr bs k ∧ ∀ j, j < k → ¬RecordFault s gi g pr bs j) ∧
    (s.recordCode gi g pr bs = none ↔ ∀ j, ¬RecordFault s gi g pr bs j) ∧
    floorEighths 0 = 0 ∧ floorEighths 1 = 1 ∧ floorEighths 2 = 2 ∧ floorEighths 3 = 4 ∧ floorEighths 4 = 8) ∧
  (∀ (s s1 : State) (agent gi : Nat) (g : Gallery) (pr : Priv) (a : DWord) (l : Loc) (held : Bool),
    let bs := s1.recordBytes l
    s.reach agent gi pr a 128 .rmw = .ok (s1, l) → s1.gal gi = some g → l.global = true →
    (∀ k, s1.recordCode gi g pr bs = some k →
      ∃ z, s.newNode agent gi pr a held = .ok (z, BitVec.ofNat 64 k) ∧ z.mem = s1.mem ∧ z.prods = s1.prods) ∧
    (s1.recordCode gi g pr bs = none →
      ∃ z p, s.newNode agent gi pr a held = .ok (z, a ||| 0x8000_0000_0000_0000) ∧ tfind z.prods s1.nextProd = some p ∧
        p.gallery = gi ∧ p.recAddr = a ∧ p.bytes = bs ∧ p.priv = pr ∧ p.key = (s1.noteWrite agent (l.plus 0x7A)).2 ∧
        p.started = false ∧ numAt z.mem (l.cell + 0x7A) 2 = 0 ∧
        numAt z.mem (l.cell + 0x7C) 2 = (if held then 1 else 0) ∧
        numAt z.mem (l.cell + 0x7E) 1 = (if held then 1 else 3) ∧
        (∀ y, Outside y (l.cell + 0x7A) 5 → byteAt z.mem y = byteAt s1.mem y))) ∧
  (∀ (s s1 : State) (agent gi reg : Nat) (g : Gallery) (pr : Priv) (x a : DWord) (l : Loc),
    let pred := (s1.value (l.plus 0x7C) 2 + 2 ^ 16 - 1) % 2 ^ 16
    x.msb = true → handleRec x = some a → s.reach agent gi pr a 128 .rmw = .ok (s1, l) → s1.gal gi = some g →
    (s1.value (l.plus 0x7E) 1 ≠ 1 →
      ∃ z, s.launchOp agent gi pr x reg = .ok (z, 6) ∧ z.mem = s1.mem ∧ z.prods = s1.prods) ∧
    (s1.value (l.plus 0x7E) 1 = 1 →
      ∃ z, s.launchOp agent gi pr x reg = .ok (z, x) ∧ z.prods = s1.prods ∧ numAt z.mem (l.cell + 0x7C) 2 = pred ∧
        numAt z.mem (l.cell + 0x7E) 1 = (if pred = 0 then 3 else 2) ∧
        (∀ y, Outside y (l.cell + 0x7C) 3 → byteAt z.mem y = byteAt s1.mem y) ∧
        (∀ n p, s1.nodeAt gi a = some (n, p) → tfind s1.prods n = some p → p.isCopy = false → p.gallery = gi → pred = 0 →
          ∃ g' ws, z.gal gi = some g' ∧ g'.ready = g.ready ++ ws ∧ ws.length = p.comp * p.epc ∧
            ∀ w ∈ ws, w.node = n))) ∧
  (∀ (s s1 s2 : State) (agent gi rx ry : Nat) (pr : Priv) (x y pa sa : DWord) (lp ls : Loc),
    let r := s.gdepOp agent gi pr x y rx ry
    let st := s2.value (lp.plus 0x7E) 1
    let nsucc := s2.value (lp.plus 0x7A) 2
    let full := nsucc = s2.value (lp.plus 0x78) 2
    (x.msb = false ∨ handleRec x = none → r = .trap (trapOf .illegal (BitVec.ofNat 64 rx))) ∧
    (x.msb = true → handleRec x = some pa → (y.msb = false ∨ handleRec y = none) →
      r = .trap (trapOf .illegal (BitVec.ofNat 64 ry))) ∧
    (x.msb = true → handleRec x = some pa → y.msb = true → handleRec y = some sa →
      s.reach agent gi pr pa 128 .rmw = .ok (s1, lp) → s1.reach agent gi pr sa 128 .rmw = .ok (s2, ls) →
      (s2.value (ls.plus 0x7E) 1 ≠ 1 → r = .trap (engineTrap 7 sa.toNat)) ∧
      (s2.value (ls.plus 0x7E) 1 = 1 →
        (st = 0 → r = .trap (engineTrap 7 pa.toNat)) ∧
        (st = 5 → ∃ z, r = .ok z ∧ z.mem = s2.mem ∧ z.prods = s2.prods) ∧
        (st ≠ 0 → st ≠ 5 → full → r = .trap (engineTrap 7 sa.toNat)) ∧
        (st ≠ 0 → st ≠ 5 → ¬ full → ∀ s3 ll,
          s2.reach agent gi pr (BitVec.ofNat 64 (s2.value (lp.plus 0x70) 8 + 8 * nsucc)) 8 .write = .ok (s3, ll) →
          (lp.cell + 0x7C ≤ ll.cell ∨ ll.cell + 8 ≤ lp.cell + 0x7A) →
          (ls.cell + 0x7E ≤ ll.cell ∨ ll.cell + 8 ≤ ls.cell + 0x7C) →
          (ls.cell + 4 ≤ lp.cell ∨ lp.cell ≤ ls.cell) →
          ∃ z, r = .ok z ∧ numAt z.mem ll.cell 8 = (handleOf sa).toNat ∧
            numAt z.mem (lp.cell + 0x7A) 2 = (nsucc + 1) % 2 ^ 16 ∧
            numAt z.mem (ls.cell + 0x7C) 2 = (s3.value (ls.plus 0x7C) 2 + 1) % 2 ^ 16 ∧
            (∀ b, Outside b ll.cell 8 → Outside b (lp.cell + 0x7A) 2 → Outside b (ls.cell + 0x7C) 2 →
              byteAt z.mem b = byteAt s3.mem b))))) ∧
  (∀ (s : State) (gi : Nat) (g : Gallery) (stream : Option Nat) (x y : DWord),
    let on (op : DWord) (y : DWord) : State :=
      s.putG gi { g with stub := { g.stub with op := op, opa := x, opb := y, go := 1 } }
    let answered (s1 : State) (r : Res (State × DWord)) (i : Instr) : Prop :=
      (∀ z v, r = .ok (z, v) → exec i s = .next (z.stubDone gi v 0 0)) ∧
      (∀ k, r = .trap k → exec i s = .next (s1.stubDone gi k.tval (BitVec.ofNat 64 (2 ^ k.cause.num)) 1))
    s.gal gi = some g → g.stub.go = 0 → g.hostOpen stream = true → g.state = .opened →
    answered (on 0 0) ((on 0 0).launchOp hostAgent gi .supervisor x 0) (.stubLaunch ⟨gi, stream⟩ x) ∧
    answered (on 1 0) ((on 1 0).gnodeOp hostAgent gi .supervisor x 0) (.stubGnode ⟨gi, stream⟩ x) ∧
    answered (on 2 y) (((on 2 y).gdepOp hostAgent gi .supervisor x y 0 0).bind (fun z => .ok (z, 0)))
      (.stubGdep ⟨gi, stream⟩ x y)) ∧
  (∀ (s : State) (gi : Nat) (g : Gallery) (stream : Option Nat) (x y : DWord),
    s.gal gi = some g → g.hostOpen stream = false ∨ g.stub.go ≠ 0 →
    exec (.stubLaunch ⟨gi, stream⟩ x) s = .next s ∧ exec (.stubGnode ⟨gi, stream⟩ x) s = .next s ∧
    exec (.stubGdep ⟨gi, stream⟩ x y) s = .next s) ∧
  (∀ (s s1 : State) (n : Nat) (p : Prod) (g : Gallery) (l : Loc),
    let r := s1.put curatorAgent (l.plus 0x7E) (leBytes 1 4)
    let o1 := EngOp.make 0 (if p.weightLoad then .supervisor else .program) 0 p.gallery (g.tiles.getD 0 0 * 40) (some n) 15
      0x9C00_0000 (p.arg 0) (p.arg 1) 0 (p.arg 2)
    let o := { o1 with limit := o1.items 1 }
    let q := { p with started := true, startKey := r.2, code := r.1.mem, copyOp := some r.1.nextOp }
    let s2 := ({ r.1 with prods := tput r.1.prods n q } : State).ptsAfter o.agent r.2
    tfind s.prods n = some p → s.gal p.gallery = some g → s.reachHw p.gallery p.recAddr 128 .rmw = some (s1, l) →
    p.isCopy = true → p.started = false → g.state = .opened → s1.value (l.plus 0x7E) 1 = 3 →
    (s.mayRun n p = false → exec (.copyNodeStart n) s = .next s) ∧
    (s.mayRun n p = true →
      (s2.engineCheck p.gallery g o 0 p.weightLoad 1 = .ok () →
        exec (.copyNodeStart n) s = .next { s2.putEng s2.nextOp o with nextOp := s2.nextOp + 1 }) ∧
      (∀ x, s2.engineCheck p.gallery g o 0 p.weightLoad 1 = .trap x →
        exec (.copyNodeStart n) s = .next ((s2.recordFault n x.tval (s2.nowKey o.agent)).finishNode n))))

/-- R371, R372: GBAR arrives for its company: it goes on with the phase that it read where it only arrives or where its
arrival is the last one, and is held else. The arrival that meets the target of the last company that the barrier awaits
moves the phase by one. -/
def Obligations.GridBarriersArriveAndWait : Prop :=
  (∀ (e : Bool) (d a : BitVec 5) (s : State) (t : Thread) (c : Cast) (p : Prod),
    let desc := (t.uni a.toNat).toNat
    let num := desc % 4
    let g := p.grid num
    let g' := g.arriveAt (p.companyOf c.gidx) (s.target c.prod p (p.companyOf c.gidx))
    let s1 := s.putGrids c.prod p (tput p.grids num g')
    let held : Thread := { t with held := some (.gbar d.toNat num g.phase e), gbarAt := some (num, g.phase) }
    let done := t.putUni d.toNat (g.phase.setWidth 64)
    Ready s t c [64 + d.toNat, 64 + a.toNat] → s.lag t = 0 → tfind s.prods c.prod = some p → t.gbarAt = none →
    (8 ≤ desc → exec (.gbar e d a) s = .next (s.trapAt s.focus t c (trapOf .illegal (BitVec.ofNat 64 (64 + a.toNat))))) ∧
    (desc < 8 → 4 ≤ desc → exec (.gbar e d a) s = .next (wentOn s1 done e 4)) ∧
    (desc < 4 → g'.phase = g.phase → exec (.gbar e d a) s = .next (s1.putT s.focus held)) ∧
    (desc < 4 → g'.phase ≠ g.phase → exec (.gbar e d a) s = .next (wentOn (s1.putT s.focus held)
      { held.putUni d.toNat (g.phase.setWidth 64) with held := none, gbarAt := none } e 4))) ∧
  (∀ (g : Grid) (k n : Nat), k < 64 → tget g.locals k 0 + 1 = n → g.member ≠ 0 →
    (∀ j, j < 64 → j ≠ k → g.member.getLsbD j = true → g.arrive.getLsbD j = true) →
    g.arriveAt k n = ⟨g.member, 0, g.phase + 1, []⟩) ∧
  (∀ (g : Grid) (k n : Nat), tget g.locals k 0 + 1 ≠ n → g.member &&& ~~~g.arrive ≠ 0 →
    g.arriveAt k n = { g with locals := tput g.locals k (tget g.locals k 0 + 1) })

/-! ## Messages, snapshots, calendars, contexts -/

/-- R387 to R390: SEND appends its message to the queue of a name in use, or answers 1 where the queue holds 16; RECV takes
the oldest message of its own core's queue, or answers that there is none. R336 to R338: RFCAL reads the calendar of a store, whose
windows stand in the segments of its periods; the phase from reset on is a constant that nothing gives (log 9). -/
def Obligations.MessagesAndCalendarReads : Prop := ∀ (e : Bool) (d a b : BitVec 5),
  EffectWord (.send e d a b) e [64 + d.toNat, 64 + a.toNat, 64 + b.toNat] [a.toNat, b.toNat] (fun s t c =>
    let x := (t.uni a.toNat).toNat
    if 2 ^ 20 ≤ x then .trap (trapOf .illegal (BitVec.ofNat 64 (64 + a.toNat)))
    else
      match s.gal c.gallery with
      | none => .fault .noSuchAddress
      | some g =>
        let k := x % 2 ^ 16 * 16 + x / 2 ^ 16
        let q := tget g.channels k []
        match s.coreNamed c.gallery (x % 2 ^ 16) with
        | none => .trap (trapOf .name (BitVec.ofNat 64 x))
        | some target =>
          let s1 := s.sendKey c.agent target
          if 16 ≤ q.length then .ok (s1, t.putUni d.toNat 1)
          else .ok (s1.putG c.gallery { g with channels := tput g.channels k (q ++ [t.uni b.toNat]) }, t.putUni d.toNat 0)) ∧
  EffectWord (.recv e d a b) e [64 + d.toNat, 64 + a.toNat, 64 + b.toNat] [a.toNat] (fun s t c =>
    let x := (t.uni a.toNat).toNat
    let s1 := (s.nextKey c.agent 0).1
    if 2 ^ 4 ≤ x then .trap (trapOf .illegal (BitVec.ofNat 64 (64 + a.toNat)))
    else if d = b then .trap (trapOf .illegal (BitVec.ofNat 64 (64 + b.toNat)))
    else
      match s.gal c.gallery, c.coreNo.bind (fun k => s.nameOf c.gallery k) with
      | some g, some name =>
        let k := name * 16 + x
        (match tget g.channels k [] with
        | [] => .ok (s1, (t.putUni d.toNat 0).putUni b.toNat 0)
        | m :: rest => .ok (s1.putG c.gallery { g with channels := tset g.channels k rest [] },
            (t.putUni d.toNat m).putUni b.toNat 1))
      | _, _ => .fault .noSuchAddress) ∧
  EffectWord (.rfcal e d a) e [64 + d.toNat, 64 + a.toNat] [a.toNat] (fun s t c =>
    let x := (t.uni a.toNat).toNat
    match s.gal c.gallery with
    | none => .fault .noSuchAddress
    | some g =>
      match calendarKey g x with
      | none => .trap (trapOf .illegal (BitVec.ofNat 64 (64 + a.toNat)))
      | some k =>
        if 2 ^ 12 ≤ x then .trap (trapOf .illegal (BitVec.ofNat 64 (64 + a.toNat)))
        else .ok (s, t.putUni d.toNat (s.calendarWord k))) ∧
  (∀ (s : State) (k : Nat),
    let period (b : Nat) : Nat := (if k < 2240 then 25000 else 6400) / 2 ^ b
    let segs : List Seg := ⟨0, Config.refreshPhase k % period 0, period 0⟩ :: (tget s.calendar k []).reverse
    let len := if k < 2240 then 400 else 100
    let now (x : Nat) : Prop := WindowAt segs x ∧ x ≤ s.tick ∧ s.tick < x + len
    let next (x : Nat) : Prop := WindowAt segs x ∧ s.tick < x
    let band := if k < 2240 then (s.cluster k).band else (s.tile (k - 2240)).band
    let w := s.calendarWord k
    segs.Pairwise (fun g h => g.start ≤ h.start) → (∀ g ∈ segs, 0 < g.period) → band < 4 →
      (w.msb = true ↔ ∃ x, now x) ∧ fld w.toNat 61 2 = band ∧ (w.getLsbD 60 = true ↔ 2240 ≤ k) ∧ fld w.toNat 48 12 = 0 ∧
      fld w.toNat 0 24 = period band ∧
      (∀ x, now x → (∀ y, now y → x ≤ y) → fld w.toNat 24 24 = Nat.min (x + len - s.tick) 0xFF_FFFF) ∧
      (∀ x, (∀ y, ¬now y) → next x → (∀ y, next y → x ≤ y) → fld w.toNat 24 24 = Nat.min (x - s.tick) 0xFF_FFFF)) ∧
  (∀ (g : Gallery) (t v c : Nat), g.tiles[t]? = some v →
    (c < 40 → 40 * t + c < 2240 → calendarKey g (40 * t + c) = some (v * 40 + c)) ∧
    calendarKey g (2240 + t) = some (2240 + v)) ∧
  (∀ (g : Gallery) (n : Nat), (n < 2240 → g.tiles.length ≤ n / 40 → calendarKey g n = none) ∧
    (2240 ≤ n → g.tiles.length ≤ n - 2240 → calendarKey g n = none))

/-- R394 to R396, R434: SNAP answers 1 where a snapshot is in flight and 2 where the area is too small, and else freezes the
framed pages; its result is outstanding until the stream ends, with status 0 where the whole area could be written, 3 else.
A thread whose cast is off every core meanwhile is kept its status (log 28, the model's choice). A complete snapshot has laid
out header, entries and the pages' frozen bytes where the curator reaches the area. As the stream passes a line,
that line and those before it are streamed. -/
def Obligations.SnapshotsFreezeAndComplete : Prop :=
  (∀ (e : Bool) (d a b : BitVec 5) (s : State) (t : Thread) (c : Cast) (g : Gallery),
    let area := t.uni a.toNat
    let size := (t.uni b.toNat).toNat
    let ps := s.framedPages c.gallery g
    Ready s t c [64 + d.toNat, 64 + a.toNat, 64 + b.toNat] → s.lag t = 0 → s.gal c.gallery = some g →
    (t.priv = .program → exec (.snap e d a b) s = .next (s.trapAt s.focus t c (trapOf .priv 0))) ∧
    (t.priv = .supervisor → t.cueFull t.cueB = false →
      (area.toNat % 65536 ≠ 0 → exec (.snap e d a b) s = .next (s.trapAt s.focus t c (trapOf .align area))) ∧
      (area.toNat % 65536 = 0 → s.snapArea c.gallery g t.priv area.toNat size = .ok () →
        (g.snap ≠ none → exec (.snap e d a b) s = .next (wentOn s (t.putUni d.toNat 1) e 4)) ∧
        (g.snap = none → size < snapHead ps + snapData ps →
          exec (.snap e d a b) s = .next (wentOn s (t.putUni d.toNat 2) e 4)) ∧
        (g.snap = none → snapHead ps + snapData ps ≤ size →
          ∃ z n u o, exec (.snap e d a b) s = .next z ∧ (z.gal c.gallery).bind Gallery.snap = some n ∧ z.mem = s.mem ∧
            n.tk = s.focus ∧ n.reg = 64 + d.toNat ∧ n.cue = t.cueB ∧
            n.area = area ∧ n.size = size ∧ n.pages = ps ∧ n.streamed = 0 ∧ n.copied = [] ∧ n.tick = s.tick ∧ n.fpgen = g.fpgen ∧
            (∀ x ∈ ps, ∀ i, i < 2 ^ x.2.1 → Memory.wf s.mem = true →
              n.byteAt ((Loc.dram c.gallery x.2.2).cell + i) = byteAt s.mem ((Loc.dram c.gallery x.2.2).cell + i)) ∧
            z.thread s.focus = some u ∧ u.outst = t.outst ++ [o] ∧ o.regs = [64 + d.toNat] ∧ o.ready = false ∧
            o.cue = t.cueB ∧ u.k = (t.incCue t.cueB).k ∧ u.u = t.u)))) ∧
  (∀ (s : State) (gi : Nat) (g : Gallery) (n : Snap), s.gal gi = some g → g.snap = some n →
    exec (.snapshotComplete gi) s = .next ((s.streamSnap gi n).1.endSnap gi n (s.streamSnap gi n).2) ∧
    (∀ (z : State) (base : Nat), s.streamSnap gi n = (z, 0) → n.area.toNat + n.size ≤ 2 ^ 64 →
      snapHead n.pages + snapData n.pages ≤ n.size → ReachedAt s gi n.area.toNat n.size base →
      numAt z.mem base 4 = 0x5041_4E53 ∧ numAt z.mem (base + 4) 2 = 1 ∧ numAt z.mem (base + 6) 1 = gi % 2 ^ 8 ∧
      numAt z.mem (base + 7) 1 = 0 ∧ numAt z.mem (base + 0x08) 8 = n.fpgen % 2 ^ 64 ∧
      numAt z.mem (base + 0x10) 8 = n.pages.length % 2 ^ 64 ∧ numAt z.mem (base + 0x18) 8 = snapData n.pages % 2 ^ 64 ∧
      numAt z.mem (base + 0x20) 8 = n.tick % 2 ^ 64 ∧ numAt z.mem (base + 0x28) 8 = 0 ∧ numAt z.mem (base + 0x30) 8 = 0 ∧
      numAt z.mem (base + 0x38) 8 = 1 ∧
      (∀ xs x ys, n.pages = xs ++ x :: ys →
        numAt z.mem (base + 64 + 16 * xs.length) 8 = x.1 % 2 ^ 64 ∧
        numAt z.mem (base + 64 + 16 * xs.length + 8) 1 = x.2.1 % 2 ^ 8 ∧
        numAt z.mem (base + 64 + 16 * xs.length + 9) 7 = 0 ∧
        (∀ i, i < 2 ^ x.2.1 → byteAt z.mem (base + snapHead n.pages + snapData xs + i) =
          n.byteAt ((Loc.dram gi x.2.2).cell + i))) ∧
      (∀ y, Outside y base n.size → byteAt z.mem y = byteAt s.mem y)) ∧
    64 + 16 * n.pages.length ≤ snapHead n.pages ∧ snapHead n.pages < 64 + 16 * n.pages.length + 65536 ∧
    snapHead n.pages % 65536 = 0 ∧ snapData n.pages = (n.pages.map (fun x => 2 ^ x.2.1)).foldr (· + ·) 0 ∧
    ((s.streamSnap gi n).2 = 0 ∨ (s.streamSnap gi n).2 = 3) ∧
    (s.areaOutside gi n = false → (∃ z, ({ s with free := s.free + 1 } : State).streamAll gi n = .ok z) →
      (s.streamSnap gi n).2 = 0) ∧
    (∀ st, ∃ h, (s.endSnap gi n st).gal gi = some h ∧ h.snap = none ∧ h.snapres = g.snapresW ∧
      (∀ c, s.thread n.tk = none → s.cast (castOf n.tk) = some c → c.res ≠ .ended →
        h.snapOwed = g.snapOwed ++ [⟨n.tk, n.reg, n.cue, st⟩])) ∧
    (∀ line pos, streamPos n.pages (line * 128) 0 = some pos → ∃ z, exec (.snapshotStreamPassesLine gi line) s = .next z ∧
      (z.gal gi).bind Gallery.snap = some { n with streamed := Nat.max n.streamed (pos + 128) } ∧ z.mem = s.mem))

/-- R368 to R370, R407: CTXSAVE refuses reserved bits, a cast of an ensemble of several that would leave, and a protected
gallery whose cast would go on; else the thread is held until its cast stands still, and then the image is written: the cast
goes on in its slice, its thread past the word, or leaves its core. CTXLOAD answers the code of a refused image, by the first
check of R370 and R408 that fails, and an accepted one makes its cast available. What makes a header, a progress word or an
engine record bad stands in its fields. An image lies where hardware reaches its range; it holds each thread, register q,
register of the cast, scratchpad byte and tile element at its place (R367; log 8 within the cast block, the model's choice), and a
cast that takes it up has them back. -/
def Obligations.ContextsAreSavedAndLoaded : Prop :=
  (∀ (e : Bool) (r : BitVec 5) (s : State) (t : Thread) (c : Cast) (g : Gallery) (p : Prod) (k : Nat),
    let x := t.uni r.toNat
    let ck := castOf s.focus
    let bad := exec (.ctxsave e r) s = .next (s.trapAt s.focus t c (trapOf .illegal (BitVec.ofNat 64 (64 + r.toNat))))
    let s1 := (s.putC ck { c with stop := some (.ctxsave s.focus) }).putT s.focus
      { t with held := some (.ctxsave (insWord (.ctxsave e r))) }
    Ready s t c [64 + r.toNat] → s.lag t = 0 → s.gal c.gallery = some g → tfind s.prods c.prod = some p → c.res = .core k →
    (t.priv = .program → exec (.ctxsave e r) s = .next (s.trapAt s.focus t c (trapOf .priv 0))) ∧
    (t.priv = .supervisor →
      (x.toNat / 2 % 2 ^ 11 ≠ 0 → bad) ∧ (x.getLsbD 0 = false → p.cpe ≠ 1 → bad) ∧
      (x.getLsbD 0 = true → g.protect = true → bad) ∧
      (x.toNat / 2 % 2 ^ 11 = 0 → (x.getLsbD 0 = true → g.protect = false) → (x.getLsbD 0 = false → p.cpe = 1) →
        c.stop = none → s.extentFails c.gallery .supervisor .write (x &&& 0xFFFF_FFFF_FFFF_F000).toNat c.imageSize =
          .ok none →
        (s1.castStill ck k = false → exec (.ctxsave e r) s = .next s1) ∧
        (t.run = .member → s1.castStill ck k = true →
          let s2 := s1.restCast ck k { c with stop := some (.ctxsave s.focus) } (some s.focus) e
          let c1 := (s2.cast ck).getD c
          let img := s2.imageOf ck k c1 p (if x.getLsbD 0 then 2 else 0) (s1.runCodes ck (some s.focus))
          ∀ s3, img.1.putImage c.gallery k (x &&& 0xFFFF_FFFF_FFFF_F000) img.2 = .ok s3 →
          (x.getLsbD 0 = true → (∀ j ∈ ensembleOf p ck, ∀ y, s3.cast j = some y → y.stop ≠ some .preempt) →
            ∃ z u d, exec (.ctxsave e r) s = .next z ∧ z.mem = s3.mem ∧ z.thread s.focus = some u ∧ u.pc = t.pc + 4 ∧
              u.held = none ∧ u.run = .filed ∧ u.v = t.v ∧ u.u = t.u ∧ z.cast ck = some d ∧ d.stop = none ∧
              d.res = c.res ∧ d.sliceStart = c.sliceStart ∧ d.notified = c.notified) ∧
          (x.getLsbD 0 = false → ∃ z d, exec (.ctxsave e r) s = .next z ∧ z.mem = s3.mem ∧ z.thread s.focus = none ∧
            z.cast ck = some d ∧ d.stop = none ∧ d.res = .off ∧ d.image = none))))) ∧
  (∀ (e : Bool) (r : BitVec 5), EffectWord (.ctxload e r) e [64 + r.toNat] [r.toNat] (fun s t c =>
    let x := t.uni r.toNat
    let a := x &&& 0xFFFF_FFFF_FFFF_F000
    if t.priv = .program then .trap (trapOf .priv 0)
    else if x.toNat / 2 % 2 ^ 11 ≠ 0 then .trap (trapOf .illegal (BitVec.ofNat 64 (64 + r.toNat)))
    else (s.checkImage c.agent c.gallery t.priv a).bind (fun q =>
      .ok (match q.2.2 with
        | some (ck, d, raw, img) => q.1.acceptImage ck d raw img
        | none => q.1, t.putUni r.toNat (BitVec.ofNat 64 q.2.1))))) ∧
  (∀ (s s1 : State) (agent gi : Nat) (g : Gallery) (pr : Priv) (a : DWord) (l : Loc) (h : List Byte) (b : Bool) (s0 : State),
    let found := s.checkImage agent gi pr a
    let cnt := BitVec.ofNat 64 (recNat h 0x20 8)
    let prot := bit (recNat h 6 2) 0
    s.gal gi = some g → s.reach agent gi pr a 128 .read = .ok (s0, l) → s.readBulk gi pr agent a 256 = .ok (s1, h, b) →
    (headerBad h = true ↔ HeaderFault h) ∧ (headerBad h = true → found = .ok (s1, 1, none)) ∧
    (headerBad h = false → s1.imageCast gi h = none → found = .ok (s1, 2, none)) ∧
    (∀ ck c p, headerBad h = false → s1.imageCast gi h = some (ck, c, p) →
      (recNat h 8 8 ≠ c.imageSize → found = .ok (s1, 1, none)) ∧
      (∀ s2 img b2, recNat h 8 8 = c.imageSize → s1.extentFails gi pr .read a.toNat c.imageSize = .ok none →
        s1.readBulk gi pr agent a c.imageSize = .ok (s2, img, b2) →
        let keys := galleryKeys g (ctxLabel p.recAddr c.gidx)
        let wrong : Prop := prot ≠ g.protect ∨ (prot = true ∧
          (tfind g.cur ck ≠ some cnt ∨ (img.drop 0x30).take 32 ≠ imageTag keys img))
        let plain := if prot then sealBody true keys (recNat h 0x20 8) img else img
        let bad := s2.blockBad c ((plain.drop (imageToff c.ntid)).take 0x8000)
        (bad = true ↔ (∃ q, q < 16 ∧ recNat plain (imageToff c.ntid + 32 * q + 0x0C) 1 / 2 % 4 = 2 ∧
            let slot := imageToff c.ntid + 0x2000 + 0x400 * q
            ProgressFault (BitVec.ofNat 32 (recNat plain slot 4))
              (if recNat plain (slot + 0x68) 8 % 2 = 1 then (recNat plain (slot + 0x60) 8 / 2 ^ 40 % 2 ^ 8 + 1) * 64 else 0)
              (recNat plain (imageToff c.ntid + 32 * q + 0x10) 8)) ∨
          ∃ i, i < 32 ∧
            let r := (plain.drop (imageToff c.ntid + 0x1400 + 64 * i)).take 64
            EngineFault r c.ntid (Nat.max (s2.members { engineOf r 0 0 0 0 with gallery := c.gallery }).length 1)) ∧
        (wrong → found = .ok (s2, 4, none)) ∧ (¬ wrong → bad = true → found = .ok (s2, 3, none)) ∧
        (¬ wrong → bad = false → s2.placedElsewhere p ck c = true → found = .ok (s2, 5, none)) ∧
        (¬ wrong → bad = false → s2.placedElsewhere p ck c = false → found = .ok (s2, 0, some (ck, c, img, plain)))))) ∧
  (∀ (s : State) (ck : Nat) (c : Cast) (raw img : List Byte), c.res = .off → s.cast ck = some c → raw.length ≤ 2 ^ 24 →
    ∃ d, (s.acceptImage ck c raw img).cast ck = some d ∧ d.res = .available ∧ d.image = some .loaded ∧
      d.wage = recNat img 0x70 8 ∧
      bytesAt (s.acceptImage ck c raw img).mem (heldImage ck).cell raw.length = raw) ∧
  (∀ (s z : State) (g : Gallery) (gi k base : Nat) (a : DWord) (img : List Byte), s.putImage gi k a img = .ok z →
    s.gal gi = some g → 8 ≤ img.length → a.toNat + img.length ≤ 2 ^ 64 → ReachedAt s gi a.toNat img.length base →
    bytesAt z.mem base img.length = img) ∧
  (∀ (s : State) (ck k : Nat) (c : Cast) (p : Prod) (g : Gallery) (core : Core) (issued : List MatOp) (flags : Nat)
    (run : Nat → Nat), s.gal c.gallery = some g →
    let img := s.plainImage ck c p core issued flags run
    let toff := imageToff c.ntid
    let data := toff + 0x8000
    let tiles := data + c.spsize
    (g.protect = false →
      s.imageOf ck k c p flags run = (s, s.plainImage ck c p (s.core k) ((s.core k).issuedOf ck) flags run)) ∧
    toff = (0x100 + c.ntid * 640 + 4095) / 4096 * 4096 ∧ img.length = c.imageSize ∧
    c.imageSize = (tiles + 16448 * (maskTiles c.amask).length + 4095) / 4096 * 4096 ∧
    recNat img 0x00 4 = 0x474D_4943 ∧ recNat img 0x04 2 = 1 ∧ recNat img 0x06 2 = flags % 2 ^ 16 ∧
    recNat img 0x08 8 = c.imageSize % 2 ^ 64 ∧ recNat img 0x10 8 = p.recAddr.toNat ∧ recNat img 0x18 4 = c.gidx % 2 ^ 32 ∧
    (∀ i, 0x1C ≤ i ∧ i < 0x70 ∨ 0x78 ≤ i ∧ i < 0x100 → img.getD i 0 = 0) ∧ recNat img 0x70 8 = c.wage % 2 ^ 64 ∧
    (∀ i t, i < c.ntid → c.ntid ≤ 2048 → s.thread (thrKey ck i) = some t →
      let b := (img.drop (0x100 + 640 * i)).take 640
      (AtRest t → SavedThread t b) ∧ (run i < 8 → recNat b 0x24B 1 % 8 = run i) ∧
      (run i ≠ 3 → recNat b 0x260 1 = (t.pc - t.hdr).toNat / 4 % 2 ^ 8) ∧
      recNat b 0x250 8 = (if t.poison.isSome then 2 ^ 9 else 0) ∧
      recNat b 0x258 8 = ((t.poison.map Prod.snd).getD 0).toNat) ∧
    (∀ q, q < 16 →
      let r := c.qreg q
      recNat img (toff + 32 * q) 8 = r.w.toNat ∧ recNat img (toff + 32 * q + 8) 4 = r.m.toNat ∧
      recNat img (toff + 32 * q + 0x0C) 1 = r.quartet.toNat + 2 * r.state.code ∧
      recNat img (toff + 32 * q + 0x0D) 3 = r.gen.toNat ∧ recNat img (toff + 32 * q + 0x10) 8 = r.progress.toNat) ∧
    recNat img (toff + 0x1C00) 8 = c.tvec.toNat ∧
    recNat img (toff + 0x1C08) 8 = (c.notify.toNat * 2 ^ 32 + c.ticks) % 2 ^ 64 ∧
    recNat img (toff + 0x1C10) 8 = c.rdvto % 2 ^ 64 ∧
    (∀ i, i < 8 → recNat img (toff + 0x1C18 + 8 * i) 8 = (tget c.bpaddr i 0).toNat ∧
      recNat img (toff + 0x1C58 + 8 * i) 8 = (tget c.bpctl i 0).toNat) ∧
    (∀ i, i < 4 → recNat img (toff + 0x1C98 + 8 * i) 8 = (tget c.wpaddr i 0).toNat ∧
      recNat img (toff + 0x1CB8 + 8 * i) 8 = (tget c.wpctl i 0).toNat) ∧
    recNat img (toff + 0x1CD8) 8 = c.qmmas % 2 ^ 64 ∧
    (∀ i, i < c.spsize → img.getD (data + i) 0 = byteAt s.mem ((Loc.scratch ck 0).cell + i)) ∧
    (∀ j d, (maskTiles c.amask)[j]? = some d → ∀ i, i < 4096 →
      recNat img (tiles + 16448 * j + 4 * i) 4 = ((core.tile d).getD i 0).toNat)) ∧
  (∀ (s : State) (ck k : Nat) (c : Cast) (p : Prod) (img : List Byte), c.ntid ≤ 2048 → img.length = c.imageSize →
    let z := s.restore ck k c p img
    let toff := imageToff c.ntid
    let data := toff + 0x8000
    let tiles := data + c.spsize
    (∀ i t, i < c.ntid → AtRest t → SavedThread t ((img.drop (0x100 + 640 * i)).take 640) → c.haltReq = false →
      (∀ g, s.gal c.gallery = some g → ∀ x ∈ g.snapOwed, x.tk ≠ thrKey ck i) →
      ∃ u, z.thread (thrKey ck i) = some u ∧ TakesUp t u) ∧
    (∃ d, z.cast ck = some d ∧ d.res = .core k ∧
      (∀ q, q < 16 →
        let r := d.qreg q
        r.w.toNat = recNat img (toff + 32 * q) 8 ∧ r.m.toNat = recNat img (toff + 32 * q + 8) 4 ∧
        r.quartet.toNat + 2 * r.state.code = recNat img (toff + 32 * q + 0x0C) 1 % 8 ∧
        r.gen.toNat = recNat img (toff + 32 * q + 0x0D) 3 ∧ r.progress.toNat = recNat img (toff + 32 * q + 0x10) 8) ∧
      d.tvec = BitVec.ofNat 64 (recNat img (toff + 0x1C00) 8) &&& 0x00FF_FFFF_FFFF_FFFD ∧
      (∀ i, i < 8 →
        tget d.bpaddr i 0 = BitVec.ofNat 64 (recNat img (toff + 0x1C18 + 8 * i) 8) &&& 0x00FF_FFFF_FFFF_FFFC ∧
        tget d.bpctl i 0 = BitVec.ofNat 64 (recNat img (toff + 0x1C58 + 8 * i) 8) &&& bpctlMask) ∧
      (∀ i, i < 4 → tget d.wpaddr i 0 = BitVec.ofNat 64 (recNat img (toff + 0x1C98 + 8 * i) 8) &&& addr56 ∧
        tget d.wpctl i 0 = BitVec.ofNat 64 (recNat img (toff + 0x1CB8 + 8 * i) 8) &&& wpctlMask) ∧
      d.qmmas = recNat img (toff + 0x1CD8) 8) ∧
    (∀ i, i < c.spsize → byteAt z.mem ((Loc.scratch ck 0).cell + i) = img.getD (data + i) 0) ∧
    (∀ j d, (maskTiles c.amask)[j]? = some d → ∀ i, i < 4096 →
      (((z.core k).tile d).getD i 0).toNat = recNat img (tiles + 16448 * j + 4 * i) 4))

/-! ## Scenes, choruses, causes -/

/-- R66 to R68, R79, R83, R27, R187 to R189: a slot whose oldest thread is old enough is eligible; the slot first in order is
drawn, and its threads are Members of new choruses; a chorus fetches its scene or traps, waits for its header's cues, and the
first in order wins a free lane; the header binds the cues of its thread and the words after it are next. A fetch finds the
scene's words, or the first word that breaks a rule, for which every member traps; a word that must end its scene and does not
is no instruction. Which word offends where several readings are open is log 19's, and that a drawn chorus precedes a
sub-chorus of its rank is log 34's (the model's choices). A walk fills the TLB and changes nothing else. -/
def Obligations.ScenesAreDrawnFetchedAndStarted : Prop :=
  (∀ (w : BitVec 12) (a b : BitVec 4) (l : BitVec 1) (s : State) (t : Thread) (c : Cast), Ready s t c [] →
    ((∀ k, k < 12 → w.getLsbD k = true → t.cue k = 0) → exec (.scene w a b l) s = .next (s.putT s.focus { t with
      hdr := t.pc, pc := t.pc + (if l = 1 then 8 else 4), inScene := true, cueA := a.toNat, cueB := b.toNat })) ∧
    ((∃ k, k < 12 ∧ w.getLsbD k = true ∧ t.cue k ≠ 0) → exec (.scene w a b l) s = .next s)) ∧
  (∀ (s : State) (k n : Nat) (x : Slot), tfind (s.core k).slots n = some x →
    let age := (s.core k).wingage.toNat
    (∀ m ∈ x.tids, ∀ t, s.thread (thrKey x.ck m) = some t → t.filedAt + age ≤ s.clock (tileOf k) → x.since = none →
      exec (.slotAged k n) s = .next (s.putSlot k n { x with since := some (s.clock (tileOf k)) })) ∧
    (0 < age → (∀ m ∈ x.tids, ∀ t, s.thread (thrKey x.ck m) = some t → s.clock (tileOf k) < t.filedAt + age) →
      exec (.slotAged k n) s = .next s) ∧
    (s.bestSlot k = some n → (∀ m ∈ x.tids, m < 2048 ∧ s.deliver (thrKey x.ck m) = s ∧
        ∃ t, s.thread (thrKey x.ck m) = some t ∧ x.keeps t = true) →
      ∃ z, exec (.chorusDraw k n) s = .next z ∧
        tfind (z.core k).slots n = some (Slot.empty x.ck (s.clock (tileOf k))) ∧
        (∀ m ∈ x.tids, ∀ t, s.thread (thrKey x.ck m) = some t →
          z.thread (thrKey x.ck m) = some { t with run := .member } ∧
          ∃ j y, (s.core k).nextChorus ≤ j ∧ (z.core k).chorusNo j = some y ∧ m ∈ y.members ∧ y.hdr = t.hdr ∧ y.pc = t.pc ∧
            y.phase = .fetch ∧ y.priv = t.priv)) ∧
    (s.bestSlot k ≠ some n → exec (.chorusDraw k n) s = .next s)) ∧
  (∀ (s : State) (k n lane : Nat) (x : Chorus) (c : Cast), (s.core k).chorusNo n = some x → s.cast x.ck = some c →
    (s.bestChorus k = some n → (s.core k).freeLane = some lane → ∃ z, exec (.laneGrant k n) s = .next z ∧
      (z.core k).chorusNo n = some { x with phase := .running, lane := some lane, todo := x.members } ∧ z.mem = s.mem) ∧
    (s.bestChorus k ≠ some n → exec (.laneGrant k n) s = .next s) ∧
    (x.phase = .header → (∀ m ∈ x.members, ∀ t, s.thread (thrKey x.ck m) = some t →
        ∀ j, j < 12 → bit (fld x.header 12 12) j = true → t.cue j = 0) →
      exec (.headerWaitMet k n) s = .next (s.putChorus k n { x with phase := .lane, since := s.clock (tileOf k) })) ∧
    (x.phase = .fetch → c.stop = none → x.pc = x.hdr →
      (∀ ws st, s.fetchScene c x.priv x.hdr = .ok ws st → ∃ z, exec (.sceneFetch k n) s = .next z ∧
        (z.core k).chorusNo n = some { x with words := ws, phase := .header } ∧ z.threads = s.threads) ∧
      (∀ i m t, s.fetchScene c x.priv x.hdr = .illegal i → x.members = [m] → s.thread (thrKey x.ck m) = some t →
        exec (.sceneFetch k n) s = .next ((s.markScene c x.priv x.hdr i).enterTrap (thrKey x.ck m) t c [.illegal]
          (x.hdr + BitVec.ofNat 64 (4 * i)) 0 0 x.hdr x.hdr)) ∧
      (∀ m t, s.fetchScene c x.priv x.hdr = .noHeader → x.members = [m] → s.thread (thrKey x.ck m) = some t →
        exec (.sceneFetch k n) s = .next ((s.markScene c x.priv x.hdr 0).enterTrap (thrKey x.ck m) t c [.illegal]
          x.pc 0 0 x.pc x.hdr)) ∧
      (∀ fk m t, s.fetchScene c x.priv x.hdr = .page fk → x.members = [m] → s.thread (thrKey x.ck m) = some t →
        exec (.sceneFetch k n) s =
          .next ((s.noteWalk c.gallery x.hdr).enterTrap (thrKey x.ck m) t c [.page] x.hdr fk 0 x.hdr x.hdr)) ∧
      (x.members.Nodup →
        let l := x.members.filterMap (fun m => (s.thread (thrKey x.ck m)).map (fun t => (thrKey x.ck m, t)))
        let bad (s1 : State) (i : TrapInfo) (pc : DWord) : Prop :=
          ∃ z, exec (.sceneFetch k n) s = .next z ∧ EachEnters s1 z c (fun _ => i) (fun _ => pc) l
        (∀ i, s.fetchScene c x.priv x.hdr = .illegal i →
          bad (s.markScene c x.priv x.hdr i) (trapOf .illegal (x.hdr + BitVec.ofNat 64 (4 * i))) x.hdr) ∧
        (s.fetchScene c x.priv x.hdr = .noHeader → bad (s.markScene c x.priv x.hdr 0) (trapOf .illegal x.hdr) x.hdr) ∧
        (∀ fk, s.fetchScene c x.priv x.hdr = .page fk → bad (s.noteWalk c.gallery x.hdr) ⟨.page, x.hdr, fk, 0⟩ x.hdr)))) ∧
  (∀ (s : State) (c : Cast) (pr : Priv) (a : DWord) (w : Word), s.fetch c pr a = .ok w → isHeader w = false →
    s.fetchScene c pr a = .noHeader) ∧
  (∀ (s : State) (c : Cast) (pr : Priv) (a : DWord) (w : Nat → Word),
    let at' (i : Nat) : FRes := s.fetch c pr (a + BitVec.ofNat 64 (4 * i))
    let landing : Prop := (w 0).getLsbD 3 = true
    let known : Prop := ∃ i, decodeWord (w 0).toNat 0 = .ok i
    let wrong : Prop := fld (w 1).toNat 14 18 ≠ 0 ∨ (w 1).getLsbD 7 = true ∨ 64 < fld (w 1).toNat 0 7 ∨ 32 < fld (w 1).toNat 8 6
    let first := if (w 0).getLsbD 3 then 2 else 1
    (∀ fk, s.fetch c pr a = .fail fk → s.fetchScene c pr a = .page fk) ∧
    (s.fetch c pr a = .ok (w 0) → isHeader (w 0) = true →
      (¬known → s.fetchScene c pr a = .illegal 0) ∧
      (known → landing → at' 1 = .ok (w 1) → wrong → s.fetchScene c pr a = .illegal 1) ∧
      (known → (landing → at' 1 = .ok (w 1) ∧ ¬wrong) → ∀ ps p last, Runs w none first ps p last → p - first ≤ 24 →
        (∀ i, first ≤ i → i < p → at' i = .ok (w i)) →
        (at' p = .ok (w p) → at' (p + 1) = .ok (w (p + 1)) → FindsScene w first ps p last (s.fetchScene c pr a)) ∧
        (∀ fk, p - first < 24 → at' p = .fail fk → s.fetchScene c pr a = .page fk)))) ∧
  (∀ (x lit : Nat) (i : Instr), decodeWord x lit = .ok i → endsItsScene i = true → x / 2 ^ 30 % 2 = 1) ∧
  (∀ (s : State) (k : Nat),
    (∀ n x r, (n, x) ∈ (s.core k).slots → MayDraw s k n x r →
      (∀ m y q, (m, y) ∈ (s.core k).slots → (m, y) ≠ (n, x) → MayDraw s k m y q → ServedFirst r q) → s.bestSlot k = some n) ∧
    (∀ n, s.bestSlot k = some n → ∃ x r, (n, x) ∈ (s.core k).slots ∧ MayDraw s k n x r ∧
      ∀ m y q, (m, y) ∈ (s.core k).slots → MayDraw s k m y q → ¬ServedFirst q r) ∧
    (∀ n x r, (n, x) ∈ (s.core k).chorus → WaitsForLane s k x r →
      (∀ m y q, (m, y) ∈ (s.core k).chorus → (m, y) ≠ (n, x) → WaitsForLane s k y q → ServedFirst r q) →
      s.bestChorus k = some n) ∧
    (∀ n, s.bestChorus k = some n → ∃ x r, (n, x) ∈ (s.core k).chorus ∧ WaitsForLane s k x r ∧
      ∀ m y q, (m, y) ∈ (s.core k).chorus → WaitsForLane s k y q → ¬ServedFirst q r) ∧
    (∀ ck ms, s.oldest ck ms ≤ s.tick ∧ (∀ m ∈ ms, ∀ t, s.thread (thrKey ck m) = some t → s.oldest ck ms ≤ t.age) ∧
      (s.oldest ck ms = s.tick ∨ ∃ m ∈ ms, ∃ t, s.thread (thrKey ck m) = some t ∧ s.oldest ck ms = t.age)) ∧
    (∀ n m p q, tfind s.prods n = some p → tfind s.prods m = some q → p.key.before q.key = true →
      s.launchPlace n < s.launchPlace m)) ∧
  (∀ (s : State) (k : Nat) (va : DWord) (p : Nat × Cast) (g : Gallery) (e ea bits : Nat) (trail : List Nat),
    s.casts.find? (fun p => p.2.coreNo == some k) = some p → s.gal p.2.gallery = some g →
    walk s.readable p.2.gallery g va.toNat = .leaf e ea bits trail → ∃ z, exec (.translationWalk k va) s = .next z ∧
      (p.2.gallery, va.toNat / 2 ^ bits * 2 ^ bits) ∈ (z.core k).tlb ∧ (z.core k).tlb.length ≤ 256 ∧
      z = { s with cores := z.cores } ∧ z.core k = { s.core k with tlb := (z.core k).tlb })

/-- R194, R216, R217, R203, R409: a HALT due to a Filed thread is delivered with its resume address; where nothing is due
nothing happens, nor during a quiesce (R391). A rendezvous whose earliest arrival is RDVTO ticks old fails with code 0, a
signing with code 2; each member of a set that fails takes its own trap at its own instruction, for code 2 with the seats of its
own window that have not signed. A halt asked for from outside is due to every thread at program privilege, or kept for a cast on
no core (the model's choice, log 24); a protected gallery without external debug refuses it, and the curator logs that. -/
def Obligations.CausesAreDelivered : Prop :=
  (∀ (s : State) (tk : Nat) (t : Thread) (c : Cast), s.thread tk = some t → s.cast (castOf tk) = some c → t.run = .filed →
    s.takeOwed tk t c = none → t.dueSlice = false →
    (t.dueHalt = true → s.quiescing c = false → c.tvecEn = true → t.pfx = none → ∃ z u, exec (.causeDelivery tk) s = .next z ∧ z.thread tk = some u ∧
      u.tcause = t.tcause ||| (1#23 <<< 21) ∧ u.tepc = pcBits t.pc ∧ u.tval = 0 ∧ u.priv = .supervisor ∧
      u.pc = c.tvecBase ∧ u.haltDue = false ∧ u.v = t.v ∧ u.u = t.u ∧ z.mem = s.mem) ∧
    (t.dueHalt = false ∨ s.quiescing c = true → exec (.causeDelivery tk) s = .next s)) ∧
  (∀ (s : State) (tk since q : Nat) (t : Thread) (c : Cast) (mask : Word) (key : OpKey) (e : Bool),
    let ck := castOf tk
    let set := s.rdvSet ck (windowOf (tidOf tk)) t.pc t.priv mask
    s.thread tk = some t → s.cast ck = some c →
    (t.held = some (.rdv mask since) →
      (c.rdvto ≠ 0 → firstTick s.tick set + c.rdvto ≤ s.tick →
        exec (.rdvTimeout tk) s = .next (s.failSet ck (windowOf (tidOf tk)) c t.pc t.priv mask 0)) ∧
      (c.rdvto = 0 ∨ s.tick < firstTick s.tick set + c.rdvto → exec (.rdvTimeout tk) s = .next s)) ∧
    (t.held = some (.sign q key e since) →
      (c.rdvto ≠ 0 → firstTick s.tick (s.heldSigners ck q) + c.rdvto ≤ s.tick →
        exec (.rdvTimeout tk) s = .next (s.trapEach c (fun k =>
          trapOf .rdv (rdvTval q 2 (s.unsigned ck q (windowOf (tidOf k)) (c.qreg q)))) (s.heldSigners ck q))) ∧
      (c.rdvto = 0 ∨ s.tick < firstTick s.tick (s.heldSigners ck q) + c.rdvto → exec (.rdvTimeout tk) s = .next s))) ∧
  (∀ (s : State) (c : Cast) (x : Nat → TrapInfo) (l : List (Nat × Thread)), (l.map (·.1)).Nodup →
    EachTraps s (s.trapEach c x l) c x l) ∧
  (∀ (s : State) (ck q w j : Nat) (r : QReg), j < 32 → ((s.unsigned ck q w r).getLsbD j = true ↔
    ∃ p ∈ s.threads, castOf p.1 = ck ∧ tidOf p.1 = 32 * w + j ∧ p.2.run ≠ .exited ∧ r.w.getLsbD w = true ∧ r.m.getLsbD j = true ∧
      ∀ key e since, p.2.held ≠ some (.sign q key e since))) ∧
  (∀ (s : State) (ck : Nat) (c : Cast) (g : Gallery), s.cast ck = some c → s.gal c.gallery = some g →
    (g.protect = true → g.debug = false → ∃ z, exec (.haltRequest ck) s = .next z ∧ z.threads = s.threads ∧
      z.casts = s.casts ∧ (tget z.dev.logs (3 * 2 ^ 28) ⟨1, []⟩).records.getLast? = some (logRecord
        (tget s.dev.logs (3 * 2 ^ 28) ⟨1, []⟩).next s.tick 3 0 6 c.gallery
        (recordDetail (((tfind s.prods c.prod).map (·.recAddr)).getD 0) c.gidx))) ∧
    (g.protect = false ∨ g.debug = true → c.coreNo = none → ∃ z d, exec (.haltRequest ck) s = .next z ∧
      z.cast ck = some d ∧ d = { c with haltReq := true } ∧ z.threads = s.threads) ∧
    (g.protect = false ∨ g.debug = true → c.coreNo ≠ none → ∃ z, exec (.haltRequest ck) s = .next z ∧
      ∀ j u, castOf j = ck → s.thread j = some u → u.run ≠ .exited →
        ∃ v, z.thread j = some v ∧ (u.priv = .program → v.dueHalt = true) ∧
          (u.priv = .supervisor → v.tstat.pendHalt = true) ∧ v.v = u.v ∧ v.u = u.u))

/-! ## The box office -/

/-- R85, R345, R350 to R353, R361, R363, R364: a cast of which everything has completed ends, and with its last cast a node; a
pass places what it can and changes nothing while a gallery is not open; what has waited 200,000 ticks is a blocker; an empty
core is gated after its hold and wakes in the order asked; a slice expires, is notified, and is decided. A company stands where
it is bound or at the first free position; an ensemble is placed whole, on the first cluster after the tile's last that takes
each of its casts on its first fitting core; an admitted cast and its threads start as the record sets them (R59, R344), or
take up the cast's image. When a pass is made, and how long a notice lasts at the least, is log 22 (the model's choice). -/
def Obligations.TheBoxOfficeActs : Prop :=
  (∀ (s : State) (ck k : Nat) (c : Cast) (p : Prod), s.cast ck = some c → c.res = .core k → tfind s.prods c.prod = some p →
    (s.castDone ck k c = false → exec (.castEnd ck) s = .next s) ∧
    (s.castDone ck k c = true → p.ended + 1 ≠ p.casts → ∃ z d q, exec (.castEnd ck) s = .next z ∧ z.cast ck = some d ∧
      d.res = .ended ∧ tfind z.prods c.prod = some q ∧ q = { p with ended := p.ended + 1 } ∧
      (∀ tk, castOf tk = ck → z.thread tk = none) ∧
      (∀ i, i < 2 ^ 41 → byteAt z.mem ((Loc.scratch ck 0).cell + i) = 0)) ∧
    (s.castDone ck k c = true → p.ended + 1 = p.casts → tsorted s.prods = true →
      ∃ z, exec (.castEnd ck) s = .next z ∧ tfind z.prods c.prod = none)) ∧
  (∀ (s z : State) (gi t : Nat) (g : Gallery) (w : Wait) (p : Prod), s.gal gi = some g →
    (g.state ≠ .opened → exec (.boxOfficePass gi) s = .next s) ∧
    (g.state = .opened → g.ready = [] → exec (.boxOfficePass gi) s = .next s) ∧
    (g.state = .opened → g.ready = [w] → tfind s.prods w.node = some p → s.positionFor w.node p g w.company = some t →
      (s.tryPlace gi g w p t = some z → exec (.boxOfficePass gi) s = .next z) ∧
      (s.tryPlace gi g w p t = none → exec (.boxOfficePass gi) s = .next s))) ∧
  (∀ (s : State) (n company : Nat) (p : Prod) (g : Gallery),
    let taken (t : Nat) : Prop := ∃ b ∈ p.bind, b.2 = t ∧ s.companyEnded n p b.1 = false
    (∀ t, tfind p.bind company = some t → s.positionFor n p g company = some t) ∧
    (tfind p.bind company = none →
      (∀ t, s.positionFor n p g company = some t ↔ t < g.tiles.length ∧ ¬taken t ∧ ∀ j, j < t → taken j) ∧
      (s.positionFor n p g company = none ↔ ∀ t, t < g.tiles.length → taken t))) ∧
  (∀ (s : State) (k cl n : Nat) (p : Prod), (s.coreFits k n p = true ↔ CoreTakes s k n p) ∧
    (s.clusterFits cl n p = true ↔ ClusterTakes s cl n p)) ∧
  (∀ (s : State) (gi t : Nat) (g : Gallery) (w : Wait) (p : Prod),
    let tile := g.tiles.getD t 0
    let waited := w.wage + (s.tick - w.since)
    let cks := (List.range p.cpe).map (fun i =>
      let j := (w.company * p.epc + w.ensemble) * p.cpe + i
      (castKey w.node j, j))
    let cluster (i : Nat) : Nat := tile * 40 + ((s.tile tile).cursor + 1 + i) % 40
    let fits (i : Nat) : Prop := ∃ z, Placed (cluster i) w.node p waited cks s z
    (s.mayRun w.node p = false ∨ s.imagesReadable p cks = false → s.tryPlace gi g w p t = none) ∧
    (s.mayRun w.node p = true → s.imagesReadable p cks = true →
      ((∀ i, i < 40 → ¬fits i) → s.tryPlace gi g w p t = none) ∧
      (∀ i z, i < 40 → (∀ j, j < i → ¬fits j) → Placed (cluster i) w.node p waited cks s z →
        let z1 := z.putTile tile { z.tile tile with cursor := cluster i % 40 }
        s.tryPlace gi g w p t = some (({ z1 with
          prods := tmod z1.prods w.node (fun x => { x with bind := tput x.bind w.company t })
          gals := tmod z1.gals gi (fun x => { x with ready := x.ready.filter (· != w) }) } : State).admitPlaced cks)))) ∧
  (∀ (s : State) (ck gidx k n waited : Nat) (p : Prod),
    let z := s.placeCast ck gidx k n p waited
    (∃ c, z.cast ck = some c ∧ c.res = .waking k ∧ c.charge = s.chargeFor p (clusterOf k) ∧ c.wage = waited) ∧
    (z.cluster (clusterOf k)).spent = (s.cluster (clusterOf k)).spent + recNat p.bytes 0x58 4 ∧
    (s.castsOn k = [] → (z.core k).splitR = recNat p.bytes 0x10 1 ∧ (z.core k).splitS = recNat p.bytes 0x11 1) ∧
    (s.castsOn k ≠ [] → (z.core k).splitR = (s.core k).splitR ∧ (z.core k).splitS = (s.core k).splitS) ∧
    ((s.core k).gated = true → (z.core k).waking.isSome = true) ∧ (z.core k).gated = (s.core k).gated) ∧
  (∀ (s : State) (ck k : Nat) (c : Cast) (p : Prod), s.cast ck = some c → tfind s.prods c.prod = some p →
    (c.image = none → c.haltReq = false → p.ntid ≤ 2048 → ∃ d, (s.letIn ck k).cast ck = some d ∧ d.res = .core k ∧
      d.tvec = BitVec.ofNat 64 (recNat p.bytes 0x18 8) &&& 0x00FF_FFFF_FFFF_FFFD ∧ d.notify = bit (recNat p.bytes 0x64 4) 31 ∧
      d.ticks = (if fld (recNat p.bytes 0x64 4) 0 31 = 0 then 200000 else Nat.max 1000 (fld (recNat p.bytes 0x64 4) 0 31)) ∧
      d.amask = BitVec.ofNat 8 (recNat p.bytes 0x12 1) ∧ d.cgrant = bit (recNat p.bytes 0x13 1) 0 ∧ d.q = [] ∧ d.vt = [] ∧
      d.stop = none ∧ d.notified = none ∧
      (∀ i, i < p.ntid → ∃ u, (s.letIn ck k).thread (thrKey ck i) = some u ∧ Starts p c.gidx i u) ∧
      (∀ i, i < 2 ^ 41 → byteAt (s.letIn ck k).mem ((Loc.scratch ck 0).cell + i) = 0)) ∧
    (∀ a z img, c.image = some a →
      ((s.startNode c.prod p).ptsAfter k ((s.startNode c.prod p).startOf c.prod)).readImage ck c p a = some (z, img) →
      s.letIn ck k = z.restore ck k c p img)) ∧
  (∀ (s : State) (gi : Nat) (g : Gallery), s.gal gi = some g → ∃ z h, exec (.blockerTimeout gi) s = .next z ∧
    z.gal gi = some h ∧ h.ready.length = g.ready.length ∧
    (∀ w ∈ h.ready, 200000 ≤ w.wage + (s.tick - w.since) → w.blocker = true) ∧
    (∀ w ∈ g.ready, w.wage + (s.tick - w.since) < 200000 → w ∈ h.ready)) ∧
  (∀ (s : State) (k n : Nat),
    ((s.core k).gated = false → s.castsOn k = [] → (s.core k).hold + 2000 ≤ s.tick →
      exec (.coreGate k) s = .next (s.putCore k { s.core k with gated := true })) ∧
    ((s.core k).gated = true ∨ s.castsOn k ≠ [] ∨ s.tick < (s.core k).hold + 2000 → exec (.coreGate k) s = .next s) ∧
    ((s.core k).waking = some n → s.wakesFirst k n = true →
      ∃ z, exec (.coreWakeComplete k) s = .next z ∧ (z.core k).gated = false ∧ (z.core k).waking = none) ∧
    ((s.core k).waking = none → exec (.coreWakeComplete k) s = .next s)) ∧
  (∀ (s : State) (ck k t : Nat) (c : Cast) (g : Gallery) (p : Prod), s.cast ck = some c → c.res = .core k → c.stop = none →
    s.gal c.gallery = some g → g.state = .opened → tfind s.prods c.prod = some p →
    (c.notified = none → s.haltedByDebugger ck = false → c.sliceStart + c.ticks ≤ s.tick →
      ∃ z, exec (.sliceExpiry ck) s = .next z ∧ z.cast ck = some { c with notified := some s.tick } ∧
        (∀ j u, castOf j = ck → s.thread j = some u → c.notify = true → u.run ≠ .exited →
          ∃ v, z.thread j = some v ∧ (u.priv = .program → v.dueSlice = true) ∧
            (u.priv = .supervisor → v.tstat.pendSlice = true)) ∧
        (c.notify = false → z.threads = s.threads)) ∧
    (s.tick < c.sliceStart + c.ticks → exec (.sliceExpiry ck) s = .next s) ∧
    (c.notified = some t → s.noticeOver ck t = true →
      (g.ready.any (fun w => decide (c.prio ≤ s.waitPrio w)) = false →
        exec (.sliceDecision ck) s = .next (s.putC ck { c with notified := none, sliceStart := s.tick })) ∧
      (g.ready.any (fun w => decide (c.prio ≤ s.waitPrio w)) = true →
        exec (.sliceDecision ck) s =
          .next ((s.putC ck { c with notified := none }).beginStop (ensembleOf p ck) .preempt).finishStops)) ∧
    (c.notified = some t → s.noticeOver ck t = false → exec (.sliceDecision ck) s = .next s))

/-! ## Power, heat, refresh, time -/

/-- R18, R303, R335, R336, R355, R359, R360, R374: a step of the slew limiter, of which a tick holds those whose clocks the
cluster's phase gives, moves towards the demand and stays under the cap, and a core without demand receives no group; a power
interval, once in 400 ticks, takes the new samples and keeps every tile's clock from 0.8 to 2.2 GHz; a store is in a window
exactly while its calendar holds one; the timestamp of a core passes every lease that it holds, in every 200th tick too. The
band of a store follows its sample, and falls one at a time after 3 °C below the edge. Whether a cluster exceeded its energy,
and whether a clock rises, is free (logs 6 and 9). -/
def Obligations.PowerRefreshAndTimestamps : Prop :=
  (∀ (s : State) (k : Nat),
    let x := (s.cluster k).slew
    let r := s.demand k
    (s.stepsDue k ≤ (s.cluster k).stepsNow → exec (.slewStep k) s = .next s) ∧
    ((s.cluster k).stepsNow < s.stepsDue k → ∃ z, exec (.slewStep k) s = .next z ∧ SameMemory s z ∧ z.threads = s.threads ∧
      (z.cluster k).stepsNow = (s.cluster k).stepsNow + 1 ∧
      (∀ j ∈ clusterCores k, (s.core j).arrayBusy = false → (z.core j).grants = 0) ∧
      (x.a < r → (z.cluster k).slew.a = Nat.min (Nat.min r (x.a + x.up.getD x.mu 0)) (s.cluster k).cap ∧
        (z.cluster k).slew.md = 0 ∧ (z.cluster k).slew.mu = Nat.min (x.mu + 1) 15) ∧
      (r < x.a → (z.cluster k).slew.a = Nat.min (Nat.max r (x.a - x.dn.getD x.md 0)) (s.cluster k).cap ∧
        (z.cluster k).slew.mu = 0 ∧ (z.cluster k).slew.md = Nat.min (x.md + 1) 15) ∧
      (x.a = r → (z.cluster k).slew.a = Nat.min r (s.cluster k).cap ∧ (z.cluster k).slew.mu = 0 ∧
        (z.cluster k).slew.md = 0))) ∧
  (∀ (s : State) (ts : List Nat),
    (s.tick < s.nextInterval → exec (.powerInterval ts) s = .next s) ∧
    (s.nextInterval ≤ s.tick → ∃ z, exec (.powerInterval ts) s = .next z ∧ SameMemory s z ∧ z.threads = s.threads ∧
      z.nextInterval = s.nextInterval + 400 ∧
      (∀ k, k < 2240 → (z.cluster k).temp = ts.getD k (s.cluster k).temp ∧ (z.cluster k).spent = 0 ∧
        ((z.cluster k).cap = 16 ∨ (z.cluster k).cap = ((s.cluster k).cap + 1) / 2)) ∧
      (∀ n, 8 ≤ (s.tile n).freq → (s.tile n).freq ≤ 22 → 8 ≤ (z.tile n).freq ∧ (z.tile n).freq ≤ 22))) ∧
  (∀ (b x y : Nat), b ≤ 2 →
    (95 ≤ y → nextBand b x y = 2) ∧ (85 ≤ y → 1 ≤ nextBand b x y) ∧
    (0 < b → y < 85 → x + 3 ≤ bandEdge b → nextBand b x y = b - 1) ∧
    (y < 85 → bandEdge b < x + 3 → nextBand b x y = b)) ∧
  (∀ (s : State) (k : Nat),
    ((s.windowEnd k).isSome = true → exec (.refreshWindowStart k) s = .next (s.setWindow k true) ∧
      exec (.refreshWindowEnd k) s = .next s ∧ (s.setWindow k true).refreshing (some k) = true) ∧
    (s.windowEnd k = none → exec (.refreshWindowStart k) s = .next s ∧
      exec (.refreshWindowEnd k) s = .next (s.setWindow k false) ∧ (s.setWindow k false).refreshing (some k) = false)) ∧
  (∀ (s : State) (k : Nat), k < 10000 → (∀ q ∈ (s.core k).copies, q.2.rts + 1 < 2 ^ 64) →
    (∃ z, exec (.ptsAdvance k) s = .next z ∧ z = { s with cores := z.cores } ∧ s.pts k ≤ z.pts k ∧
      ∀ q ∈ (s.core k).copies, q.2.rts < z.pts k) ∧
    (s.tick % 200 = 0 → tfind s.cores k ≠ none → ∀ q ∈ (s.core k).copies, q.2.rts < s.leasesPassed.pts k))

/-! ## The module, repair, and what reaches it from outside -/

/-- R426, R412, R311, R405, R420, R378, R380, R388: module reset clears the machine and keeps what lies outside it, and ends
in recovery where a step fails; a host access reads or writes gallery memory where the gallery and the stream it arrives over
let it; a router drops and logs a packet of another tag: a read completes with zeros and POISON, a write is a fault of its
source tile; an atomic whose read is dropped has written nothing (R194); a failing region is retired at once where no gallery
holds its tile; a core that fails has no name and no queue from then on. Which packet is dropped is free (log 9); the order of a host write's lines and the log unit of what a router
refuses are the model's choices (logs 26 and 29). -/
def Obligations.ResetRepairAndHostAccess : Prop :=
  (∀ (failed : Option Nat) (bad : List Nat) (s : State), ∃ z, exec (.moduleReset failed bad) s = .next z ∧ z.gals = [] ∧
    z.threads = [] ∧ z.casts = [] ∧ z.prods = [] ∧ z.cores = [] ∧ z.ops = [] ∧ z.tick = 0 ∧ z.mem = outsideCells s.mem ∧
    (z.dev.recovery = true ↔ failed ≠ none ∨ s.dev.stagedGood = false) ∧ z.dev.ports = [] ∧
    (s.dev.stagedGood = true → (∀ n, failed = some n → 3 < n) →
      z.dev.good = (List.range 224).filter (fun r => !bad.contains r)) ∧
    (∀ img, s.dev.staged = some img → s.dev.stagedGood = true → (∀ n, failed = some n → 2 < n) →
      z.dev.fw = Config.imageVersion img ∧ z.dev.staged = none)) ∧
  (∀ (s : State) (gi a : Nat) (g : Gallery) (stream : Option Nat) (bs : List Byte), s.gal gi = some g → g.state = .opened →
    a + bs.length ≤ g.memSize →
    (g.hostOpen stream = true → g.snap = none → ∃ z, exec (.hostCxlMemAccess ⟨gi, stream⟩ a true bs) s = .next z ∧
      bytesAt z.mem (Loc.dram gi a).cell bs.length = bs ∧
      (∀ y, Outside y (Loc.dram gi a).cell bs.length → byteAt z.mem y = byteAt s.mem y) ∧
      tget z.issued hostAgent 0 = tget s.issued hostAgent 0 + 1) ∧
    (g.hostOpen stream = false → ∃ z, exec (.hostCxlMemAccess ⟨gi, stream⟩ a true bs) s = .next z ∧ z.mem = s.mem ∧
      exec (.hostCxlMemAccess ⟨gi, stream⟩ a false bs) s = .next s) ∧
    (g.hostOpen stream = true → ∃ z, exec (.hostCxlMemAccess ⟨gi, stream⟩ a false bs) s = .next z ∧ z.mem = s.mem)) ∧
  (∀ (g : Gallery) (stream : Option Nat), g.hostOpen stream = true ↔
    (g.protect = true → g.tdi = .run ∧ ∃ n key, stream = some n ∧ tfind g.ide n = some key)) ∧
  (∀ (s : State) (tag tile gi : Nat) (g : Gallery), s.gals.find? (fun p => p.2.tiles.contains tile) = some (gi, g) →
    let logged (y z : State) : Prop := ∃ x, z = y.log logRouter (tile * 160) 1 gi x ∧ x.toNat % 256 = tag % 256
    let s0 := { s with free := s.free + 1 }
    (tag = 0 ∨ tag = gi → exec (.packetTagDrop tag tile) s = .next s) ∧
    (tag ≠ 0 → tag ≠ gi → s.gal tag = none → ∃ z, exec (.packetTagDrop tag tile) s = .next z ∧ logged s z) ∧
    (∀ o, tag ≠ 0 → tag ≠ gi → s.gal tag = some o → o.tiles ≠ [] →
      ∃ y z, exec (.packetTagDrop tag tile) s = .next z ∧ logged y z ∧
        ((∃ p ∈ s.openReads tag, y = s0.dropRead p) ∨ (∃ u ∈ o.tiles, y = s0.dropWrite u)))) ∧
  (∀ (s : State) (tk n : Nat) (t : Thread) (o : Outst), s.thread tk = some t → o ∈ t.outst →
    (∃ u, (s.dropRead (.load tk o)).thread tk = some u ∧ u.poison ≠ none ∧
      ∀ q ∈ u.outst, q.op = o.op → ∀ v ∈ q.vals, v = 0) ∧
    (∀ k p, o.wrote = some k → s.past.find? (fun p => p.key == k) = some p →
      bytesAt (s.dropRead (.load tk o)).mem p.cell p.size = bytesAt p.old p.cell p.size ∧
      ∀ y, Outside y p.cell p.size → byteAt (s.dropRead (.load tk o)).mem y = byteAt s.mem y) ∧
    (∀ r, r / 4 = n → s.dev.good.contains r = true → (s.dropWrite n).dev.failing.contains r = true)) ∧
  (∀ (s : State) (r : Nat), s.dev.good.contains r = true → s.dev.failing.contains r = false →
    (s.gals.any (fun p => p.2.tiles.contains (r / 4)) = true → ∃ z, exec (.regionTestFail r) s = .next z ∧
      z.dev.failing = s.dev.failing ++ [r] ∧ z.dev.good = s.dev.good) ∧
    (s.gals.any (fun p => p.2.tiles.contains (r / 4)) = false → ∃ z, exec (.regionTestFail r) s = .next z ∧
      z.dev.good.contains r = false ∧ z.dev.failing.contains r = false)) ∧
  (∀ (s : State) (k gi n : Nat) (g : Gallery), s.gals.find? (fun p => p.2.tiles.contains (tileOf k)) = some (gi, g) →
    s.nameOf gi k = some n → s.gal gi = some g → k < 10240 → ∃ z h, exec (.coreComputeFail k) s = .next z ∧
      (z.core k).routerOnly = true ∧ z.gal gi = some h ∧ z.coreNamed gi n = none ∧ z.coreGood k = false ∧
      (∀ p ∈ h.channels, p.1 / 16 ≠ n)) ∧
  (∀ (s : State) (k : Nat), s.gals = [] → exec (.coreComputeFail k) s =
    .next (s.putCore k { s.core k with routerOnly := true }))

/-- R410, R411, R413, R419, R420, R427: what the fabric, the host's evidence requests and TDISP do: ports come up and go down,
flits are checked in order, a gallery that is open is measured at once, sessions, locks, RUN, stream keys and group keys, and none of
these for a gallery that does not exist. The
layouts of a measurement and of a flit's collective are the model's (log 8). -/
def Obligations.FabricAndSecurityMessages : Prop :=
  (∀ (s : State) (ps : List Nat) (n p : Nat), ∃ z, exec (.fabricBringUp ps n) s = .next z ∧ z.dev.number = n % 4096 ∧
    (p ∈ ps → p < 32 → z.dev.port p = ⟨true, 0⟩) ∧ (p ∉ ps → z.dev.port p = s.dev.port p) ∧ z.mem = s.mem) ∧
  (∀ (s : State) (p : Nat), ∃ z, exec (.fabricPortDown p) s = .next z ∧
    ((s.dev.port p).up = true → 17 ≤ (s.dev.port p).retries → (z.dev.port p).up = false ∧
      (z.dev.port p).retries = (s.dev.port p).retries) ∧
    ((s.dev.port p).up = false ∨ (s.dev.port p).retries < 17 → z = s)) ∧
  (∀ (s : State) (p : Nat) (f : List Byte),
    let tag := recNat f 2 1
    let comm := recNat f 3 1
    let good := { s.dev.port p with retries := 0 }
    let s1 := s.putPort p good
    ((s.dev.port p).up = false → exec (.fabricFlitReceive p f) s = .next s) ∧
    ((s.dev.port p).up = true →
      let retry := s.putPort p { s.dev.port p with retries := (s.dev.port p).retries + 1 }
      let checked (z : State) : Prop :=
        exec (.fabricFlitReceive p f) s = .next (if Config.flitCrcGood f = true then z else retry)
      (f.length ≠ 256 → exec (.fabricFlitReceive p f) s = .next retry) ∧
      (f.length = 256 → recNat f 0 2 % 4096 = s.dev.number →
        (s.gal tag = none → checked (s1.dropFlit p 1 tag comm)) ∧
        (∀ g, s.gal tag = some g → g.state = .opened →
          (tfind g.comms comm = none → checked (s1.dropFlit p 2 tag comm)) ∧
          (∀ c, tfind g.comms comm = some c → checked
            (match flitPayload g f with
            | some x => s1.deliverFlit tag g f x
            | none => s1.dropFlit p 3 tag comm)))))) ∧
  (∀ (s : State) (gi : Nat) (g : Gallery) (nonce : List Byte),
    let body := s.blocks gi g ++ nonce
    s.gal gi = some g →
    (g.state = .opened → ∃ z, exec (.spdmGetMeasurements gi nonce) s = .next z ∧ z.mem = s.mem ∧ z.gal gi = some { g with
      mailbox := body ++ Config.signature 0 (sha384 body) ++ Config.signature 1 (sha384 body) }) ∧
    (g.state ≠ .opened → ∃ z, exec (.spdmGetMeasurements gi nonce) s = .next z ∧
      z.gal gi = some { g with deferred := g.deferred ++ [.measure nonce] })) ∧
  (∀ (s : State) (gi : Nat) (g : Gallery) (x grp : Nat) (key : List Byte), s.gal gi = some g →
    (∃ z, exec (.spdmSecuredSession gi) s = .next z ∧ z.gal gi = some { g with session := true } ∧ z.mem = s.mem) ∧
    (g.session = true → ∃ z, exec (.tdispLock gi) s = .next z ∧ z.mem = s.mem ∧ z.gal gi = some { g with tdi :=
      (match g.tdi with
      | .unlocked => .locked
      | .error => .unlocked
      | .locked => .locked
      | .run => .run) }) ∧
    (g.session = false → exec (.tdispLock gi) s = .next s) ∧
    (∃ z h, exec (.tdispRunRequest gi) s = .next z ∧ z.gal gi = some h ∧ z.mem = s.mem ∧
      (g.tdi = .locked → h = { g with tdi := .run }) ∧ (g.tdi ≠ .locked → h = g)) ∧
    (x < 4 → ∃ z, exec (.ideKeyManagement gi x key) s = .next z ∧ z.gal gi = some { g with ide := tput g.ide x key } ∧
      z.mem = s.mem) ∧
    (4 ≤ x → exec (.ideKeyManagement gi x key) s = .next s) ∧
    (g.session = true → exec (.groupKeyDelivery gi grp key) s = .next
      (if (groups 47 (key.length / 48) (key.drop 32)).contains Config.identityDigest = true then
        s.putG gi { g with
          group := some (grp % 2 ^ 32, key.take 32, groups 47 (key.length / 48) (key.drop 32)) } else s)) ∧
    (g.session = false → exec (.groupKeyDelivery gi grp key) s = .next s)) ∧
  (∀ (s : State) (gi : Nat), s.gal gi = none → exec (.tdispLock gi) s = .next s ∧ exec (.tdispRunRequest gi) s = .next s ∧
    exec (.spdmSecuredSession gi) s = .next s)

/-- R391, R423: every request is recorded and served, one at a time: in recovery mode only log reads, staging and identify;
on a gallery that is being removed it finds status 2, and during a quiesce it waits; a malformed one finds status 3, after the
same checks, also where its record is malformed (R423) and on the stub page (R421). What makes arguments malformed is log 15
and what a quiesce defers log 24. -/
def Obligations.ManagementRequestsAreCheckedInOrder : Prop :=
  ∀ (tag : BitVec 8) (a0 a1 a2 a3 a4 : DWord) (s : State),
  let args := [a0, a1, a2, a3, a4]
  let each (P : Nat → Instr → Prop) : Prop :=
    P 1 (.createGallery tag a0 a1 a2 a3 a4) ∧ P 2 (.removeGallery tag a0 a1 a2 a3 a4) ∧
    P 3 (.growGallery tag a0 a1 a2 a3 a4) ∧ P 4 (.shrinkGallery tag a0 a1 a2 a3 a4) ∧
    P 5 (.migratePosition tag a0 a1 a2 a3 a4) ∧ P 6 (.compactGallery tag a0 a1 a2 a3 a4) ∧
    P 7 (.retirePosition tag a0 a1 a2 a3 a4) ∧ P 8 (.setCommunicator tag a0 a1 a2 a3 a4) ∧
    P 9 (.haltCast tag a0 a1 a2 a3 a4) ∧ P 10 (.readBack tag a0 a1 a2 a3 a4) ∧ P 11 (.readLog tag a0 a1 a2 a3 a4) ∧
    P 12 (.stageFirmware tag a0 a1 a2 a3 a4) ∧ P 13 (.identify tag a0 a1 a2 a3 a4)
  each (fun k i =>
    let s1 := { s with dev := { s.dev with mreq := BitVec.ofNat 64 (k + tag.toNat * 2 ^ 16) :: args, mgo := 1 } }
    (s.dev.mgo ≠ 0 → exec i s = .next s) ∧
    (s.dev.mgo = 0 →
      (s.dev.recovery = true → k < 11 → exec i s = .next (s1.answer 5)) ∧
      (s.dev.recovery = false ∨ 11 ≤ k →
        (s.gal tag.toNat = none → requestBad k none args = true → exec i s = .next (s1.answer 3)) ∧
        (∀ g, s.gal tag.toNat = some g →
          (g.state = .removing → exec i s = .next (s1.answer 2)) ∧
          (g.state = .quiescing → ∃ z, exec i s = .next z ∧ z.dev.mgo = 1 ∧
            z.gal tag.toNat = some { g with deferred := g.deferred ++ [.request k args] }) ∧
          (g.state = .opened → requestBad k (some g) args = true → exec i s = .next (s1.answer 3)))))) ∧
  (∀ ws : List DWord, s.dev.mgo = 0 → s.recordBad ws = true →
    let head := (ws.getD 0 0).toNat
    let about := s.gal (head / 2 ^ 16 % 256)
    let open_ := s.dev.recovery = false ∨ (11 ≤ head % 2 ^ 16 ∧ head % 2 ^ 16 ≤ 13)
    let finds (x : DWord) : Prop := ∃ z, exec (.managementRequestMalformed ws) s = .next z ∧ z.dev.mstatus = x ∧
      z.dev.mgo = 0 ∧ z.mem = s.mem ∧ z.gals = s.gals
    (¬ open_ → finds 5) ∧ (open_ → about = none → finds 3) ∧
    (∀ g, open_ → about = some g → (g.state = .opened → finds 3) ∧ (g.state = .removing → finds 2) ∧
      (g.state = .quiescing → ∃ z, exec (.managementRequestMalformed ws) s = .next z ∧ z.dev.mgo = 1 ∧
        z.gal (head / 2 ^ 16 % 256) = some { g with deferred := g.deferred ++ [.request 0 []] }))) ∧
  (∀ (gi : Nat) (g : Gallery), s.gal gi = some g → g.state = .opened → g.deferred = [.request 0 []] →
    ∃ z, s.serveDeferred gi = z ∧ z.dev.mstatus = 3 ∧ z.dev.mgo = 0 ∧ z.mem = s.mem) ∧
  (∀ ws : List DWord, s.recordBad ws = false → exec (.managementRequestMalformed ws) s = .next s) ∧
  (∀ (gi : Nat) (g : Gallery) (stream : Option Nat) (op x y : DWord), s.gal gi = some g → g.stub.go = 0 →
    g.hostOpen stream = true →
    (2 < op.toNat ∨ (op.toNat ≤ 1 ∧ y ≠ 0) →
      (g.state = .opened → ∃ z h, exec (.stubOpMalformed ⟨gi, stream⟩ op x y) s = .next z ∧ z.gal gi = some h ∧
        h.stub.status = 3 ∧ h.stub.go = 0 ∧ z.mem = s.mem ∧ z.prods = s.prods) ∧
      (g.state ≠ .opened → ∃ z h, exec (.stubOpMalformed ⟨gi, stream⟩ op x y) s = .next z ∧ z.gal gi = some h ∧
        h.stub.go = 1 ∧ h.deferred = g.deferred ++ [.stub op.toNat x y] ∧ z.mem = s.mem)) ∧
    (op.toNat = 2 ∨ (op.toNat ≤ 1 ∧ y = 0) → exec (.stubOpMalformed ⟨gi, stream⟩ op x y) s = .next s))

/-- R379, R203, R339, R391, R409, R412, R423 to R425, R428: what a well-formed request does: a gallery is made on free and
connected tiles, or goes with all that it holds; communicators, halts, read-backs, logs, staging and identification; the five that
change a gallery's tiles run under a quiesce, which where R379 refuses them is none, and which at its end has put the new
tiles, bases and names in force and reopened the gallery. The form of a communicator's entries is log 13, and what becomes of
positions above a retired one log 23 (the model's choices). A halt of a cast on no core is kept for it with status 0 (log 24,
the model's choice). R377: no tile belongs to two galleries after reset, and no step changes that. -/
def Obligations.ManagementRequestsTakeEffect : Prop :=
  TilesDisjoint State.reset ∧ (∀ s z : State, TilesDisjoint s → step s = .next z → TilesDisjoint z) ∧
  ∀ (tag : BitVec 8) (a0 a1 a2 a3 a4 : DWord) (s : State),
  let args := [a0, a1, a2, a3, a4]
  let good (z : State) : Prop := z.dev.mgo = 0 ∧ z.dev.mstatus = 0
  s.dev.mgo = 0 → s.dev.recovery = false →
  (∀ gi, s.gal tag.toNat = none → requestBad 1 none args = false → s.freeTag = some gi →
    (bitmapTiles a0).all s.tileFree = true → connected (bitmapTiles a0) = true →
    ∃ z h, exec (.createGallery tag a0 a1 a2 a3 a4) s = .next z ∧ good z ∧ z.gal gi = some h ∧ h.tiles = bitmapTiles a0 ∧
      h.protect = a1.getLsbD 0 ∧ h.debug = (a1.getLsbD 0 && a1.getLsbD 1) ∧ h.fpgen = 1 ∧ h.state = .opened) ∧
  (∀ g, s.gal tag.toNat = some g → g.state = .opened →
    (∃ z, exec (.removeGallery tag a0 a1 a2 a3 a4) s = .next z ∧ good z ∧ z.gal tag.toNat = none ∧
      (∀ p ∈ z.casts, p.2.gallery ≠ tag.toNat) ∧ (∀ p ∈ z.prods, p.2.gallery ≠ tag.toNat) ∧
      tag.toNat ∈ z.dev.errTags ∧ ∀ i, i < 2 ^ 65 → byteAt z.mem ((Loc.dram tag.toNat 0).cell + i) = 0) ∧
    (let entry (i : Nat) : DWord := BitVec.ofNat 64 (numAt s.mem ((Loc.host (a1.toNat + 8 * i)).cell) 8)
      let entries := (List.range a2.toNat).map entry
      requestBad 8 (some g) args = false →
      (∀ m ∈ entries, fld m.toNat 12 4 = 0 ∧ fld m.toNat 24 8 = 0 ∧ fld m.toNat 48 16 = 0) → g.protect = false →
      ∃ z h, exec (.setCommunicator tag a0 a1 a2 a3 a4) s = .next z ∧ good z ∧ z.gal tag.toNat = some h ∧
        tfind h.comms a0.toNat = some ⟨entries⟩ ∧ (∀ r, r < 4096 → tget h.seqs (a0.toNat * 4096 + r) 0 = 0)) ∧
    (let entry (i : Nat) : DWord := BitVec.ofNat 64 (numAt s.mem ((Loc.host (a1.toNat + 8 * i)).cell) 8)
      let entries := (List.range a2.toNat).map entry
      requestBad 8 (some g) args = false →
      (∀ m ∈ entries, fld m.toNat 12 4 = 0 ∧ fld m.toNat 24 8 = 0 ∧ fld m.toNat 48 16 = 0) → g.protect = true →
      (∃ m ∈ entries, memberModule m ≠ s.dev.number ∧ g.covers (memberModule m) = false) →
      ∃ z, exec (.setCommunicator tag a0 a1 a2 a3 a4) s = .next z ∧ z.dev.mstatus = 4 ∧ z.gals = s.gals) ∧
    (∀ n p c k, s.nodeAt tag.toNat a0 = some (n, p) → a1.toNat < p.total → s.cast (castKey n a1.toNat) = some c →
      c.res = .core k → (g.protect = false ∨ g.debug = true) →
      ∃ z, exec (.haltCast tag a0 a1 a2 a3 a4) s = .next z ∧ good z ∧
        ∀ j u, castOf j = castKey n a1.toNat → s.thread j = some u → u.run ≠ .exited → u.priv = .program →
          ∃ v, z.thread j = some v ∧ v.dueHalt = true) ∧
    (∀ n p, s.nodeAt tag.toNat a0 = some (n, p) → a1.toNat < p.total →
      (∀ c, s.cast (castKey n a1.toNat) = some c → c.coreNo = none) → (g.protect = false ∨ g.debug = true) →
      ∃ z d, exec (.haltCast tag a0 a1 a2 a3 a4) s = .next z ∧ good z ∧ z.cast (castKey n a1.toNat) = some d ∧
        d.haltReq = true ∧ z.threads = s.threads) ∧
    (g.protect = true → g.debug = false →
      ∃ z, exec (.haltCast tag a0 a1 a2 a3 a4) s = .next z ∧ z.dev.mstatus = 4 ∧ z.threads = s.threads) ∧
    (requestBad 10 (some g) args = false → a3 ≠ 1 → (g.protect = false ∨ g.debug = true ∨ a0 ≠ 0) →
      let bs := s.object tag.toNat g a0.toNat a1.toNat
      ∃ z, exec (.readBack tag a0 a1 a2 a3 a4) s = .next z ∧ good z ∧
        bytesAt z.mem (Loc.host a2.toNat).cell bs.length = bs ∧ SameOutside s z (Loc.host a2.toNat).cell bs.length) ∧
    (let s1 (k : Nat) := { s with dev := { s.dev with
        mreq := BitVec.ofNat 64 (k + tag.toNat * 2 ^ 16) :: args, mgo := 1 } }
      let runs (k : Nat) (i : Instr) : Prop := requestBad k (some g) args = false →
        ((s1 k).newTiles tag.toNat g k args = none → exec i s = .next ((s1 k).answer 1)) ∧
        (∀ ts, (s1 k).newTiles tag.toNat g k args = some ts →
          exec i s = .next (((s1 k).beginQuiesce tag.toNat g k args).progress tag.toNat))
      runs 3 (.growGallery tag a0 a1 a2 a3 a4) ∧ runs 4 (.shrinkGallery tag a0 a1 a2 a3 a4) ∧
      runs 5 (.migratePosition tag a0 a1 a2 a3 a4) ∧ runs 6 (.compactGallery tag a0 a1 a2 a3 a4) ∧
      runs 7 (.retirePosition tag a0 a1 a2 a3 a4))) ∧
  (fld a0.toNat 28 36 ≤ 5 → s.gal tag.toNat = none →
    let late := (tget s.dev.logs a0.toNat ⟨1, []⟩).records.filter (fun r => decide (a1.toNat ≤ (r.getD 0 0).toNat))
    let rs := late.take a3.toNat
    let bs := rs.flatMap (fun r => dwords (r.map (·.toNat)))
    ∃ z, exec (.readLog tag a0 a1 a2 a3 a4) s = .next z ∧ good z ∧
      bytesAt z.mem (Loc.host a2.toNat).cell bs.length = bs ∧ SameOutside s z (Loc.host a2.toNat).cell bs.length) ∧
  (s.gal tag.toNat = none → ∃ z, exec (.stageFirmware tag a0 a1 a2 a3 a4) s = .next z ∧ good z ∧ z.mem = s.mem ∧
    z.dev.staged = some (bytesAt s.mem (Loc.host a0.toNat).cell a1.toNat)) ∧
  (s.gal tag.toNat = none →
    let bs := dwords (s.idWords none) ++ Config.certificateChain
    ∃ z, exec (.identify tag a0 a1 a2 a3 a4) s = .next z ∧ good z ∧
      bytesAt z.mem (Loc.host a0.toNat).cell bs.length = bs ∧ SameOutside s z (Loc.host a0.toNat).cell bs.length) ∧
  (∀ (gi code : Nat) (g : Gallery) (as : List DWord) (ts : List Nat), s.gal gi = some g →
    (s.copyNodes gi true).newTiles gi g code as = some ts →
    let z := s.completeQuiesce gi g code as
    good z ∧ ∃ h, z.gal gi = some h ∧ h.tiles = ts ∧ h.fpgen = g.fpgen + 1 ∧ h.state = .opened ∧ h.request = none ∧
      h.groot = g.grootW ∧ h.ntbase = g.ntbaseW ∧ h.stbase = g.stbaseW ∧ h.fpbase = g.fpbaseW)

/-! ## Encoding -/

/-- R22, R24, R31, R35 to R37, R41: words written out from the encodings of the specification decode to the instructions that
they stand for. -/
def Obligations.SampleWordsDecode : Prop :=
  ∀ x ∈ ([(0x4108_0040, 0, .add true 2 0 1), (0x0800_0503, 0, .mad false 0 0 20), (0x0C10_20C2, 0, .cmp false 1 0 2 3 2),
    (0x200C_1110, 0, .ld false 3 1 2 0 2 0), (0x2D14_3200, 0, .shflIdx false 5 3 4 0), (0x7010_0005, 0, .bra 1 0 5),
    (0x8000_9128, 0, .scene 9 1 2 1), (0x8108_8600, 0, .uadd false 1 2 3),
    (0xBF5C_0000, 0x1234_5678, .movlHi false 11 0x1234_5678),
    (0xC82A_FFF8, 0, .ubra 5 2 0xFFF8), (0xCC00_0000, 0, .reform), (0xCE34_2500, 0, .waitAny 3 8 1 10),
    (0x9126_0200, 0, .mma false 2 3 0 1 0), (0x9C52_D800, 0, .copy false 10 11 12), (0xA840_0200, 0, .csrr false 0x400 4),
    (0xE800_0004, 0, .rett)] : List (Nat × Nat × Instr)), decodeWord x.1 x.2.1 = .ok x.2.2

/-- R22, R29 to R42: decoding the bytes of a well-formed instruction's words gives it back with nothing left, whatever its
operands; and bytes that decode are the encoding of what they decode to, followed by the rest: no bit of a word is read
twice or ignored, and no two words have one meaning. -/
def Obligations.DecodingAndEncodingAgree : Prop :=
  (∀ (i : Instr) (rest : List Byte), i.wf = true → i.isWord = true →
    decodeBytes (wordBytes (encode i) ++ rest) = .ok (i, rest)) ∧
  (∀ (bs rest : List Byte) (i : Instr), decodeBytes bs = .ok (i, rest) →
    bs = wordBytes (encode i) ++ rest ∧ i.wf = true ∧ i.isWord = true)

/-! ## Steps -/

/-- R71 and log 1: where the words of a running chorus decode at its address to instruction i, the turn of its next member
executes i for that member, and what follows at once follows; a step of the table that no word encodes executes itself; an
empty agenda leaves the turn to the policy. -/
def Obligations.AStepRunsTheDecodedWord : Prop :=
  (∀ (s : State) (k n m : Nat) (rest : List Turn) (ms : List Nat) (x : Chorus) (w : Word) (i : Instr),
    let at_ := (x.pc - x.hdr).toNat / 4
    s.agenda = .pass k n :: rest → (s.core k).chorusNo n = some x → x.phase = .running → x.todo = m :: ms →
    (s.core k).routerOnly = false → x.words[at_]? = some w →
    decodeWord w.toNat (x.words.getD (at_ + 1) 0).toNat = .ok i →
    step s = mapNext State.settled
      (exec i (({ s with agenda := rest, focus := thrKey x.ck m } : State).retryStore (thrKey x.ck m)))) ∧
  (∀ (s : State) (i : Instr) (rest : List Turn), s.agenda = .event i :: rest → i.isWord = false →
    step s = mapNext State.settled (exec i { s with agenda := rest })) ∧
  (∀ (s : State) (n : Nat) (rest : List Turn), s.agenda = .ticks n :: rest →
    step s = .next (State.passTime { s with agenda := rest } n).settled) ∧
  (∀ s : State, s.agenda = [] → step s = step { s with agenda := [s.policy] })

/-- R426, R69, R200, R339, R377, R425, R427: the machine after module reset: no gallery, no cast, no thread, no operation, the
tick 0, every core with WINGAGE 64 and without power, no port up, no log record. That every region is good, that the
firmware is the first and that memory reads 0 are the model's choice (log 5, log 6). -/
def Obligations.ResetLeavesAnEmptyMachine : Prop :=
  let s := State.reset
  s.gals = [] ∧ s.casts = [] ∧ s.threads = [] ∧ s.prods = [] ∧ s.ops = [] ∧ s.tick = 0 ∧ s.past = [] ∧
  (∀ k, (s.core k).wingage = 64 ∧ (s.core k).gated = true ∧ (s.core k).slots = [] ∧ (s.core k).order = []) ∧
  (∀ p, (s.dev.port p).up = false) ∧ s.dev.logs = [] ∧ s.dev.recovery = false ∧ s.dev.gsel = 0 ∧ s.dev.mgo = 0 ∧
  s.dev.fw = 1 ∧ s.dev.good = List.range 224 ∧ (∀ a, byteAt s.mem a = 0)

/-- 00_scope.md R5 and log 5: the memory of the machine after reset is in its one canonical form. -/
def Obligations.ResetMemoryIsCanonical : Prop := MemoryOk State.reset

/-- R5, R175, R187 and log 5: whatever a step does, whichever word or event it runs and whatever follows at once, memory stays
in its one canonical form. -/
def Obligations.EveryStepKeepsMemoryCanonical : Prop := ∀ s z : State, MemoryOk s → step s = .next z → MemoryOk z
end

