-- ==== Sys2Proof/Laws/Tab.lean ====
section
/-! SUPPORT. Tables: what a read gives after a write, and that every table operation keeps the canonical form. -/
namespace Sys2Proof

theorem tfind_tdel_same {α : Type} (t : Tab α) (i : Nat) : tfind (tdel t i) i = none := by
  induction t with
  | nil => rfl
  | cons p t ih =>
    obtain ⟨k, x⟩ := p
    by_cases h : k = i <;> simp [tdel, tfind, h, ih]

theorem tfind_tdel_other {α : Type} (t : Tab α) {i j : Nat} (h : j ≠ i) : tfind (tdel t i) j = tfind t j := by
  induction t with
  | nil => rfl
  | cons p t ih =>
    obtain ⟨k, x⟩ := p
    by_cases hk : k = i
    · subst hk
      simp [tdel, tfind, ih, Ne.symm h]
    · simp [tdel, tfind, hk, ih]

theorem tfind_tins_same {α : Type} (t : Tab α) (i : Nat) (y : α) (h : tfind t i = none) :
    tfind (tins t i y) i = some y := by
  induction t with
  | nil => simp [tins, tfind]
  | cons p t ih =>
    obtain ⟨k, x⟩ := p
    by_cases hk : k = i
    · simp [tfind, hk] at h
    · simp only [tfind, hk, if_false] at h
      by_cases hl : i < k <;> simp [tins, tfind, hl, hk, ih h]

theorem tfind_tins_other {α : Type} (t : Tab α) {i j : Nat} (y : α) (h : j ≠ i) : tfind (tins t i y) j = tfind t j := by
  induction t with
  | nil => simp [tins, tfind, Ne.symm h]
  | cons p t ih =>
    obtain ⟨k, x⟩ := p
    by_cases hl : i < k <;> simp [tins, tfind, hl, ih, Ne.symm h]

/-- An entry put is found. -/
@[simp] theorem tfind_tput_same {α : Type} (t : Tab α) (i : Nat) (y : α) : tfind (tput t i y) i = some y :=
  tfind_tins_same _ _ _ (tfind_tdel_same t i)

/-- Putting an entry leaves the others. -/
theorem tfind_tput_other {α : Type} (t : Tab α) {i j : Nat} (y : α) (h : j ≠ i) : tfind (tput t i y) j = tfind t j := by
  rw [tput, tfind_tins_other _ _ h, tfind_tdel_other _ h]

/-- What is set is read. -/
@[simp] theorem tget_tset_same {α : Type} [DecidableEq α] (t : Tab α) (i : Nat) (y d : α) : tget (tset t i y d) i d = y := by
  unfold tget tset
  by_cases h : y = d
  · simp [h, tfind_tdel_same]
  · simp [h]

/-- Setting an entry leaves the others. -/
theorem tget_tset_other {α : Type} [DecidableEq α] (t : Tab α) {i j : Nat} (y d : α) (h : j ≠ i) :
    tget (tset t i y d) j d = tget t j d := by
  unfold tget tset
  by_cases hy : y = d
  · simp [hy, tfind_tdel_other _ h]
  · simp [hy, tfind_tput_other _ _ h]

/-! ## The canonical form -/

/-- Rising numbers, as the library says it. -/
theorem tsorted_iff {α : Type} (t : Tab α) : tsorted t = true ↔ t.Pairwise (fun p q => p.1 < q.1) := by
  induction t with
  | nil => simp [tsorted]
  | cons p t ih =>
    cases t with
    | nil => simp [tsorted]
    | cons q t =>
      rw [List.pairwise_cons]
      simp only [tsorted, Bool.and_eq_true, decide_eq_true_eq, ih]
      constructor
      · rintro ⟨h, hp⟩
        refine ⟨?_, hp⟩
        intro r hr
        rcases List.mem_cons.mp hr with rfl | hr
        · exact h
        · exact Nat.lt_trans h ((List.pairwise_cons.mp hp).1 r hr)
      · rintro ⟨h, hp⟩
        exact ⟨h q (by simp), hp⟩

theorem tdel_eq_filter {α : Type} (t : Tab α) (i : Nat) : tdel t i = t.filter (fun p => !decide (p.1 = i)) := by
  induction t with
  | nil => rfl
  | cons p t ih =>
    obtain ⟨k, x⟩ := p
    by_cases h : k = i <;> simp [tdel, h, ih]

theorem mem_tins {α : Type} (t : Tab α) (i : Nat) (y : α) (p : Nat × α) : p ∈ tins t i y ↔ p = (i, y) ∨ p ∈ t := by
  induction t with
  | nil => simp [tins]
  | cons q t ih =>
    obtain ⟨k, x⟩ := q
    by_cases h : i < k
    · simp [tins, h]
    · simp only [tins, h, if_false, List.mem_cons, ih]
      exact or_left_comm

theorem tins_sorted {α : Type} (t : Tab α) (i : Nat) (y : α) (hs : t.Pairwise (fun p q => p.1 < q.1))
    (hi : ∀ p ∈ t, p.1 ≠ i) : (tins t i y).Pairwise (fun p q => p.1 < q.1) := by
  induction t with
  | nil => simp [tins]
  | cons q t ih =>
    obtain ⟨k, x⟩ := q
    have hc := List.pairwise_cons.mp hs
    by_cases h : i < k
    · simp only [tins, h, if_true]
      refine List.pairwise_cons.mpr ⟨?_, hs⟩
      intro p hp
      rcases List.mem_cons.mp hp with rfl | hp
      · exact h
      · exact Nat.lt_trans h (hc.1 p hp)
    · simp only [tins, h, if_false]
      refine List.pairwise_cons.mpr ⟨?_, ih hc.2 (fun p hp => hi p (by simp [hp]))⟩
      intro p hp
      rcases (mem_tins t i y p).mp hp with rfl | hp
      · have := hi (k, x) (by simp)
        simp only at this ⊢
        omega
      · exact hc.1 p hp

/-- Filtering keeps the canonical form. -/
theorem tcanon_filter {α : Type} [DecidableEq α] (t : Tab α) (d : α) (f : Nat × α → Bool) (h : tcanon t d = true) :
    tcanon (t.filter f) d = true := by
  simp only [tcanon, Bool.and_eq_true, tsorted_iff, List.all_eq_true] at h ⊢
  exact ⟨h.1.filter f, fun p hp => h.2 p (List.mem_filter.mp hp).1⟩

/-- Setting an entry keeps the canonical form. -/
theorem tcanon_tset {α : Type} [DecidableEq α] (t : Tab α) (i : Nat) (y d : α) (h : tcanon t d = true) :
    tcanon (tset t i y d) d = true := by
  have hd : tcanon (tdel t i) d = true := by rw [tdel_eq_filter]; exact tcanon_filter t d _ h
  unfold tset
  by_cases hy : y = d
  · simpa [hy] using hd
  · simp only [hy, if_false, tput]
    simp only [tcanon, Bool.and_eq_true, tsorted_iff, List.all_eq_true] at hd ⊢
    refine ⟨tins_sorted _ _ _ hd.1 ?_, ?_⟩
    · intro p hp
      rw [tdel_eq_filter] at hp
      simpa using (List.mem_filter.mp hp).2
    · intro p hp
      rcases (mem_tins _ _ _ p).mp hp with rfl | hp
      · simp [hy]
      · exact hd.2 p hp

/-- The empty table is canonical. -/
theorem tcanon_nil {α : Type} [DecidableEq α] (d : α) : tcanon ([] : Tab α) d = true := rfl

end Sys2Proof
end

