-- ==== Sys2Proof/Laws/Memory.lean ====
section
/-! SUPPORT. Memory: a read after a write, a write leaves every other byte alone, and every operation over memory keeps
the canonical form. -/
namespace Sys2Proof.Machine

theorem wf_setByte (m : List Host.Cell) (a : Nat) (b : Byte) (h : Memory.wf m = true) : Memory.wf (setByte m a b) = true :=
  tcanon_tset m a b 0 h

theorem wf_setBytes (bs : List Byte) (m : List Host.Cell) (a : Nat) (h : Memory.wf m = true) :
    Memory.wf (setBytes m a bs) = true := by
  induction bs generalizing m a with
  | nil => exact h
  | cons b t ih => exact ih _ _ (wf_setByte m a b h)

theorem wf_setNum (m : List Host.Cell) (a n x : Nat) (h : Memory.wf m = true) : Memory.wf (setNum m a n x) = true :=
  wf_setBytes _ m a h

theorem wf_filter (m : List Host.Cell) (f : Host.Cell → Bool) (h : Memory.wf m = true) : Memory.wf (m.filter f) = true :=
  tcanon_filter m 0 f h

theorem wf_clearCells (m : List Host.Cell) (a n : Nat) (h : Memory.wf m = true) : Memory.wf (clearCells m a n) = true :=
  wf_filter m _ h

theorem wf_ite {p : Prop} [Decidable p] (m : List Host.Cell) {n : List Host.Cell} (hm : Memory.wf m = true)
    (hn : Memory.wf n = true) : Memory.wf (if p then m else n) = true := by
  split <;> assumption

@[simp] theorem byteAt_setByte_same (m : List Host.Cell) (a : Nat) (b : Byte) : byteAt (setByte m a b) a = b :=
  tget_tset_same m a b 0

theorem byteAt_setByte_other (m : List Host.Cell) {a c : Nat} (b : Byte) (h : c ≠ a) :
    byteAt (setByte m a b) c = byteAt m c := tget_tset_other m b 0 h

/-- Bytes stored leave every byte outside them. -/
theorem byteAt_setBytes_outside (bs : List Byte) (m : List Host.Cell) (a c : Nat) (h : c < a ∨ a + bs.length ≤ c) :
    byteAt (setBytes m a bs) c = byteAt m c := by
  induction bs generalizing m a with
  | nil => rfl
  | cons b t ih =>
    simp only [List.length_cons] at h
    rw [setBytes, ih _ _ (by omega), byteAt_setByte_other _ _ (by omega)]

/-- Bytes stored are read back. -/
theorem byteAt_setBytes_inside (bs : List Byte) (m : List Host.Cell) (a i : Nat) (h : i < bs.length) :
    byteAt (setBytes m a bs) (a + i) = bs[i] := by
  induction bs generalizing m a i with
  | nil => simp at h
  | cons b t ih =>
    cases i with
    | zero =>
      simp only [setBytes, Nat.add_zero, List.getElem_cons_zero]
      rw [byteAt_setBytes_outside t _ _ _ (by omega), byteAt_setByte_same]
    | succ i =>
      simp only [List.length_cons] at h
      have := ih (setByte m a b) (a + 1) i (by omega)
      simp only [setBytes, List.getElem_cons_succ]
      rw [← this]
      congr 1
      omega

theorem bytesAt_length (m : List Host.Cell) (a n : Nat) : (bytesAt m a n).length = n := by
  induction n generalizing a with
  | zero => rfl
  | succ n ih => simp [bytesAt, ih]

/-- Byte i of a block read. -/
theorem bytesAt_getElem (m : List Host.Cell) (a n i : Nat) (h : i < n) :
    (bytesAt m a n)[i]'(by rw [bytesAt_length]; exact h) = byteAt m (a + i) := by
  induction n generalizing a i with
  | zero => omega
  | succ n ih =>
    cases i with
    | zero => simp [bytesAt]
    | succ i =>
      simp only [bytesAt, List.getElem_cons_succ]
      rw [ih (a + 1) i (by omega)]
      congr 1
      omega

/-- A block stored is read back whole. -/
theorem bytesAt_setBytes (bs : List Byte) (m : List Host.Cell) (a : Nat) :
    bytesAt (setBytes m a bs) a bs.length = bs := by
  apply List.ext_getElem
  · rw [bytesAt_length]
  · intro i h1 h2
    rw [bytesAt_getElem _ _ _ _ h2, byteAt_setBytes_inside _ _ _ _ h2]

/-- Bytes stored leave every block outside them. -/
theorem bytesAt_setBytes_outside (bs : List Byte) (m : List Host.Cell) (a c n : Nat) (h : c + n ≤ a ∨ a + bs.length ≤ c) :
    bytesAt (setBytes m a bs) c n = bytesAt m c n := by
  apply List.ext_getElem
  · rw [bytesAt_length, bytesAt_length]
  · intro i h1 h2
    rw [bytesAt_length] at h2
    rw [bytesAt_getElem _ _ _ _ h2, bytesAt_getElem _ _ _ _ h2, byteAt_setBytes_outside _ _ _ _ (by omega)]

/-- A block is read in two parts. -/
theorem bytesAt_add (m : List Host.Cell) (a n k : Nat) : bytesAt m a (n + k) = bytesAt m a n ++ bytesAt m (a + n) k := by
  induction n generalizing a with
  | zero => simp [bytesAt]
  | succ n ih =>
    rw [Nat.succ_add, bytesAt, ih, bytesAt, List.cons_append, show a + 1 + n = a + (n + 1) by omega]

/-- The memory after reset is canonical. -/
theorem wf_reset : Memory.wf State.reset.mem = true := rfl

end Sys2Proof.Machine
end

