-- ==== Sys2Proof/Laws/State.lean ====
section
/-! SUPPORT. What each update of the state and of a thread leaves of every field, and what each read gives after it. -/
namespace Sys2Proof.Machine

/-! ## Updates of the state -/

@[simp] theorem State.putT_agenda (s : State) (k : Nat) (x : Thread) : (s.putT k x).agenda = s.agenda := rfl
@[simp] theorem State.putT_focus (s : State) (k : Nat) (x : Thread) : (s.putT k x).focus = s.focus := rfl
@[simp] theorem State.putT_free (s : State) (k : Nat) (x : Thread) : (s.putT k x).free = s.free := rfl
@[simp] theorem State.putT_nextOp (s : State) (k : Nat) (x : Thread) : (s.putT k x).nextOp = s.nextOp := rfl
@[simp] theorem State.putT_tick (s : State) (k : Nat) (x : Thread) : (s.putT k x).tick = s.tick := rfl
@[simp] theorem State.putT_nextInterval (s : State) (k : Nat) (x : Thread) :
    (s.putT k x).nextInterval = s.nextInterval := rfl
@[simp] theorem State.putT_issued (s : State) (k : Nat) (x : Thread) : (s.putT k x).issued = s.issued := rfl
@[simp] theorem State.putT_wts (s : State) (k : Nat) (x : Thread) : (s.putT k x).wts = s.wts := rfl
@[simp] theorem State.putT_rts (s : State) (k : Nat) (x : Thread) : (s.putT k x).rts = s.rts := rfl
@[simp] theorem State.putT_pubs (s : State) (k : Nat) (x : Thread) : (s.putT k x).pubs = s.pubs := rfl
@[simp] theorem State.putT_freezes (s : State) (k : Nat) (x : Thread) : (s.putT k x).freezes = s.freezes := rfl
@[simp] theorem State.putT_bad (s : State) (k : Nat) (x : Thread) : (s.putT k x).bad = s.bad := rfl
@[simp] theorem State.putT_forged (s : State) (k : Nat) (x : Thread) : (s.putT k x).forged = s.forged := rfl
@[simp] theorem State.putT_worn (s : State) (k : Nat) (x : Thread) : (s.putT k x).worn = s.worn := rfl
@[simp] theorem State.putT_hostCount (s : State) (k : Nat) (x : Thread) : (s.putT k x).hostCount = s.hostCount := rfl
@[simp] theorem State.putT_mem (s : State) (k : Nat) (x : Thread) : (s.putT k x).mem = s.mem := rfl
@[simp] theorem State.putT_past (s : State) (k : Nat) (x : Thread) : (s.putT k x).past = s.past := rfl
@[simp] theorem State.putT_threads (s : State) (k : Nat) (x : Thread) : (s.putT k x).threads = tput s.threads k x := rfl
@[simp] theorem State.putT_casts (s : State) (k : Nat) (x : Thread) : (s.putT k x).casts = s.casts := rfl
@[simp] theorem State.putT_prods (s : State) (k : Nat) (x : Thread) : (s.putT k x).prods = s.prods := rfl
@[simp] theorem State.putT_nextProd (s : State) (k : Nat) (x : Thread) : (s.putT k x).nextProd = s.nextProd := rfl
@[simp] theorem State.putT_cores (s : State) (k : Nat) (x : Thread) : (s.putT k x).cores = s.cores := rfl
@[simp] theorem State.putT_stamps (s : State) (k : Nat) (x : Thread) : (s.putT k x).stamps = s.stamps := rfl
@[simp] theorem State.putT_clusters (s : State) (k : Nat) (x : Thread) : (s.putT k x).clusters = s.clusters := rfl
@[simp] theorem State.putT_tiles (s : State) (k : Nat) (x : Thread) : (s.putT k x).tiles = s.tiles := rfl
@[simp] theorem State.putT_calendar (s : State) (k : Nat) (x : Thread) : (s.putT k x).calendar = s.calendar := rfl
@[simp] theorem State.putT_gals (s : State) (k : Nat) (x : Thread) : (s.putT k x).gals = s.gals := rfl
@[simp] theorem State.putT_ops (s : State) (k : Nat) (x : Thread) : (s.putT k x).ops = s.ops := rfl
@[simp] theorem State.putT_dev (s : State) (k : Nat) (x : Thread) : (s.putT k x).dev = s.dev := rfl
@[simp] theorem State.putC_agenda (s : State) (k : Nat) (x : Cast) : (s.putC k x).agenda = s.agenda := rfl
@[simp] theorem State.putC_focus (s : State) (k : Nat) (x : Cast) : (s.putC k x).focus = s.focus := rfl
@[simp] theorem State.putC_free (s : State) (k : Nat) (x : Cast) : (s.putC k x).free = s.free := rfl
@[simp] theorem State.putC_nextOp (s : State) (k : Nat) (x : Cast) : (s.putC k x).nextOp = s.nextOp := rfl
@[simp] theorem State.putC_tick (s : State) (k : Nat) (x : Cast) : (s.putC k x).tick = s.tick := rfl
@[simp] theorem State.putC_nextInterval (s : State) (k : Nat) (x : Cast) : (s.putC k x).nextInterval = s.nextInterval := rfl
@[simp] theorem State.putC_issued (s : State) (k : Nat) (x : Cast) : (s.putC k x).issued = s.issued := rfl
@[simp] theorem State.putC_wts (s : State) (k : Nat) (x : Cast) : (s.putC k x).wts = s.wts := rfl
@[simp] theorem State.putC_rts (s : State) (k : Nat) (x : Cast) : (s.putC k x).rts = s.rts := rfl
@[simp] theorem State.putC_pubs (s : State) (k : Nat) (x : Cast) : (s.putC k x).pubs = s.pubs := rfl
@[simp] theorem State.putC_freezes (s : State) (k : Nat) (x : Cast) : (s.putC k x).freezes = s.freezes := rfl
@[simp] theorem State.putC_bad (s : State) (k : Nat) (x : Cast) : (s.putC k x).bad = s.bad := rfl
@[simp] theorem State.putC_forged (s : State) (k : Nat) (x : Cast) : (s.putC k x).forged = s.forged := rfl
@[simp] theorem State.putC_worn (s : State) (k : Nat) (x : Cast) : (s.putC k x).worn = s.worn := rfl
@[simp] theorem State.putC_hostCount (s : State) (k : Nat) (x : Cast) : (s.putC k x).hostCount = s.hostCount := rfl
@[simp] theorem State.putC_mem (s : State) (k : Nat) (x : Cast) : (s.putC k x).mem = s.mem := rfl
@[simp] theorem State.putC_past (s : State) (k : Nat) (x : Cast) : (s.putC k x).past = s.past := rfl
@[simp] theorem State.putC_threads (s : State) (k : Nat) (x : Cast) : (s.putC k x).threads = s.threads := rfl
@[simp] theorem State.putC_casts (s : State) (k : Nat) (x : Cast) : (s.putC k x).casts = tput s.casts k x := rfl
@[simp] theorem State.putC_prods (s : State) (k : Nat) (x : Cast) : (s.putC k x).prods = s.prods := rfl
@[simp] theorem State.putC_nextProd (s : State) (k : Nat) (x : Cast) : (s.putC k x).nextProd = s.nextProd := rfl
@[simp] theorem State.putC_cores (s : State) (k : Nat) (x : Cast) : (s.putC k x).cores = s.cores := rfl
@[simp] theorem State.putC_stamps (s : State) (k : Nat) (x : Cast) : (s.putC k x).stamps = s.stamps := rfl
@[simp] theorem State.putC_clusters (s : State) (k : Nat) (x : Cast) : (s.putC k x).clusters = s.clusters := rfl
@[simp] theorem State.putC_tiles (s : State) (k : Nat) (x : Cast) : (s.putC k x).tiles = s.tiles := rfl
@[simp] theorem State.putC_calendar (s : State) (k : Nat) (x : Cast) : (s.putC k x).calendar = s.calendar := rfl
@[simp] theorem State.putC_gals (s : State) (k : Nat) (x : Cast) : (s.putC k x).gals = s.gals := rfl
@[simp] theorem State.putC_ops (s : State) (k : Nat) (x : Cast) : (s.putC k x).ops = s.ops := rfl
@[simp] theorem State.putC_dev (s : State) (k : Nat) (x : Cast) : (s.putC k x).dev = s.dev := rfl
@[simp] theorem State.putG_agenda (s : State) (k : Nat) (x : Gallery) : (s.putG k x).agenda = s.agenda := rfl
@[simp] theorem State.putG_focus (s : State) (k : Nat) (x : Gallery) : (s.putG k x).focus = s.focus := rfl
@[simp] theorem State.putG_free (s : State) (k : Nat) (x : Gallery) : (s.putG k x).free = s.free := rfl
@[simp] theorem State.putG_nextOp (s : State) (k : Nat) (x : Gallery) : (s.putG k x).nextOp = s.nextOp := rfl
@[simp] theorem State.putG_tick (s : State) (k : Nat) (x : Gallery) : (s.putG k x).tick = s.tick := rfl
@[simp] theorem State.putG_nextInterval (s : State) (k : Nat) (x : Gallery) :
    (s.putG k x).nextInterval = s.nextInterval := rfl
@[simp] theorem State.putG_issued (s : State) (k : Nat) (x : Gallery) : (s.putG k x).issued = s.issued := rfl
@[simp] theorem State.putG_wts (s : State) (k : Nat) (x : Gallery) : (s.putG k x).wts = s.wts := rfl
@[simp] theorem State.putG_rts (s : State) (k : Nat) (x : Gallery) : (s.putG k x).rts = s.rts := rfl
@[simp] theorem State.putG_pubs (s : State) (k : Nat) (x : Gallery) : (s.putG k x).pubs = s.pubs := rfl
@[simp] theorem State.putG_freezes (s : State) (k : Nat) (x : Gallery) : (s.putG k x).freezes = s.freezes := rfl
@[simp] theorem State.putG_bad (s : State) (k : Nat) (x : Gallery) : (s.putG k x).bad = s.bad := rfl
@[simp] theorem State.putG_forged (s : State) (k : Nat) (x : Gallery) : (s.putG k x).forged = s.forged := rfl
@[simp] theorem State.putG_worn (s : State) (k : Nat) (x : Gallery) : (s.putG k x).worn = s.worn := rfl
@[simp] theorem State.putG_hostCount (s : State) (k : Nat) (x : Gallery) : (s.putG k x).hostCount = s.hostCount := rfl
@[simp] theorem State.putG_mem (s : State) (k : Nat) (x : Gallery) : (s.putG k x).mem = s.mem := rfl
@[simp] theorem State.putG_past (s : State) (k : Nat) (x : Gallery) : (s.putG k x).past = s.past := rfl
@[simp] theorem State.putG_threads (s : State) (k : Nat) (x : Gallery) : (s.putG k x).threads = s.threads := rfl
@[simp] theorem State.putG_casts (s : State) (k : Nat) (x : Gallery) : (s.putG k x).casts = s.casts := rfl
@[simp] theorem State.putG_prods (s : State) (k : Nat) (x : Gallery) : (s.putG k x).prods = s.prods := rfl
@[simp] theorem State.putG_nextProd (s : State) (k : Nat) (x : Gallery) : (s.putG k x).nextProd = s.nextProd := rfl
@[simp] theorem State.putG_cores (s : State) (k : Nat) (x : Gallery) : (s.putG k x).cores = s.cores := rfl
@[simp] theorem State.putG_stamps (s : State) (k : Nat) (x : Gallery) : (s.putG k x).stamps = s.stamps := rfl
@[simp] theorem State.putG_clusters (s : State) (k : Nat) (x : Gallery) : (s.putG k x).clusters = s.clusters := rfl
@[simp] theorem State.putG_tiles (s : State) (k : Nat) (x : Gallery) : (s.putG k x).tiles = s.tiles := rfl
@[simp] theorem State.putG_calendar (s : State) (k : Nat) (x : Gallery) : (s.putG k x).calendar = s.calendar := rfl
@[simp] theorem State.putG_gals (s : State) (k : Nat) (x : Gallery) : (s.putG k x).gals = tput s.gals k x := rfl
@[simp] theorem State.putG_ops (s : State) (k : Nat) (x : Gallery) : (s.putG k x).ops = s.ops := rfl
@[simp] theorem State.putG_dev (s : State) (k : Nat) (x : Gallery) : (s.putG k x).dev = s.dev := rfl
@[simp] theorem State.putCore_agenda (s : State) (k : Nat) (x : Core) : (s.putCore k x).agenda = s.agenda := rfl
@[simp] theorem State.putCore_focus (s : State) (k : Nat) (x : Core) : (s.putCore k x).focus = s.focus := rfl
@[simp] theorem State.putCore_free (s : State) (k : Nat) (x : Core) : (s.putCore k x).free = s.free := rfl
@[simp] theorem State.putCore_nextOp (s : State) (k : Nat) (x : Core) : (s.putCore k x).nextOp = s.nextOp := rfl
@[simp] theorem State.putCore_tick (s : State) (k : Nat) (x : Core) : (s.putCore k x).tick = s.tick := rfl
@[simp] theorem State.putCore_nextInterval (s : State) (k : Nat) (x : Core) :
    (s.putCore k x).nextInterval = s.nextInterval := rfl
@[simp] theorem State.putCore_issued (s : State) (k : Nat) (x : Core) : (s.putCore k x).issued = s.issued := rfl
@[simp] theorem State.putCore_wts (s : State) (k : Nat) (x : Core) : (s.putCore k x).wts = s.wts := rfl
@[simp] theorem State.putCore_rts (s : State) (k : Nat) (x : Core) : (s.putCore k x).rts = s.rts := rfl
@[simp] theorem State.putCore_pubs (s : State) (k : Nat) (x : Core) : (s.putCore k x).pubs = s.pubs := rfl
@[simp] theorem State.putCore_freezes (s : State) (k : Nat) (x : Core) : (s.putCore k x).freezes = s.freezes := rfl
@[simp] theorem State.putCore_bad (s : State) (k : Nat) (x : Core) : (s.putCore k x).bad = s.bad := rfl
@[simp] theorem State.putCore_forged (s : State) (k : Nat) (x : Core) : (s.putCore k x).forged = s.forged := rfl
@[simp] theorem State.putCore_worn (s : State) (k : Nat) (x : Core) : (s.putCore k x).worn = s.worn := rfl
@[simp] theorem State.putCore_hostCount (s : State) (k : Nat) (x : Core) : (s.putCore k x).hostCount = s.hostCount := rfl
@[simp] theorem State.putCore_mem (s : State) (k : Nat) (x : Core) : (s.putCore k x).mem = s.mem := rfl
@[simp] theorem State.putCore_past (s : State) (k : Nat) (x : Core) : (s.putCore k x).past = s.past := rfl
@[simp] theorem State.putCore_threads (s : State) (k : Nat) (x : Core) : (s.putCore k x).threads = s.threads := rfl
@[simp] theorem State.putCore_casts (s : State) (k : Nat) (x : Core) : (s.putCore k x).casts = s.casts := rfl
@[simp] theorem State.putCore_prods (s : State) (k : Nat) (x : Core) : (s.putCore k x).prods = s.prods := rfl
@[simp] theorem State.putCore_nextProd (s : State) (k : Nat) (x : Core) : (s.putCore k x).nextProd = s.nextProd := rfl
@[simp] theorem State.putCore_cores (s : State) (k : Nat) (x : Core) :
    (s.putCore k x).cores = tset s.cores k x Core.initial := rfl
@[simp] theorem State.putCore_stamps (s : State) (k : Nat) (x : Core) : (s.putCore k x).stamps = s.stamps := rfl
@[simp] theorem State.putCore_clusters (s : State) (k : Nat) (x : Core) : (s.putCore k x).clusters = s.clusters := rfl
@[simp] theorem State.putCore_tiles (s : State) (k : Nat) (x : Core) : (s.putCore k x).tiles = s.tiles := rfl
@[simp] theorem State.putCore_calendar (s : State) (k : Nat) (x : Core) : (s.putCore k x).calendar = s.calendar := rfl
@[simp] theorem State.putCore_gals (s : State) (k : Nat) (x : Core) : (s.putCore k x).gals = s.gals := rfl
@[simp] theorem State.putCore_ops (s : State) (k : Nat) (x : Core) : (s.putCore k x).ops = s.ops := rfl
@[simp] theorem State.putCore_dev (s : State) (k : Nat) (x : Core) : (s.putCore k x).dev = s.dev := rfl
@[simp] theorem State.putCluster_agenda (s : State) (k : Nat) (x : Cluster) : (s.putCluster k x).agenda = s.agenda := rfl
@[simp] theorem State.putCluster_focus (s : State) (k : Nat) (x : Cluster) : (s.putCluster k x).focus = s.focus := rfl
@[simp] theorem State.putCluster_free (s : State) (k : Nat) (x : Cluster) : (s.putCluster k x).free = s.free := rfl
@[simp] theorem State.putCluster_nextOp (s : State) (k : Nat) (x : Cluster) : (s.putCluster k x).nextOp = s.nextOp := rfl
@[simp] theorem State.putCluster_tick (s : State) (k : Nat) (x : Cluster) : (s.putCluster k x).tick = s.tick := rfl
@[simp] theorem State.putCluster_nextInterval (s : State) (k : Nat) (x : Cluster) :
    (s.putCluster k x).nextInterval = s.nextInterval := rfl
@[simp] theorem State.putCluster_issued (s : State) (k : Nat) (x : Cluster) : (s.putCluster k x).issued = s.issued := rfl
@[simp] theorem State.putCluster_wts (s : State) (k : Nat) (x : Cluster) : (s.putCluster k x).wts = s.wts := rfl
@[simp] theorem State.putCluster_rts (s : State) (k : Nat) (x : Cluster) : (s.putCluster k x).rts = s.rts := rfl
@[simp] theorem State.putCluster_pubs (s : State) (k : Nat) (x : Cluster) : (s.putCluster k x).pubs = s.pubs := rfl
@[simp] theorem State.putCluster_freezes (s : State) (k : Nat) (x : Cluster) : (s.putCluster k x).freezes = s.freezes := rfl
@[simp] theorem State.putCluster_bad (s : State) (k : Nat) (x : Cluster) : (s.putCluster k x).bad = s.bad := rfl
@[simp] theorem State.putCluster_forged (s : State) (k : Nat) (x : Cluster) : (s.putCluster k x).forged = s.forged := rfl
@[simp] theorem State.putCluster_worn (s : State) (k : Nat) (x : Cluster) : (s.putCluster k x).worn = s.worn := rfl
@[simp] theorem State.putCluster_hostCount (s : State) (k : Nat) (x : Cluster) :
    (s.putCluster k x).hostCount = s.hostCount := rfl
@[simp] theorem State.putCluster_mem (s : State) (k : Nat) (x : Cluster) : (s.putCluster k x).mem = s.mem := rfl
@[simp] theorem State.putCluster_past (s : State) (k : Nat) (x : Cluster) : (s.putCluster k x).past = s.past := rfl
@[simp] theorem State.putCluster_threads (s : State) (k : Nat) (x : Cluster) : (s.putCluster k x).threads = s.threads := rfl
@[simp] theorem State.putCluster_casts (s : State) (k : Nat) (x : Cluster) : (s.putCluster k x).casts = s.casts := rfl
@[simp] theorem State.putCluster_prods (s : State) (k : Nat) (x : Cluster) : (s.putCluster k x).prods = s.prods := rfl
@[simp] theorem State.putCluster_nextProd (s : State) (k : Nat) (x : Cluster) :
    (s.putCluster k x).nextProd = s.nextProd := rfl
@[simp] theorem State.putCluster_cores (s : State) (k : Nat) (x : Cluster) : (s.putCluster k x).cores = s.cores := rfl
@[simp] theorem State.putCluster_stamps (s : State) (k : Nat) (x : Cluster) : (s.putCluster k x).stamps = s.stamps := rfl
@[simp] theorem State.putCluster_clusters (s : State) (k : Nat) (x : Cluster) :
    (s.putCluster k x).clusters = tset s.clusters k x Cluster.initial := rfl
@[simp] theorem State.putCluster_tiles (s : State) (k : Nat) (x : Cluster) : (s.putCluster k x).tiles = s.tiles := rfl
@[simp] theorem State.putCluster_calendar (s : State) (k : Nat) (x : Cluster) :
    (s.putCluster k x).calendar = s.calendar := rfl
@[simp] theorem State.putCluster_gals (s : State) (k : Nat) (x : Cluster) : (s.putCluster k x).gals = s.gals := rfl
@[simp] theorem State.putCluster_ops (s : State) (k : Nat) (x : Cluster) : (s.putCluster k x).ops = s.ops := rfl
@[simp] theorem State.putCluster_dev (s : State) (k : Nat) (x : Cluster) : (s.putCluster k x).dev = s.dev := rfl
@[simp] theorem State.putTile_agenda (s : State) (k : Nat) (x : Tile) : (s.putTile k x).agenda = s.agenda := rfl
@[simp] theorem State.putTile_focus (s : State) (k : Nat) (x : Tile) : (s.putTile k x).focus = s.focus := rfl
@[simp] theorem State.putTile_free (s : State) (k : Nat) (x : Tile) : (s.putTile k x).free = s.free := rfl
@[simp] theorem State.putTile_nextOp (s : State) (k : Nat) (x : Tile) : (s.putTile k x).nextOp = s.nextOp := rfl
@[simp] theorem State.putTile_tick (s : State) (k : Nat) (x : Tile) : (s.putTile k x).tick = s.tick := rfl
@[simp] theorem State.putTile_nextInterval (s : State) (k : Nat) (x : Tile) :
    (s.putTile k x).nextInterval = s.nextInterval := rfl
@[simp] theorem State.putTile_issued (s : State) (k : Nat) (x : Tile) : (s.putTile k x).issued = s.issued := rfl
@[simp] theorem State.putTile_wts (s : State) (k : Nat) (x : Tile) : (s.putTile k x).wts = s.wts := rfl
@[simp] theorem State.putTile_rts (s : State) (k : Nat) (x : Tile) : (s.putTile k x).rts = s.rts := rfl
@[simp] theorem State.putTile_pubs (s : State) (k : Nat) (x : Tile) : (s.putTile k x).pubs = s.pubs := rfl
@[simp] theorem State.putTile_freezes (s : State) (k : Nat) (x : Tile) : (s.putTile k x).freezes = s.freezes := rfl
@[simp] theorem State.putTile_bad (s : State) (k : Nat) (x : Tile) : (s.putTile k x).bad = s.bad := rfl
@[simp] theorem State.putTile_forged (s : State) (k : Nat) (x : Tile) : (s.putTile k x).forged = s.forged := rfl
@[simp] theorem State.putTile_worn (s : State) (k : Nat) (x : Tile) : (s.putTile k x).worn = s.worn := rfl
@[simp] theorem State.putTile_hostCount (s : State) (k : Nat) (x : Tile) : (s.putTile k x).hostCount = s.hostCount := rfl
@[simp] theorem State.putTile_mem (s : State) (k : Nat) (x : Tile) : (s.putTile k x).mem = s.mem := rfl
@[simp] theorem State.putTile_past (s : State) (k : Nat) (x : Tile) : (s.putTile k x).past = s.past := rfl
@[simp] theorem State.putTile_threads (s : State) (k : Nat) (x : Tile) : (s.putTile k x).threads = s.threads := rfl
@[simp] theorem State.putTile_casts (s : State) (k : Nat) (x : Tile) : (s.putTile k x).casts = s.casts := rfl
@[simp] theorem State.putTile_prods (s : State) (k : Nat) (x : Tile) : (s.putTile k x).prods = s.prods := rfl
@[simp] theorem State.putTile_nextProd (s : State) (k : Nat) (x : Tile) : (s.putTile k x).nextProd = s.nextProd := rfl
@[simp] theorem State.putTile_cores (s : State) (k : Nat) (x : Tile) : (s.putTile k x).cores = s.cores := rfl
@[simp] theorem State.putTile_stamps (s : State) (k : Nat) (x : Tile) : (s.putTile k x).stamps = s.stamps := rfl
@[simp] theorem State.putTile_clusters (s : State) (k : Nat) (x : Tile) : (s.putTile k x).clusters = s.clusters := rfl
@[simp] theorem State.putTile_tiles (s : State) (k : Nat) (x : Tile) :
    (s.putTile k x).tiles = tset s.tiles k x Tile.initial := rfl
@[simp] theorem State.putTile_calendar (s : State) (k : Nat) (x : Tile) : (s.putTile k x).calendar = s.calendar := rfl
@[simp] theorem State.putTile_gals (s : State) (k : Nat) (x : Tile) : (s.putTile k x).gals = s.gals := rfl
@[simp] theorem State.putTile_ops (s : State) (k : Nat) (x : Tile) : (s.putTile k x).ops = s.ops := rfl
@[simp] theorem State.putTile_dev (s : State) (k : Nat) (x : Tile) : (s.putTile k x).dev = s.dev := rfl
@[simp] theorem State.log_agenda (s : State) (c u k g : Nat) (d : DWord) : (s.log c u k g d).agenda = s.agenda := rfl
@[simp] theorem State.log_focus (s : State) (c u k g : Nat) (d : DWord) : (s.log c u k g d).focus = s.focus := rfl
@[simp] theorem State.log_free (s : State) (c u k g : Nat) (d : DWord) : (s.log c u k g d).free = s.free := rfl
@[simp] theorem State.log_nextOp (s : State) (c u k g : Nat) (d : DWord) : (s.log c u k g d).nextOp = s.nextOp := rfl
@[simp] theorem State.log_tick (s : State) (c u k g : Nat) (d : DWord) : (s.log c u k g d).tick = s.tick := rfl
@[simp] theorem State.log_nextInterval (s : State) (c u k g : Nat) (d : DWord) :
    (s.log c u k g d).nextInterval = s.nextInterval := rfl
@[simp] theorem State.log_issued (s : State) (c u k g : Nat) (d : DWord) : (s.log c u k g d).issued = s.issued := rfl
@[simp] theorem State.log_wts (s : State) (c u k g : Nat) (d : DWord) : (s.log c u k g d).wts = s.wts := rfl
@[simp] theorem State.log_rts (s : State) (c u k g : Nat) (d : DWord) : (s.log c u k g d).rts = s.rts := rfl
@[simp] theorem State.log_pubs (s : State) (c u k g : Nat) (d : DWord) : (s.log c u k g d).pubs = s.pubs := rfl
@[simp] theorem State.log_freezes (s : State) (c u k g : Nat) (d : DWord) : (s.log c u k g d).freezes = s.freezes := rfl
@[simp] theorem State.log_bad (s : State) (c u k g : Nat) (d : DWord) : (s.log c u k g d).bad = s.bad := rfl
@[simp] theorem State.log_forged (s : State) (c u k g : Nat) (d : DWord) : (s.log c u k g d).forged = s.forged := rfl
@[simp] theorem State.log_worn (s : State) (c u k g : Nat) (d : DWord) : (s.log c u k g d).worn = s.worn := rfl
@[simp] theorem State.log_hostCount (s : State) (c u k g : Nat) (d : DWord) :
    (s.log c u k g d).hostCount = s.hostCount := rfl
@[simp] theorem State.log_mem (s : State) (c u k g : Nat) (d : DWord) : (s.log c u k g d).mem = s.mem := rfl
@[simp] theorem State.log_past (s : State) (c u k g : Nat) (d : DWord) : (s.log c u k g d).past = s.past := rfl
@[simp] theorem State.log_threads (s : State) (c u k g : Nat) (d : DWord) : (s.log c u k g d).threads = s.threads := rfl
@[simp] theorem State.log_casts (s : State) (c u k g : Nat) (d : DWord) : (s.log c u k g d).casts = s.casts := rfl
@[simp] theorem State.log_prods (s : State) (c u k g : Nat) (d : DWord) : (s.log c u k g d).prods = s.prods := rfl
@[simp] theorem State.log_nextProd (s : State) (c u k g : Nat) (d : DWord) : (s.log c u k g d).nextProd = s.nextProd := rfl
@[simp] theorem State.log_cores (s : State) (c u k g : Nat) (d : DWord) : (s.log c u k g d).cores = s.cores := rfl
@[simp] theorem State.log_stamps (s : State) (c u k g : Nat) (d : DWord) : (s.log c u k g d).stamps = s.stamps := rfl
@[simp] theorem State.log_clusters (s : State) (c u k g : Nat) (d : DWord) : (s.log c u k g d).clusters = s.clusters := rfl
@[simp] theorem State.log_tiles (s : State) (c u k g : Nat) (d : DWord) : (s.log c u k g d).tiles = s.tiles := rfl
@[simp] theorem State.log_calendar (s : State) (c u k g : Nat) (d : DWord) : (s.log c u k g d).calendar = s.calendar := rfl
@[simp] theorem State.log_gals (s : State) (c u k g : Nat) (d : DWord) : (s.log c u k g d).gals = s.gals := rfl
@[simp] theorem State.log_ops (s : State) (c u k g : Nat) (d : DWord) : (s.log c u k g d).ops = s.ops := rfl
@[simp] theorem State.haltCast_agenda (s : State) (k : Nat) (b : Option Nat) : (s.haltCast k b).agenda = s.agenda := rfl
@[simp] theorem State.haltCast_focus (s : State) (k : Nat) (b : Option Nat) : (s.haltCast k b).focus = s.focus := rfl
@[simp] theorem State.haltCast_free (s : State) (k : Nat) (b : Option Nat) : (s.haltCast k b).free = s.free := rfl
@[simp] theorem State.haltCast_nextOp (s : State) (k : Nat) (b : Option Nat) : (s.haltCast k b).nextOp = s.nextOp := rfl
@[simp] theorem State.haltCast_tick (s : State) (k : Nat) (b : Option Nat) : (s.haltCast k b).tick = s.tick := rfl
@[simp] theorem State.haltCast_nextInterval (s : State) (k : Nat) (b : Option Nat) :
    (s.haltCast k b).nextInterval = s.nextInterval := rfl
@[simp] theorem State.haltCast_issued (s : State) (k : Nat) (b : Option Nat) : (s.haltCast k b).issued = s.issued := rfl
@[simp] theorem State.haltCast_wts (s : State) (k : Nat) (b : Option Nat) : (s.haltCast k b).wts = s.wts := rfl
@[simp] theorem State.haltCast_rts (s : State) (k : Nat) (b : Option Nat) : (s.haltCast k b).rts = s.rts := rfl
@[simp] theorem State.haltCast_pubs (s : State) (k : Nat) (b : Option Nat) : (s.haltCast k b).pubs = s.pubs := rfl
@[simp] theorem State.haltCast_freezes (s : State) (k : Nat) (b : Option Nat) : (s.haltCast k b).freezes = s.freezes := rfl
@[simp] theorem State.haltCast_bad (s : State) (k : Nat) (b : Option Nat) : (s.haltCast k b).bad = s.bad := rfl
@[simp] theorem State.haltCast_forged (s : State) (k : Nat) (b : Option Nat) : (s.haltCast k b).forged = s.forged := rfl
@[simp] theorem State.haltCast_worn (s : State) (k : Nat) (b : Option Nat) : (s.haltCast k b).worn = s.worn := rfl
@[simp] theorem State.haltCast_hostCount (s : State) (k : Nat) (b : Option Nat) :
    (s.haltCast k b).hostCount = s.hostCount := rfl
@[simp] theorem State.haltCast_mem (s : State) (k : Nat) (b : Option Nat) : (s.haltCast k b).mem = s.mem := rfl
@[simp] theorem State.haltCast_past (s : State) (k : Nat) (b : Option Nat) : (s.haltCast k b).past = s.past := rfl
@[simp] theorem State.haltCast_casts (s : State) (k : Nat) (b : Option Nat) : (s.haltCast k b).casts = s.casts := rfl
@[simp] theorem State.haltCast_prods (s : State) (k : Nat) (b : Option Nat) : (s.haltCast k b).prods = s.prods := rfl
@[simp] theorem State.haltCast_nextProd (s : State) (k : Nat) (b : Option Nat) :
    (s.haltCast k b).nextProd = s.nextProd := rfl
@[simp] theorem State.haltCast_cores (s : State) (k : Nat) (b : Option Nat) : (s.haltCast k b).cores = s.cores := rfl
@[simp] theorem State.haltCast_stamps (s : State) (k : Nat) (b : Option Nat) : (s.haltCast k b).stamps = s.stamps := rfl
@[simp] theorem State.haltCast_clusters (s : State) (k : Nat) (b : Option Nat) :
    (s.haltCast k b).clusters = s.clusters := rfl
@[simp] theorem State.haltCast_tiles (s : State) (k : Nat) (b : Option Nat) : (s.haltCast k b).tiles = s.tiles := rfl
@[simp] theorem State.haltCast_calendar (s : State) (k : Nat) (b : Option Nat) :
    (s.haltCast k b).calendar = s.calendar := rfl
@[simp] theorem State.haltCast_gals (s : State) (k : Nat) (b : Option Nat) : (s.haltCast k b).gals = s.gals := rfl
@[simp] theorem State.haltCast_ops (s : State) (k : Nat) (b : Option Nat) : (s.haltCast k b).ops = s.ops := rfl
@[simp] theorem State.haltCast_dev (s : State) (k : Nat) (b : Option Nat) : (s.haltCast k b).dev = s.dev := rfl
@[simp] theorem State.writeBytes_agenda (s : State) (l : Loc) (bs : List Byte) (k : Key) (h : Option Nat) :
    (s.writeBytes l bs k h).agenda = s.agenda := rfl
@[simp] theorem State.writeBytes_focus (s : State) (l : Loc) (bs : List Byte) (k : Key) (h : Option Nat) :
    (s.writeBytes l bs k h).focus = s.focus := rfl
@[simp] theorem State.writeBytes_free (s : State) (l : Loc) (bs : List Byte) (k : Key) (h : Option Nat) :
    (s.writeBytes l bs k h).free = s.free := rfl
@[simp] theorem State.writeBytes_nextOp (s : State) (l : Loc) (bs : List Byte) (k : Key) (h : Option Nat) :
    (s.writeBytes l bs k h).nextOp = s.nextOp := rfl
@[simp] theorem State.writeBytes_tick (s : State) (l : Loc) (bs : List Byte) (k : Key) (h : Option Nat) :
    (s.writeBytes l bs k h).tick = s.tick := rfl
@[simp] theorem State.writeBytes_nextInterval (s : State) (l : Loc) (bs : List Byte) (k : Key) (h : Option Nat) :
    (s.writeBytes l bs k h).nextInterval = s.nextInterval := rfl
@[simp] theorem State.writeBytes_issued (s : State) (l : Loc) (bs : List Byte) (k : Key) (h : Option Nat) :
    (s.writeBytes l bs k h).issued = s.issued := rfl
@[simp] theorem State.writeBytes_wts (s : State) (l : Loc) (bs : List Byte) (k : Key) (h : Option Nat) :
    (s.writeBytes l bs k h).wts = s.wts := rfl
@[simp] theorem State.writeBytes_rts (s : State) (l : Loc) (bs : List Byte) (k : Key) (h : Option Nat) :
    (s.writeBytes l bs k h).rts = s.rts := rfl
@[simp] theorem State.writeBytes_pubs (s : State) (l : Loc) (bs : List Byte) (k : Key) (h : Option Nat) :
    (s.writeBytes l bs k h).pubs = s.pubs := rfl
@[simp] theorem State.writeBytes_freezes (s : State) (l : Loc) (bs : List Byte) (k : Key) (h : Option Nat) :
    (s.writeBytes l bs k h).freezes = s.freezes := rfl
@[simp] theorem State.writeBytes_bad (s : State) (l : Loc) (bs : List Byte) (k : Key) (h : Option Nat) :
    (s.writeBytes l bs k h).bad = s.bad := rfl
@[simp] theorem State.writeBytes_forged (s : State) (l : Loc) (bs : List Byte) (k : Key) (h : Option Nat) :
    (s.writeBytes l bs k h).forged = s.forged := rfl
@[simp] theorem State.writeBytes_worn (s : State) (l : Loc) (bs : List Byte) (k : Key) (h : Option Nat) :
    (s.writeBytes l bs k h).worn = s.worn := rfl
@[simp] theorem State.writeBytes_hostCount (s : State) (l : Loc) (bs : List Byte) (k : Key) (h : Option Nat) :
    (s.writeBytes l bs k h).hostCount = s.hostCount := rfl
@[simp] theorem State.writeBytes_mem (s : State) (l : Loc) (bs : List Byte) (k : Key) (h : Option Nat) :
    (s.writeBytes l bs k h).mem = setBytes s.mem l.cell bs := rfl
@[simp] theorem State.writeBytes_threads (s : State) (l : Loc) (bs : List Byte) (k : Key) (h : Option Nat) :
    (s.writeBytes l bs k h).threads = s.threads := rfl
@[simp] theorem State.writeBytes_casts (s : State) (l : Loc) (bs : List Byte) (k : Key) (h : Option Nat) :
    (s.writeBytes l bs k h).casts = s.casts := rfl
@[simp] theorem State.writeBytes_prods (s : State) (l : Loc) (bs : List Byte) (k : Key) (h : Option Nat) :
    (s.writeBytes l bs k h).prods = s.prods := rfl
@[simp] theorem State.writeBytes_nextProd (s : State) (l : Loc) (bs : List Byte) (k : Key) (h : Option Nat) :
    (s.writeBytes l bs k h).nextProd = s.nextProd := rfl
@[simp] theorem State.writeBytes_cores (s : State) (l : Loc) (bs : List Byte) (k : Key) (h : Option Nat) :
    (s.writeBytes l bs k h).cores = s.cores := rfl
@[simp] theorem State.writeBytes_stamps (s : State) (l : Loc) (bs : List Byte) (k : Key) (h : Option Nat) :
    (s.writeBytes l bs k h).stamps = s.stamps := rfl
@[simp] theorem State.writeBytes_clusters (s : State) (l : Loc) (bs : List Byte) (k : Key) (h : Option Nat) :
    (s.writeBytes l bs k h).clusters = s.clusters := rfl
@[simp] theorem State.writeBytes_tiles (s : State) (l : Loc) (bs : List Byte) (k : Key) (h : Option Nat) :
    (s.writeBytes l bs k h).tiles = s.tiles := rfl
@[simp] theorem State.writeBytes_calendar (s : State) (l : Loc) (bs : List Byte) (k : Key) (h : Option Nat) :
    (s.writeBytes l bs k h).calendar = s.calendar := rfl
@[simp] theorem State.writeBytes_gals (s : State) (l : Loc) (bs : List Byte) (k : Key) (h : Option Nat) :
    (s.writeBytes l bs k h).gals = s.gals := rfl
@[simp] theorem State.writeBytes_ops (s : State) (l : Loc) (bs : List Byte) (k : Key) (h : Option Nat) :
    (s.writeBytes l bs k h).ops = s.ops := rfl
@[simp] theorem State.writeBytes_dev (s : State) (l : Loc) (bs : List Byte) (k : Key) (h : Option Nat) :
    (s.writeBytes l bs k h).dev = s.dev := rfl

/-! ## Updates of a thread -/

@[simp] theorem Thread.setLane_pc (t : Thread) (n : Nat) (x : Word) : (t.setLane n x).pc = t.pc := rfl
@[simp] theorem Thread.setLane_v (t : Thread) (n : Nat) (x : Word) : (t.setLane n x).v = tset t.v n x 0 := rfl
@[simp] theorem Thread.setLane_u (t : Thread) (n : Nat) (x : Word) : (t.setLane n x).u = t.u := rfl
@[simp] theorem Thread.setLane_p (t : Thread) (n : Nat) (x : Word) : (t.setLane n x).p = t.p := rfl
@[simp] theorem Thread.setLane_k (t : Thread) (n : Nat) (x : Word) : (t.setLane n x).k = t.k := rfl
@[simp] theorem Thread.setLane_priv (t : Thread) (n : Nat) (x : Word) : (t.setLane n x).priv = t.priv := rfl
@[simp] theorem Thread.setLane_run (t : Thread) (n : Nat) (x : Word) : (t.setLane n x).run = t.run := rfl
@[simp] theorem Thread.setLane_fflags (t : Thread) (n : Nat) (x : Word) : (t.setLane n x).fflags = t.fflags := rfl
@[simp] theorem Thread.setLane_frm (t : Thread) (n : Nat) (x : Word) : (t.setLane n x).frm = t.frm := rfl
@[simp] theorem Thread.setLane_lodc (t : Thread) (n : Nat) (x : Word) : (t.setLane n x).lodc = t.lodc := rfl
@[simp] theorem Thread.setLane_ident (t : Thread) (n : Nat) (x : Word) : (t.setLane n x).ident = t.ident := rfl
@[simp] theorem Thread.setLane_pidx (t : Thread) (n : Nat) (x : Word) : (t.setLane n x).pidx = t.pidx := rfl
@[simp] theorem Thread.setLane_tcause (t : Thread) (n : Nat) (x : Word) : (t.setLane n x).tcause = t.tcause := rfl
@[simp] theorem Thread.setLane_tepc (t : Thread) (n : Nat) (x : Word) : (t.setLane n x).tepc = t.tepc := rfl
@[simp] theorem Thread.setLane_tval (t : Thread) (n : Nat) (x : Word) : (t.setLane n x).tval = t.tval := rfl
@[simp] theorem Thread.setLane_tstat (t : Thread) (n : Nat) (x : Word) : (t.setLane n x).tstat = t.tstat := rfl
@[simp] theorem Thread.setLane_tscratch (t : Thread) (n : Nat) (x : Word) : (t.setLane n x).tscratch = t.tscratch := rfl
@[simp] theorem Thread.setLane_step (t : Thread) (n : Nat) (x : Word) : (t.setLane n x).step = t.step := rfl
@[simp] theorem Thread.setLane_hdr (t : Thread) (n : Nat) (x : Word) : (t.setLane n x).hdr = t.hdr := rfl
@[simp] theorem Thread.setLane_inScene (t : Thread) (n : Nat) (x : Word) : (t.setLane n x).inScene = t.inScene := rfl
@[simp] theorem Thread.setLane_cueA (t : Thread) (n : Nat) (x : Word) : (t.setLane n x).cueA = t.cueA := rfl
@[simp] theorem Thread.setLane_cueB (t : Thread) (n : Nat) (x : Word) : (t.setLane n x).cueB = t.cueB := rfl
@[simp] theorem Thread.setLane_pfx (t : Thread) (n : Nat) (x : Word) : (t.setLane n x).pfx = t.pfx := rfl
@[simp] theorem Thread.setLane_outst (t : Thread) (n : Nat) (x : Word) : (t.setLane n x).outst = t.outst := rfl
@[simp] theorem Thread.setLane_held (t : Thread) (n : Nat) (x : Word) : (t.setLane n x).held = t.held := rfl
@[simp] theorem Thread.setLane_haltDue (t : Thread) (n : Nat) (x : Word) : (t.setLane n x).haltDue = t.haltDue := rfl
@[simp] theorem Thread.setLane_sliceDue (t : Thread) (n : Nat) (x : Word) : (t.setLane n x).sliceDue = t.sliceDue := rfl
@[simp] theorem Thread.setLane_poison (t : Thread) (n : Nat) (x : Word) : (t.setLane n x).poison = t.poison := rfl
@[simp] theorem Thread.setLane_kept (t : Thread) (n : Nat) (x : Word) : (t.setLane n x).kept = t.kept := rfl
@[simp] theorem Thread.setLane_suppress (t : Thread) (n : Nat) (x : Word) : (t.setLane n x).suppress = t.suppress := rfl
@[simp] theorem Thread.setLane_age (t : Thread) (n : Nat) (x : Word) : (t.setLane n x).age = t.age := rfl
@[simp] theorem Thread.setLane_filedAt (t : Thread) (n : Nat) (x : Word) : (t.setLane n x).filedAt = t.filedAt := rfl
@[simp] theorem Thread.setLane_waitOn (t : Thread) (n : Nat) (x : Word) : (t.setLane n x).waitOn = t.waitOn := rfl
@[simp] theorem Thread.setLane_waitSince (t : Thread) (n : Nat) (x : Word) : (t.setLane n x).waitSince = t.waitSince := rfl
@[simp] theorem Thread.setLane_v2s (t : Thread) (n : Nat) (x : Word) : (t.setLane n x).v2s = t.v2s := rfl
@[simp] theorem Thread.setLane_sliceIn (t : Thread) (n : Nat) (x : Word) : (t.setLane n x).sliceIn = t.sliceIn := rfl
@[simp] theorem Thread.setLane_haltIn (t : Thread) (n : Nat) (x : Word) : (t.setLane n x).haltIn = t.haltIn := rfl
@[simp] theorem Thread.setLane_seen (t : Thread) (n : Nat) (x : Word) : (t.setLane n x).seen = t.seen := rfl
@[simp] theorem Thread.setLane_fenceR (t : Thread) (n : Nat) (x : Word) : (t.setLane n x).fenceR = t.fenceR := rfl
@[simp] theorem Thread.setLane_hostFrom (t : Thread) (n : Nat) (x : Word) : (t.setLane n x).hostFrom = t.hostFrom := rfl
@[simp] theorem Thread.setLane_hostLines (t : Thread) (n : Nat) (x : Word) : (t.setLane n x).hostLines = t.hostLines := rfl
@[simp] theorem Thread.setLane_repFrom (t : Thread) (n : Nat) (x : Word) : (t.setLane n x).repFrom = t.repFrom := rfl
@[simp] theorem Thread.setLane_late (t : Thread) (n : Nat) (x : Word) : (t.setLane n x).late = t.late := rfl
@[simp] theorem Thread.setLane_gbarAt (t : Thread) (n : Nat) (x : Word) : (t.setLane n x).gbarAt = t.gbarAt := rfl
@[simp] theorem Thread.setUni_pc (t : Thread) (n : Nat) (x : DWord) : (t.setUni n x).pc = t.pc := rfl
@[simp] theorem Thread.setUni_v (t : Thread) (n : Nat) (x : DWord) : (t.setUni n x).v = t.v := rfl
@[simp] theorem Thread.setUni_u (t : Thread) (n : Nat) (x : DWord) : (t.setUni n x).u = tset t.u n x 0 := rfl
@[simp] theorem Thread.setUni_p (t : Thread) (n : Nat) (x : DWord) : (t.setUni n x).p = t.p := rfl
@[simp] theorem Thread.setUni_k (t : Thread) (n : Nat) (x : DWord) : (t.setUni n x).k = t.k := rfl
@[simp] theorem Thread.setUni_priv (t : Thread) (n : Nat) (x : DWord) : (t.setUni n x).priv = t.priv := rfl
@[simp] theorem Thread.setUni_run (t : Thread) (n : Nat) (x : DWord) : (t.setUni n x).run = t.run := rfl
@[simp] theorem Thread.setUni_fflags (t : Thread) (n : Nat) (x : DWord) : (t.setUni n x).fflags = t.fflags := rfl
@[simp] theorem Thread.setUni_frm (t : Thread) (n : Nat) (x : DWord) : (t.setUni n x).frm = t.frm := rfl
@[simp] theorem Thread.setUni_lodc (t : Thread) (n : Nat) (x : DWord) : (t.setUni n x).lodc = t.lodc := rfl
@[simp] theorem Thread.setUni_ident (t : Thread) (n : Nat) (x : DWord) : (t.setUni n x).ident = t.ident := rfl
@[simp] theorem Thread.setUni_pidx (t : Thread) (n : Nat) (x : DWord) : (t.setUni n x).pidx = t.pidx := rfl
@[simp] theorem Thread.setUni_tcause (t : Thread) (n : Nat) (x : DWord) : (t.setUni n x).tcause = t.tcause := rfl
@[simp] theorem Thread.setUni_tepc (t : Thread) (n : Nat) (x : DWord) : (t.setUni n x).tepc = t.tepc := rfl
@[simp] theorem Thread.setUni_tval (t : Thread) (n : Nat) (x : DWord) : (t.setUni n x).tval = t.tval := rfl
@[simp] theorem Thread.setUni_tstat (t : Thread) (n : Nat) (x : DWord) : (t.setUni n x).tstat = t.tstat := rfl
@[simp] theorem Thread.setUni_tscratch (t : Thread) (n : Nat) (x : DWord) : (t.setUni n x).tscratch = t.tscratch := rfl
@[simp] theorem Thread.setUni_step (t : Thread) (n : Nat) (x : DWord) : (t.setUni n x).step = t.step := rfl
@[simp] theorem Thread.setUni_hdr (t : Thread) (n : Nat) (x : DWord) : (t.setUni n x).hdr = t.hdr := rfl
@[simp] theorem Thread.setUni_inScene (t : Thread) (n : Nat) (x : DWord) : (t.setUni n x).inScene = t.inScene := rfl
@[simp] theorem Thread.setUni_cueA (t : Thread) (n : Nat) (x : DWord) : (t.setUni n x).cueA = t.cueA := rfl
@[simp] theorem Thread.setUni_cueB (t : Thread) (n : Nat) (x : DWord) : (t.setUni n x).cueB = t.cueB := rfl
@[simp] theorem Thread.setUni_pfx (t : Thread) (n : Nat) (x : DWord) : (t.setUni n x).pfx = t.pfx := rfl
@[simp] theorem Thread.setUni_outst (t : Thread) (n : Nat) (x : DWord) : (t.setUni n x).outst = t.outst := rfl
@[simp] theorem Thread.setUni_held (t : Thread) (n : Nat) (x : DWord) : (t.setUni n x).held = t.held := rfl
@[simp] theorem Thread.setUni_haltDue (t : Thread) (n : Nat) (x : DWord) : (t.setUni n x).haltDue = t.haltDue := rfl
@[simp] theorem Thread.setUni_sliceDue (t : Thread) (n : Nat) (x : DWord) : (t.setUni n x).sliceDue = t.sliceDue := rfl
@[simp] theorem Thread.setUni_poison (t : Thread) (n : Nat) (x : DWord) : (t.setUni n x).poison = t.poison := rfl
@[simp] theorem Thread.setUni_kept (t : Thread) (n : Nat) (x : DWord) : (t.setUni n x).kept = t.kept := rfl
@[simp] theorem Thread.setUni_suppress (t : Thread) (n : Nat) (x : DWord) : (t.setUni n x).suppress = t.suppress := rfl
@[simp] theorem Thread.setUni_age (t : Thread) (n : Nat) (x : DWord) : (t.setUni n x).age = t.age := rfl
@[simp] theorem Thread.setUni_filedAt (t : Thread) (n : Nat) (x : DWord) : (t.setUni n x).filedAt = t.filedAt := rfl
@[simp] theorem Thread.setUni_waitOn (t : Thread) (n : Nat) (x : DWord) : (t.setUni n x).waitOn = t.waitOn := rfl
@[simp] theorem Thread.setUni_waitSince (t : Thread) (n : Nat) (x : DWord) : (t.setUni n x).waitSince = t.waitSince := rfl
@[simp] theorem Thread.setUni_v2s (t : Thread) (n : Nat) (x : DWord) : (t.setUni n x).v2s = t.v2s := rfl
@[simp] theorem Thread.setUni_sliceIn (t : Thread) (n : Nat) (x : DWord) : (t.setUni n x).sliceIn = t.sliceIn := rfl
@[simp] theorem Thread.setUni_haltIn (t : Thread) (n : Nat) (x : DWord) : (t.setUni n x).haltIn = t.haltIn := rfl
@[simp] theorem Thread.setUni_seen (t : Thread) (n : Nat) (x : DWord) : (t.setUni n x).seen = t.seen := rfl
@[simp] theorem Thread.setUni_fenceR (t : Thread) (n : Nat) (x : DWord) : (t.setUni n x).fenceR = t.fenceR := rfl
@[simp] theorem Thread.setUni_hostFrom (t : Thread) (n : Nat) (x : DWord) : (t.setUni n x).hostFrom = t.hostFrom := rfl
@[simp] theorem Thread.setUni_hostLines (t : Thread) (n : Nat) (x : DWord) : (t.setUni n x).hostLines = t.hostLines := rfl
@[simp] theorem Thread.setUni_repFrom (t : Thread) (n : Nat) (x : DWord) : (t.setUni n x).repFrom = t.repFrom := rfl
@[simp] theorem Thread.setUni_late (t : Thread) (n : Nat) (x : DWord) : (t.setUni n x).late = t.late := rfl
@[simp] theorem Thread.setUni_gbarAt (t : Thread) (n : Nat) (x : DWord) : (t.setUni n x).gbarAt = t.gbarAt := rfl
@[simp] theorem Thread.putUni_pc (t : Thread) (n : Nat) (x : DWord) : (t.putUni n x).pc = t.pc := rfl
@[simp] theorem Thread.putUni_v (t : Thread) (n : Nat) (x : DWord) : (t.putUni n x).v = t.v := rfl
@[simp] theorem Thread.putUni_u (t : Thread) (n : Nat) (x : DWord) : (t.putUni n x).u = tset t.u n x 0 := rfl
@[simp] theorem Thread.putUni_p (t : Thread) (n : Nat) (x : DWord) : (t.putUni n x).p = t.p := rfl
@[simp] theorem Thread.putUni_k (t : Thread) (n : Nat) (x : DWord) : (t.putUni n x).k = t.k := rfl
@[simp] theorem Thread.putUni_priv (t : Thread) (n : Nat) (x : DWord) : (t.putUni n x).priv = t.priv := rfl
@[simp] theorem Thread.putUni_run (t : Thread) (n : Nat) (x : DWord) : (t.putUni n x).run = t.run := rfl
@[simp] theorem Thread.putUni_fflags (t : Thread) (n : Nat) (x : DWord) : (t.putUni n x).fflags = t.fflags := rfl
@[simp] theorem Thread.putUni_frm (t : Thread) (n : Nat) (x : DWord) : (t.putUni n x).frm = t.frm := rfl
@[simp] theorem Thread.putUni_lodc (t : Thread) (n : Nat) (x : DWord) : (t.putUni n x).lodc = t.lodc := rfl
@[simp] theorem Thread.putUni_ident (t : Thread) (n : Nat) (x : DWord) : (t.putUni n x).ident = t.ident := rfl
@[simp] theorem Thread.putUni_pidx (t : Thread) (n : Nat) (x : DWord) : (t.putUni n x).pidx = t.pidx := rfl
@[simp] theorem Thread.putUni_tcause (t : Thread) (n : Nat) (x : DWord) : (t.putUni n x).tcause = t.tcause := rfl
@[simp] theorem Thread.putUni_tepc (t : Thread) (n : Nat) (x : DWord) : (t.putUni n x).tepc = t.tepc := rfl
@[simp] theorem Thread.putUni_tval (t : Thread) (n : Nat) (x : DWord) : (t.putUni n x).tval = t.tval := rfl
@[simp] theorem Thread.putUni_tstat (t : Thread) (n : Nat) (x : DWord) : (t.putUni n x).tstat = t.tstat := rfl
@[simp] theorem Thread.putUni_tscratch (t : Thread) (n : Nat) (x : DWord) : (t.putUni n x).tscratch = t.tscratch := rfl
@[simp] theorem Thread.putUni_step (t : Thread) (n : Nat) (x : DWord) : (t.putUni n x).step = t.step := rfl
@[simp] theorem Thread.putUni_hdr (t : Thread) (n : Nat) (x : DWord) : (t.putUni n x).hdr = t.hdr := rfl
@[simp] theorem Thread.putUni_inScene (t : Thread) (n : Nat) (x : DWord) : (t.putUni n x).inScene = t.inScene := rfl
@[simp] theorem Thread.putUni_cueA (t : Thread) (n : Nat) (x : DWord) : (t.putUni n x).cueA = t.cueA := rfl
@[simp] theorem Thread.putUni_cueB (t : Thread) (n : Nat) (x : DWord) : (t.putUni n x).cueB = t.cueB := rfl
@[simp] theorem Thread.putUni_pfx (t : Thread) (n : Nat) (x : DWord) : (t.putUni n x).pfx = t.pfx := rfl
@[simp] theorem Thread.putUni_outst (t : Thread) (n : Nat) (x : DWord) : (t.putUni n x).outst = t.outst := rfl
@[simp] theorem Thread.putUni_held (t : Thread) (n : Nat) (x : DWord) : (t.putUni n x).held = t.held := rfl
@[simp] theorem Thread.putUni_haltDue (t : Thread) (n : Nat) (x : DWord) : (t.putUni n x).haltDue = t.haltDue := rfl
@[simp] theorem Thread.putUni_sliceDue (t : Thread) (n : Nat) (x : DWord) : (t.putUni n x).sliceDue = t.sliceDue := rfl
@[simp] theorem Thread.putUni_poison (t : Thread) (n : Nat) (x : DWord) : (t.putUni n x).poison = t.poison := rfl
@[simp] theorem Thread.putUni_kept (t : Thread) (n : Nat) (x : DWord) : (t.putUni n x).kept = t.kept := rfl
@[simp] theorem Thread.putUni_suppress (t : Thread) (n : Nat) (x : DWord) : (t.putUni n x).suppress = t.suppress := rfl
@[simp] theorem Thread.putUni_age (t : Thread) (n : Nat) (x : DWord) : (t.putUni n x).age = t.age := rfl
@[simp] theorem Thread.putUni_filedAt (t : Thread) (n : Nat) (x : DWord) : (t.putUni n x).filedAt = t.filedAt := rfl
@[simp] theorem Thread.putUni_waitOn (t : Thread) (n : Nat) (x : DWord) : (t.putUni n x).waitOn = t.waitOn := rfl
@[simp] theorem Thread.putUni_waitSince (t : Thread) (n : Nat) (x : DWord) : (t.putUni n x).waitSince = t.waitSince := rfl
@[simp] theorem Thread.putUni_v2s (t : Thread) (n : Nat) (x : DWord) : (t.putUni n x).v2s = putBit t.v2s n false := rfl
@[simp] theorem Thread.putUni_sliceIn (t : Thread) (n : Nat) (x : DWord) : (t.putUni n x).sliceIn = t.sliceIn := rfl
@[simp] theorem Thread.putUni_haltIn (t : Thread) (n : Nat) (x : DWord) : (t.putUni n x).haltIn = t.haltIn := rfl
@[simp] theorem Thread.putUni_seen (t : Thread) (n : Nat) (x : DWord) : (t.putUni n x).seen = t.seen := rfl
@[simp] theorem Thread.putUni_fenceR (t : Thread) (n : Nat) (x : DWord) : (t.putUni n x).fenceR = t.fenceR := rfl
@[simp] theorem Thread.putUni_hostFrom (t : Thread) (n : Nat) (x : DWord) : (t.putUni n x).hostFrom = t.hostFrom := rfl
@[simp] theorem Thread.putUni_hostLines (t : Thread) (n : Nat) (x : DWord) : (t.putUni n x).hostLines = t.hostLines := rfl
@[simp] theorem Thread.putUni_repFrom (t : Thread) (n : Nat) (x : DWord) : (t.putUni n x).repFrom = t.repFrom := rfl
@[simp] theorem Thread.putUni_late (t : Thread) (n : Nat) (x : DWord) : (t.putUni n x).late = t.late := rfl
@[simp] theorem Thread.putUni_gbarAt (t : Thread) (n : Nat) (x : DWord) : (t.putUni n x).gbarAt = t.gbarAt := rfl
@[simp] theorem Thread.raise_pc (t : Thread) (f : Fl) : (t.raise f).pc = t.pc := rfl
@[simp] theorem Thread.raise_v (t : Thread) (f : Fl) : (t.raise f).v = t.v := rfl
@[simp] theorem Thread.raise_u (t : Thread) (f : Fl) : (t.raise f).u = t.u := rfl
@[simp] theorem Thread.raise_p (t : Thread) (f : Fl) : (t.raise f).p = t.p := rfl
@[simp] theorem Thread.raise_k (t : Thread) (f : Fl) : (t.raise f).k = t.k := rfl
@[simp] theorem Thread.raise_priv (t : Thread) (f : Fl) : (t.raise f).priv = t.priv := rfl
@[simp] theorem Thread.raise_run (t : Thread) (f : Fl) : (t.raise f).run = t.run := rfl
@[simp] theorem Thread.raise_fflags (t : Thread) (f : Fl) : (t.raise f).fflags = t.fflags ||| f.bits := rfl
@[simp] theorem Thread.raise_frm (t : Thread) (f : Fl) : (t.raise f).frm = t.frm := rfl
@[simp] theorem Thread.raise_lodc (t : Thread) (f : Fl) : (t.raise f).lodc = t.lodc := rfl
@[simp] theorem Thread.raise_ident (t : Thread) (f : Fl) : (t.raise f).ident = t.ident := rfl
@[simp] theorem Thread.raise_pidx (t : Thread) (f : Fl) : (t.raise f).pidx = t.pidx := rfl
@[simp] theorem Thread.raise_tcause (t : Thread) (f : Fl) : (t.raise f).tcause = t.tcause := rfl
@[simp] theorem Thread.raise_tepc (t : Thread) (f : Fl) : (t.raise f).tepc = t.tepc := rfl
@[simp] theorem Thread.raise_tval (t : Thread) (f : Fl) : (t.raise f).tval = t.tval := rfl
@[simp] theorem Thread.raise_tstat (t : Thread) (f : Fl) : (t.raise f).tstat = t.tstat := rfl
@[simp] theorem Thread.raise_tscratch (t : Thread) (f : Fl) : (t.raise f).tscratch = t.tscratch := rfl
@[simp] theorem Thread.raise_step (t : Thread) (f : Fl) : (t.raise f).step = t.step := rfl
@[simp] theorem Thread.raise_hdr (t : Thread) (f : Fl) : (t.raise f).hdr = t.hdr := rfl
@[simp] theorem Thread.raise_inScene (t : Thread) (f : Fl) : (t.raise f).inScene = t.inScene := rfl
@[simp] theorem Thread.raise_cueA (t : Thread) (f : Fl) : (t.raise f).cueA = t.cueA := rfl
@[simp] theorem Thread.raise_cueB (t : Thread) (f : Fl) : (t.raise f).cueB = t.cueB := rfl
@[simp] theorem Thread.raise_pfx (t : Thread) (f : Fl) : (t.raise f).pfx = t.pfx := rfl
@[simp] theorem Thread.raise_outst (t : Thread) (f : Fl) : (t.raise f).outst = t.outst := rfl
@[simp] theorem Thread.raise_held (t : Thread) (f : Fl) : (t.raise f).held = t.held := rfl
@[simp] theorem Thread.raise_haltDue (t : Thread) (f : Fl) : (t.raise f).haltDue = t.haltDue := rfl
@[simp] theorem Thread.raise_sliceDue (t : Thread) (f : Fl) : (t.raise f).sliceDue = t.sliceDue := rfl
@[simp] theorem Thread.raise_poison (t : Thread) (f : Fl) : (t.raise f).poison = t.poison := rfl
@[simp] theorem Thread.raise_kept (t : Thread) (f : Fl) : (t.raise f).kept = t.kept := rfl
@[simp] theorem Thread.raise_suppress (t : Thread) (f : Fl) : (t.raise f).suppress = t.suppress := rfl
@[simp] theorem Thread.raise_age (t : Thread) (f : Fl) : (t.raise f).age = t.age := rfl
@[simp] theorem Thread.raise_filedAt (t : Thread) (f : Fl) : (t.raise f).filedAt = t.filedAt := rfl
@[simp] theorem Thread.raise_waitOn (t : Thread) (f : Fl) : (t.raise f).waitOn = t.waitOn := rfl
@[simp] theorem Thread.raise_waitSince (t : Thread) (f : Fl) : (t.raise f).waitSince = t.waitSince := rfl
@[simp] theorem Thread.raise_v2s (t : Thread) (f : Fl) : (t.raise f).v2s = t.v2s := rfl
@[simp] theorem Thread.raise_sliceIn (t : Thread) (f : Fl) : (t.raise f).sliceIn = t.sliceIn := rfl
@[simp] theorem Thread.raise_haltIn (t : Thread) (f : Fl) : (t.raise f).haltIn = t.haltIn := rfl
@[simp] theorem Thread.raise_seen (t : Thread) (f : Fl) : (t.raise f).seen = t.seen := rfl
@[simp] theorem Thread.raise_fenceR (t : Thread) (f : Fl) : (t.raise f).fenceR = t.fenceR := rfl
@[simp] theorem Thread.raise_hostFrom (t : Thread) (f : Fl) : (t.raise f).hostFrom = t.hostFrom := rfl
@[simp] theorem Thread.raise_hostLines (t : Thread) (f : Fl) : (t.raise f).hostLines = t.hostLines := rfl
@[simp] theorem Thread.raise_repFrom (t : Thread) (f : Fl) : (t.raise f).repFrom = t.repFrom := rfl
@[simp] theorem Thread.raise_late (t : Thread) (f : Fl) : (t.raise f).late = t.late := rfl
@[simp] theorem Thread.raise_gbarAt (t : Thread) (f : Fl) : (t.raise f).gbarAt = t.gbarAt := rfl

/-! ## Reads after writes -/

@[simp] theorem State.thread_putT_same (s : State) (k : Nat) (x : Thread) : (s.putT k x).thread k = some x := by
  simp [State.thread, State.putT]
theorem State.thread_putT_other (s : State) {k j : Nat} (x : Thread) (h : j ≠ k) : (s.putT k x).thread j = s.thread j := by
  simp [State.thread, State.putT, tfind_tput_other _ _ h]
@[simp] theorem State.cast_putT (s : State) (k j : Nat) (x : Thread) : (s.putT k x).cast j = s.cast j := rfl
@[simp] theorem State.gal_putT (s : State) (k j : Nat) (x : Thread) : (s.putT k x).gal j = s.gal j := rfl
@[simp] theorem State.core_putT (s : State) (k j : Nat) (x : Thread) : (s.putT k x).core j = s.core j := rfl
@[simp] theorem State.cast_putC_same (s : State) (k : Nat) (x : Cast) : (s.putC k x).cast k = some x := by
  simp [State.cast, State.putC]
theorem State.cast_putC_other (s : State) {k j : Nat} (x : Cast) (h : j ≠ k) : (s.putC k x).cast j = s.cast j := by
  simp [State.cast, State.putC, tfind_tput_other _ _ h]
@[simp] theorem State.thread_putC (s : State) (k j : Nat) (x : Cast) : (s.putC k x).thread j = s.thread j := rfl
@[simp] theorem State.gal_putG_same (s : State) (k : Nat) (x : Gallery) : (s.putG k x).gal k = some x := by
  simp [State.gal, State.putG]
theorem State.gal_putG_other (s : State) {k j : Nat} (x : Gallery) (h : j ≠ k) : (s.putG k x).gal j = s.gal j := by
  simp [State.gal, State.putG, tfind_tput_other _ _ h]
@[simp] theorem State.thread_putG (s : State) (k j : Nat) (x : Gallery) : (s.putG k x).thread j = s.thread j := rfl
@[simp] theorem State.cast_putG (s : State) (k j : Nat) (x : Gallery) : (s.putG k x).cast j = s.cast j := rfl
@[simp] theorem State.core_putCore_same (s : State) (k : Nat) (x : Core) : (s.putCore k x).core k = x := by
  simp [State.core, State.putCore]
theorem State.core_putCore_other (s : State) {k j : Nat} (x : Core) (h : j ≠ k) : (s.putCore k x).core j = s.core j := by
  simp [State.core, State.putCore, tget_tset_other _ _ _ h]
@[simp] theorem State.thread_putCore (s : State) (k j : Nat) (x : Core) : (s.putCore k x).thread j = s.thread j := rfl
@[simp] theorem State.cluster_putCluster_same (s : State) (k : Nat) (x : Cluster) : (s.putCluster k x).cluster k = x := by
  simp [State.cluster, State.putCluster]
theorem State.cluster_putCluster_other (s : State) {k j : Nat} (x : Cluster) (h : j ≠ k) :
    (s.putCluster k x).cluster j = s.cluster j := by
  simp [State.cluster, State.putCluster, tget_tset_other _ _ _ h]
@[simp] theorem State.tile_putTile_same (s : State) (k : Nat) (x : Tile) : (s.putTile k x).tile k = x := by
  simp [State.tile, State.putTile]
theorem State.tile_putTile_other (s : State) {k j : Nat} (x : Tile) (h : j ≠ k) : (s.putTile k x).tile j = s.tile j := by
  simp [State.tile, State.putTile, tget_tset_other _ _ _ h]

@[simp] theorem Thread.lane_setLane_same (t : Thread) (n : Nat) (x : Word) : (t.setLane n x).lane n = x := by
  simp [Thread.lane, Thread.setLane]
theorem Thread.lane_setLane_other (t : Thread) {n m : Nat} (x : Word) (h : m ≠ n) : (t.setLane n x).lane m = t.lane m := by
  simp [Thread.lane, Thread.setLane, tget_tset_other _ _ _ h]
@[simp] theorem Thread.uni_setUni_same (t : Thread) (n : Nat) (x : DWord) : (t.setUni n x).uni n = x := by
  simp [Thread.uni, Thread.setUni]
theorem Thread.uni_setUni_other (t : Thread) {n m : Nat} (x : DWord) (h : m ≠ n) : (t.setUni n x).uni m = t.uni m := by
  simp [Thread.uni, Thread.setUni, tget_tset_other _ _ _ h]
@[simp] theorem Thread.uni_putUni_same (t : Thread) (n : Nat) (x : DWord) : (t.putUni n x).uni n = x := by
  simp [Thread.uni, Thread.putUni, Thread.setUni]
theorem Thread.uni_putUni_other (t : Thread) {n m : Nat} (x : DWord) (h : m ≠ n) : (t.putUni n x).uni m = t.uni m := by
  simp [Thread.uni, Thread.putUni, Thread.setUni, tget_tset_other _ _ _ h]
@[simp] theorem Thread.uni_setLane (t : Thread) (n m : Nat) (x : Word) : (t.setLane n x).uni m = t.uni m := rfl
@[simp] theorem Thread.lane_setUni (t : Thread) (n m : Nat) (x : DWord) : (t.setUni n x).lane m = t.lane m := rfl
@[simp] theorem Thread.lane_putUni (t : Thread) (n m : Nat) (x : DWord) : (t.putUni n x).lane m = t.lane m := rfl
@[simp] theorem Thread.lane_raise (t : Thread) (n : Nat) (f : Fl) : (t.raise f).lane n = t.lane n := rfl
@[simp] theorem Thread.uni_raise (t : Thread) (n : Nat) (f : Fl) : (t.raise f).uni n = t.uni n := rfl

/-- Predicate 15 is wired true and a write to it is discarded (R21). -/
@[simp] theorem Thread.pred_true (t : Thread) : t.pred 15 = true := rfl
@[simp] theorem Thread.setPred_true (t : Thread) (b : Bool) : t.setPred 15 b = t := rfl

end Sys2Proof.Machine
end

