-- ==== Sys2Proof/Laws/Ops.lean ====
section
/-! SUPPORT. What the shared operations can do: the checks of R192, the entry of a word, completion, trap entry. -/
namespace Sys2Proof.Machine
open Sys2Proof.Safety

theorem budgetFails_none (c : Cast) (regs : List Nat) (h : InBudget c regs) : budgetFails c regs = none := by
  unfold budgetFails
  rw [List.find?_eq_none]
  intro r hr
  have := h r hr
  split <;> simp_all

theorem hazardOn_none (t : Thread) (regs : List Nat) (h : NoHazard t regs) : t.hazardOn regs = none := by
  unfold Thread.hazardOn
  rw [List.find?_eq_none]
  intro r hr
  have := h r hr
  simp_all

/-- Budget, hazard and breakpoint find nothing for a thread that may execute the word. -/
theorem preChecks_none {s : State} {t : Thread} {c : Cast} {regs : List Nat} (h : Ready s t c regs) :
    preChecks t c (tidOf s.focus) regs = none := by
  simp [preChecks, budgetFails_none c regs h.budget, hazardOn_none t regs h.hazard, h.noBreak]

/-- A word whose checks find nothing has its own effect. -/
theorem issue_run {s : State} {t : Thread} {c : Cast} {pre : Thread → Option TrapInfo} {regs : Thread → List Nat}
    {body : Thread → Cast → Res State} (h : Ready s t c (regs t)) (hp : pre t = none) :
    issue pre regs body s = s.settle s.focus t c (body t c) := by
  simp [issue, h.thread, h.cast, hp, preChecks_none h]

/-- A word whose privilege check fails traps. -/
theorem issue_pre {s : State} {t : Thread} {c : Cast} {pre : Thread → Option TrapInfo} {regs : Thread → List Nat}
    {body : Thread → Cast → Res State} {x : TrapInfo} (ht : s.thread s.focus = some t)
    (hc : s.cast (castOf s.focus) = some c) (hp : pre t = some x) :
    issue pre regs body s = .next (s.trapAt s.focus t c x) := by
  simp [issue, ht, hc, hp]

/-- Going on past a word, for a thread that is not single-stepped. -/
theorem finish_wentOn {s : State} {t : Thread} {c : Cast} {e : Bool} {n : Nat} (h : Unstepped t) :
    s.finish s.focus t c e n = wentOn s t e n := by
  have h' : (t.step && decide (t.priv = .program)) = false := by
    rcases h with h | h <;> simp [h]
  cases e <;> simp [State.finish, State.complete, Thread.advance, wentOn, h']

/-- A completed word leaves a thread that is not single-stepped where it is. -/
theorem complete_putT {s : State} {tk : Nat} {t : Thread} {c : Cast} (h : Unstepped t) :
    s.complete tk t c = s.putT tk t := by
  have h' : (t.step && decide (t.priv = .program)) = false := by
    rcases h with h | h <;> simp [h]
  simp [State.complete, h']

/-- Going on past a word at any thread's key. -/
theorem finish_wentOnAt {s : State} {tk : Nat} {t : Thread} {c : Cast} {e : Bool} {n : Nat} (h : Unstepped t) :
    s.finish tk t c e n = wentOnAt s tk t e n := by
  cases e
  · exact complete_putT (by simpa [Unstepped, Thread.advance] using h)
  · exact complete_putT (by simpa [Unstepped, Thread.advance] using h)

/-- A result that leaves STEP and the privilege leaves the thread unstepped. -/
theorem unstepped_of {t u : Thread} (h : Unstepped t) (hf : u.step = t.step ∧ u.priv = t.priv) : Unstepped u := by
  unfold Unstepped
  rw [hf.1, hf.2]
  exact h

theorem zeroed_keeps (dst : List Nat) (t : Thread) :
    (dst.foldl (fun x n => x.setLane n 0) t).step = t.step ∧ (dst.foldl (fun x n => x.setLane n 0) t).priv = t.priv := by
  induction dst generalizing t with
  | nil => exact ⟨rfl, rfl⟩
  | cons n r ih => exact ih (t.setLane n 0)

/-- A lane word of fixed registers whose result cannot trap. -/
theorem laneWord_run {i : Instr} {e : Bool} {dst : List Nat} {src : Thread → List Nat} {f : Thread → Thread}
    (hi : ∀ s, exec i s = laneWord e (fun _ => dst) src (fun t => .ok (f t)) s)
    (hf : ∀ t, (f t).step = t.step ∧ (f t).priv = t.priv) : LaneWord i e dst src f := by
  intro s t c h
  rw [hi, laneWord, issue_run (t := t) (c := c) (by simpa [laneRegs] using h) rfl]
  by_cases hm : t.masked
  · by_cases hz : t.zeroing
    · simp only [hm, hz, if_true, State.settle, laneResult]
      rw [finish_wentOn (unstepped_of h.noStep (zeroed_keeps dst t))]
    · simp only [hm, if_true, hz, State.settle, laneResult]
      simp [finish_wentOn h.noStep]
  · simp [hm, State.settle, Res.bind, laneResult, finish_wentOn (unstepped_of h.noStep (hf t))]

theorem charge_mayCharge (s : State) (t : Thread) (ss : List Nat) :
    MayCharge s (s.charge t ss).1 t (s.charge t ss).2 ss := by
  unfold MayCharge State.charge
  by_cases h : (ss.any (fun n => (s.lag t).getLsbD n)) = true
  · simp only [h, if_true]
    split
    · rename_i x _
      by_cases hc : Config.freeCharge x.draw <;> simp [hc]
    · by_cases hc : Config.freeCharge s.free <;> simp [hc]
  · simp only [h]
    exact ⟨rfl, rfl⟩

theorem mayCharge_keeps {s s' : State} {t t' : Thread} {ss : List Nat} (h : MayCharge s s' t t' ss) :
    s'.focus = s.focus ∧ t'.step = t.step ∧ t'.priv = t.priv := by
  unfold MayCharge at h
  split at h
  · rcases h with ⟨rfl | rfl, rfl | rfl⟩ <;> exact ⟨rfl, rfl, rfl⟩
  · rcases h with ⟨rfl, rfl⟩
    exact ⟨rfl, rfl, rfl⟩

/-- A uniform word. -/
theorem uniWord_run {i : Instr} {e : Bool} {n : Nat} {regs src : List Nat} {f : Thread → Thread}
    (hi : ∀ s, exec i s = uniWord e n regs src f s) (hf : ∀ t, (f t).step = t.step ∧ (f t).priv = t.priv) :
    UniformWord i e n regs src f := by
  intro s t c h
  have hm := charge_mayCharge s t src
  have hs := mayCharge_keeps hm
  refine ⟨_, _, hm, ?_⟩
  rw [hi, uniWord, issue_run (t := t) (c := c) h rfl]
  simp only [State.settle]
  rw [← hs.1, finish_wentOn (unstepped_of h.noStep ⟨(hf _).1.trans hs.2.1, (hf _).2.trans hs.2.2⟩)]

end Sys2Proof.Machine
end

