-- ==== Sys2Proof/Laws/Access.lean ====
section
/-! SUPPORT. What the accesses of a thread can do: the keys and leases of R302, the accesses of a walk, the guard of a snapshot,
a store, and the checks of an address. -/
namespace Sys2Proof.Machine
open Sys2Proof.Safety

/-! ## Numbers in bytes -/

theorem leBytes_length (n x : Nat) : (leBytes n x).length = n := by
  induction n generalizing x with
  | zero => rfl
  | succ n ih => simp [leBytes, ih]

theorem leNat_leBytes (n x : Nat) : leNat (leBytes n x) = x % 2 ^ (8 * n) := by
  induction n generalizing x with
  | zero => simp [leBytes, leNat, Nat.mod_one]
  | succ n ih =>
    simp only [leBytes, leNat, ih, BitVec.toNat_ofNat]
    rw [show 8 * (n + 1) = 8 + 8 * n by omega, Nat.pow_add, Nat.mod_mul]

theorem leBytes_leNat (bs : List Byte) : leBytes bs.length (leNat bs) = bs := by
  induction bs with
  | nil => rfl
  | cons b t ih =>
    have h1 : (b.toNat + 256 * leNat t) / 256 = leNat t := by have := b.isLt; omega
    have h2 : BitVec.ofNat 8 (b.toNat + 256 * leNat t) = b := by
      apply BitVec.eq_of_toNat_eq
      rw [BitVec.toNat_ofNat]
      have := b.isLt
      omega
    simp only [List.length_cons, leBytes, leNat, h1, h2, ih]

/-- A number stored is read back to its width. -/
theorem numAt_store (m : List Host.Cell) (a n x : Nat) :
    numAt (setBytes m a (leBytes n x)) a n = x % 2 ^ (8 * n) := by
  have h := bytesAt_setBytes (leBytes n x) m a
  rw [leBytes_length] at h
  rw [numAt, h, leNat_leBytes]

theorem byteAt_store_outside (m : List Host.Cell) (a n x b : Nat) (h : Outside b a n) :
    byteAt (setBytes m a (leBytes n x)) b = byteAt m b :=
  byteAt_setBytes_outside _ _ _ _ (by rw [leBytes_length]; exact h)

/-! ## Keys, timestamps and what a vault logs -/

/-- Everything of the machine that the bookkeeping of an access leaves alone. -/
structure KeepsRun (s z : State) : Prop where
  mem : z.mem = s.mem
  threads : z.threads = s.threads
  focus : z.focus = s.focus
  casts : z.casts = s.casts
  prods : z.prods = s.prods
  ops : z.ops = s.ops
  nextOp : z.nextOp = s.nextOp
  tick : z.tick = s.tick
  free : z.free = s.free
  clusters : z.clusters = s.clusters
  tiles : z.tiles = s.tiles
  gals : z.gals = s.gals
  past : z.past = s.past
  bad : z.bad = s.bad
  hostCount : z.hostCount = s.hostCount

theorem KeepsRun.refl (s : State) : KeepsRun s s :=
  ⟨rfl, rfl, rfl, rfl, rfl, rfl, rfl, rfl, rfl, rfl, rfl, rfl, rfl, rfl, rfl⟩

theorem KeepsRun.trans {s z w : State} (a : KeepsRun s z) (b : KeepsRun z w) : KeepsRun s w :=
  ⟨b.mem.trans a.mem, b.threads.trans a.threads, b.focus.trans a.focus, b.casts.trans a.casts, b.prods.trans a.prods,
    b.ops.trans a.ops, b.nextOp.trans a.nextOp, b.tick.trans a.tick, b.free.trans a.free, b.clusters.trans a.clusters,
    b.tiles.trans a.tiles, b.gals.trans a.gals, b.past.trans a.past, b.bad.trans a.bad, b.hostCount.trans a.hostCount⟩

theorem log_keeps (s : State) (c u k g : Nat) (d : DWord) : KeepsRun s (s.log c u k g d) :=
  ⟨rfl, rfl, rfl, rfl, rfl, rfl, rfl, rfl, rfl, rfl, rfl, rfl, rfl, rfl, rfl⟩

theorem logKinds_keeps (ks : List Nat) (s : State) (vault gi : Nat) (d : DWord) : KeepsRun s (s.logKinds vault gi d ks) := by
  induction ks generalizing s with
  | nil => exact .refl s
  | cons k r ih => exact (log_keeps s _ _ _ _ _).trans (ih _)

theorem notePoison_keeps (s : State) (l : Loc) : KeepsRun s (s.notePoison l) := by
  unfold State.notePoison
  repeat' split
  all_goals first | exact logKinds_keeps _ _ _ _ _ | exact .refl s

theorem putPts_keeps (s : State) (k x : Nat) : KeepsRun s (s.putPts k x) := by
  unfold State.putPts
  split <;> exact ⟨rfl, rfl, rfl, rfl, rfl, rfl, rfl, rfl, rfl, rfl, rfl, rfl, rfl, rfl, rfl⟩

theorem issued_keeps (s : State) (x : Tab Nat) : KeepsRun s { s with issued := x } :=
  ⟨rfl, rfl, rfl, rfl, rfl, rfl, rfl, rfl, rfl, rfl, rfl, rfl, rfl, rfl, rfl⟩

/-- The next key of an agent moves its sequence and its timestamp. -/
theorem nextKey_keeps (s : State) (agent T : Nat) : KeepsRun s (s.nextKey agent T).1 :=
  (issued_keeps s _).trans (putPts_keeps _ _ _)

theorem readKey_keeps (s : State) (agent : Nat) (w : Key) : KeepsRun s (s.readKey agent w).1 := by
  unfold State.readKey
  simp only
  split <;> exact nextKey_keeps s _ _

theorem dropCopies_keeps (s : State) (l : Loc) : KeepsRun s (s.dropCopies l) := by
  unfold State.dropCopies
  split
  · exact .refl s
  · exact ⟨rfl, rfl, rfl, rfl, rfl, rfl, rfl, rfl, rfl, rfl, rfl, rfl, rfl, rfl, rfl⟩

theorem homeWrite_keeps (s : State) (l : Loc) (k : Key) : KeepsRun s (s.homeWrite l k) := by
  have h : KeepsRun s ({ s with wts := tset s.wts l.line k Key.zero, rts := tset s.rts l.line k.t 0 } : State) :=
    ⟨rfl, rfl, rfl, rfl, rfl, rfl, rfl, rfl, rfl, rfl, rfl, rfl, rfl, rfl, rfl⟩
  exact h.trans (dropCopies_keeps _ l)

/-- A read at a home moves keys, timestamps and leases alone. -/
theorem noteRead_keeps (s : State) (agent : Nat) (l : Loc) : KeepsRun s (s.noteRead agent l).1 := by
  have h : KeepsRun s ({ (s.readKey agent (s.lineWts l.line)).1 with
      rts := tset (s.readKey agent (s.lineWts l.line)).1.rts l.line
        (Nat.max (Nat.max (s.lineRts l.line) (s.pts agent + s.lease agent l)) (s.readKey agent (s.lineWts l.line)).2.t)
        0 } : State) :=
    (readKey_keeps s _ _).trans ⟨rfl, rfl, rfl, rfl, rfl, rfl, rfl, rfl, rfl, rfl, rfl, rfl, rfl, rfl, rfl⟩
  cases l
  case weights => exact .refl s
  case scratch => exact nextKey_keeps s _ _
  all_goals exact h

/-- So does a write at a home. -/
theorem noteWrite_keeps (s : State) (agent : Nat) (l : Loc) : KeepsRun s (s.noteWrite agent l).1 := by
  have h := (nextKey_keeps s agent (s.lineRts l.line + 1)).trans
    (homeWrite_keeps _ l (s.nextKey agent (s.lineRts l.line + 1)).2)
  cases l
  case weights => exact .refl s
  case scratch => exact nextKey_keeps s _ _
  all_goals exact h

theorem keepCopy_keeps (s : State) (agent : Nat) (l : Loc) : KeepsRun s (s.keepCopy agent l) := by
  unfold State.keepCopy
  split
  · split
    · exact ⟨rfl, rfl, rfl, rfl, rfl, rfl, rfl, rfl, rfl, rfl, rfl, rfl, rfl, rfl, rfl⟩
    · exact .refl s
  · exact .refl s

/-- A read leaves memory and everything that runs as they were, whether it finds a copy or goes to the line's home. -/
theorem get_keeps (s : State) (agent : Nat) (l : Loc) (n : Nat) :
    (s.get agent l n).s.mem = s.mem ∧ (s.get agent l n).s.threads = s.threads ∧ (s.get agent l n).s.focus = s.focus ∧
      (s.get agent l n).s.casts = s.casts ∧ (s.get agent l n).s.prods = s.prods ∧ (s.get agent l n).s.gals = s.gals ∧
      (s.get agent l n).s.past = s.past ∧ (s.get agent l n).s.bad = s.bad := by
  have home (z : State) : KeepsRun z (((z.noteRead agent l).1.keepCopy agent l).notePoison l) :=
    (noteRead_keeps z agent l).trans ((keepCopy_keeps _ _ _).trans (notePoison_keeps _ _))
  unfold State.get
  split
  · rename_i c _
    split
    · have h := readKey_keeps { s with free := s.free + 1 } agent c.wts
      exact ⟨h.mem, h.threads, h.focus, h.casts, h.prods, h.gals, h.past, h.bad⟩
    · have h := home { s with free := s.free + 1 }
      exact ⟨h.mem, h.threads, h.focus, h.casts, h.prods, h.gals, h.past, h.bad⟩
  · have h := home s
    exact ⟨h.mem, h.threads, h.focus, h.casts, h.prods, h.gals, h.past, h.bad⟩

/-! ## What a write leaves -/

/-- Everything of the machine that a write at one place leaves alone. -/
structure KeepsAll (s z : State) : Prop where
  threads : z.threads = s.threads
  focus : z.focus = s.focus
  casts : z.casts = s.casts
  prods : z.prods = s.prods
  ops : z.ops = s.ops
  nextOp : z.nextOp = s.nextOp
  tick : z.tick = s.tick
  free : z.free = s.free
  clusters : z.clusters = s.clusters
  tiles : z.tiles = s.tiles
  bad : z.bad = s.bad
  hostCount : z.hostCount = s.hostCount

theorem KeepsRun.all {s z : State} (h : KeepsRun s z) : KeepsAll s z :=
  ⟨h.threads, h.focus, h.casts, h.prods, h.ops, h.nextOp, h.tick, h.free, h.clusters, h.tiles, h.bad, h.hostCount⟩

theorem KeepsAll.trans {s z w : State} (a : KeepsAll s z) (b : KeepsAll z w) : KeepsAll s w :=
  ⟨b.threads.trans a.threads, b.focus.trans a.focus, b.casts.trans a.casts, b.prods.trans a.prods, b.ops.trans a.ops,
    b.nextOp.trans a.nextOp, b.tick.trans a.tick, b.free.trans a.free, b.clusters.trans a.clusters,
    b.tiles.trans a.tiles, b.bad.trans a.bad, b.hostCount.trans a.hostCount⟩

/-- Bytes put at a place are stored there, and nothing else of memory or of a thread moves. -/
theorem put_mem (s : State) (agent : Nat) (l : Loc) (bs : List Byte) :
    (s.put agent l bs).1.mem = setBytes s.mem l.cell bs := by
  show setBytes (s.noteWrite agent l).1.mem l.cell bs = _
  rw [(noteWrite_keeps s agent l).mem]

theorem put_keeps (s : State) (agent : Nat) (l : Loc) (bs : List Byte) : KeepsAll s (s.put agent l bs).1 :=
  (noteWrite_keeps s agent l).all.trans ⟨rfl, rfl, rfl, rfl, rfl, rfl, rfl, rfl, rfl, rfl, rfl, rfl⟩

theorem put_gals (s : State) (agent : Nat) (l : Loc) (bs : List Byte) : (s.put agent l bs).1.gals = s.gals :=
  (noteWrite_keeps s agent l).gals

/-! ## The accesses of a walk -/

theorem walkReads_keeps (as : List Nat) (s : State) (agent gi : Nat) : KeepsRun s (s.walkReads agent gi as) := by
  induction as generalizing s with
  | nil => exact .refl s
  | cons a r ih => exact ((noteRead_keeps s agent _).trans (notePoison_keeps _ _)).trans (ih _)

/-- The leases of a walk move no more than leases. -/
theorem leaseWalk_keeps (s : State) (agent gi : Nat) (x : Xlat) : KeepsRun s (s.leaseWalk agent gi x) :=
  ⟨rfl, rfl, rfl, rfl, rfl, rfl, rfl, rfl, rfl, rfl, rfl, rfl, rfl, rfl, rfl⟩

/-- The marks of a leaf: its entry is written at one place, or nothing is. -/
theorem markLeaf_keeps (s : State) (agent gi : Nat) (x : Xlat) (k : Acc) :
    KeepsAll s (s.markLeaf agent gi x k) ∧ (s.markLeaf agent gi x k).gals = s.gals ∧
      ((s.markLeaf agent gi x k).mem = s.mem ∨
        ∃ e, (s.markLeaf agent gi x k).mem = setBytes s.mem (Loc.dram gi x.ea).cell (leBytes 8 e)) := by
  have h (e f : Nat) : KeepsAll s (if f = e then s else (s.put agent (.dram gi x.ea) (leBytes 8 f)).1) ∧
      (if f = e then s else (s.put agent (.dram gi x.ea) (leBytes 8 f)).1).gals = s.gals ∧
      ((if f = e then s else (s.put agent (.dram gi x.ea) (leBytes 8 f)).1).mem = s.mem ∨
        ∃ y, (if f = e then s else (s.put agent (.dram gi x.ea) (leBytes 8 f)).1).mem =
          setBytes s.mem (Loc.dram gi x.ea).cell (leBytes 8 y)) := by
    split
    · exact ⟨(KeepsRun.refl s).all, rfl, .inl rfl⟩
    · exact ⟨put_keeps _ _ _ _, put_gals _ _ _ _, .inr ⟨_, put_mem _ _ _ _⟩⟩
  exact h _ _

/-- The accesses of a walk write at most the leaf's entry. -/
theorem walked_keeps (s : State) (agent gi : Nat) (x : Xlat) (k : Acc) :
    KeepsAll s (s.walked agent gi x k) ∧ (s.walked agent gi x k).gals = s.gals ∧
      ((s.walked agent gi x k).mem = s.mem ∨
        ∃ e, (s.walked agent gi x k).mem = setBytes s.mem (Loc.dram gi x.ea).cell (leBytes 8 e)) := by
  have h := walkReads_keeps x.trail s agent gi
  have m := markLeaf_keeps (s.walkReads agent gi x.trail) agent gi x k
  have w := leaseWalk_keeps ((s.walkReads agent gi x.trail).markLeaf agent gi x k) agent gi x
  refine ⟨(h.all.trans m.1).trans w.all, w.gals.trans (m.2.1.trans h.gals), ?_⟩
  rcases m.2.2 with e | ⟨e, e'⟩
  · exact .inl (w.mem.trans (e.trans h.mem))
  · exact .inr ⟨e, by rw [← h.mem]; exact w.mem.trans e'⟩

theorem wf_walked (s : State) (agent gi : Nat) (x : Xlat) (k : Acc) (h : Memory.wf s.mem = true) :
    Memory.wf (s.walked agent gi x k).mem = true := by
  rcases (walked_keeps s agent gi x k).2.2 with e | ⟨e, e'⟩
  · rw [e]; exact h
  · rw [e']; exact wf_setBytes _ _ _ h

/-! ## A store -/

/-- The guard goes on with the machine as it was, but for the line that it copies to a snapshot's reserve. -/
theorem snapGuard_keeps {s z : State} {l : Loc} (h : s.snapGuard l = .ok z) :
    KeepsAll s z ∧ z.mem = s.mem := by
  unfold State.snapGuard at h
  repeat' split at h
  all_goals (cases h)
  all_goals exact ⟨⟨rfl, rfl, rfl, rfl, rfl, rfl, rfl, rfl, rfl, rfl, rfl, rfl⟩, rfl⟩

/-- The guard goes on, or holds the writer at a full reserve. -/
theorem snapGuard_answers (s : State) (l : Loc) : (∃ z, s.snapGuard l = .ok z) ∨ s.snapGuard l = .hold .snapshot := by
  unfold State.snapGuard
  repeat' split
  all_goals first | exact .inl ⟨_, rfl⟩ | exact .inr rfl

/-- A store that its guard lets go on: n bytes of the number at the place, and nothing else of memory or of a thread. -/
theorem store_ok {s z : State} {agent : Nat} {l : Loc} {n x : Nat} (h : s.snapGuard l = .ok z) :
    ∃ y, s.store agent l n x = .ok y ∧ y.1.mem = setBytes s.mem l.cell (leBytes n x) ∧ KeepsAll s y.1 := by
  have hk := snapGuard_keeps h
  refine ⟨_, by rw [State.store, h]; rfl, ?_, hk.1.trans (put_keeps _ _ _ _)⟩
  rw [put_mem, hk.2]

/-- A store goes on or holds its thread. -/
theorem store_answers (s : State) (agent : Nat) (l : Loc) (n x : Nat) :
    (∃ z, s.store agent l n x = .ok z ∧ ∃ y, s.snapGuard l = .ok y) ∨ s.store agent l n x = .hold .snapshot := by
  rcases snapGuard_answers s l with ⟨z, h⟩ | h
  · exact .inl ⟨_, by rw [State.store, h]; rfl, z, h⟩
  · exact .inr (by rw [State.store, h]; rfl)

/-! ## The checks of an address -/

/-- A place that the checks find: the machine is as it was, but for the walk of a global address. -/
theorem locate_ok {s z : State} {t : Thread} {c : Cast} {ck : Nat} {sp : Space} {a : DWord} {n : Nat} {k : Acc} {l : Loc}
    (h : s.locate t c ck sp a n k = .ok (z, l)) : z = s ∨
      (sp = .global ∧ ∃ g x, s.gal c.gallery = some g ∧ translate s.readable c.gallery g a t.priv k = .ok x ∧ l = x.loc ∧
        z = s.walked c.agent c.gallery x k) := by
  unfold State.locate at h
  split at h
  · cases h
  · split at h
    · cases h
    · rename_i g hg
      split at h
      · split at h <;> cases h
        exact .inl rfl
      · split at h <;> cases h
        exact .inl rfl
      · split at h
        · split at h <;> cases h
        · cases h
        · rename_i x hx
          cases h
          exact .inr ⟨rfl, g, x, hg, hx, rfl, rfl⟩

/-- The checks of an address leave everything but memory, and the gallery records, as they were. -/
theorem locate_keeps {s z : State} {t : Thread} {c : Cast} {ck : Nat} {sp : Space} {a : DWord} {n : Nat} {k : Acc} {l : Loc}
    (h : s.locate t c ck sp a n k = .ok (z, l)) : KeepsAll s z ∧ z.gals = s.gals := by
  rcases locate_ok h with e | ⟨_, g, x, _, _, _, e⟩
  · subst e
    exact ⟨(KeepsRun.refl z).all, rfl⟩
  · subst e
    exact ⟨(walked_keeps _ _ _ _ _).1, (walked_keeps _ _ _ _ _).2.1⟩

/-- A checked access is a located one. -/
theorem checked_ok {s : State} {t : Thread} {c : Cast} {tk : Nat} {sp : Space} {a : DWord} {n : Nat} {k : Acc}
    {p : State × Loc} (h : s.checked t c tk sp a n k = .ok p) : s.locate t c (castOf tk) sp a n k = .ok p := by
  unfold State.checked at h
  cases hl : s.locate t c (castOf tk) sp a n k with
  | ok q =>
    rw [hl] at h
    simp only [Res.bind] at h
    split at h
    · cases h
    · exact h
  | _ => rw [hl] at h; cases h

/-- Where an address lies is a place, a trap, a trap of a walk that met a line with errors, or nowhere. -/
theorem locate_answers (s : State) (t : Thread) (c : Cast) (ck : Nat) (sp : Space) (a : DWord) (n : Nat) (k : Acc) :
    (∃ p, s.locate t c ck sp a n k = .ok p) ∨ (∃ x, s.locate t c ck sp a n k = .trap x) ∨
      (∃ x, s.locate t c ck sp a n k = .late (s.noteWalk c.gallery a) t x) ∨
      s.locate t c ck sp a n k = .fault .noSuchAddress := by
  unfold State.locate
  repeat' split
  all_goals first | exact .inl ⟨_, rfl⟩ | exact .inr (.inl ⟨_, rfl⟩) | exact .inr (.inr (.inl ⟨_, rfl⟩)) |
    exact .inr (.inr (.inr rfl))

/-- The checks answer with a place, a trap, or an address that nothing holds. -/
theorem checked_answers (s : State) (t : Thread) (c : Cast) (tk : Nat) (sp : Space) (a : DWord) (n : Nat) (k : Acc) :
    (∃ p, s.checked t c tk sp a n k = .ok p) ∨ (∃ x, s.checked t c tk sp a n k = .trap x) ∨
      (∃ x, s.checked t c tk sp a n k = .late (s.noteWalk c.gallery a) t x) ∨
      s.checked t c tk sp a n k = .fault .noSuchAddress := by
  unfold State.checked
  rcases locate_answers s t c (castOf tk) sp a n k with ⟨p, h⟩ | ⟨x, h⟩ | ⟨x, h⟩ | h
  · rw [h]
    simp only [Res.bind]
    split
    · exact .inr (.inl ⟨_, rfl⟩)
    · exact .inl ⟨_, rfl⟩
  · exact .inr (.inl ⟨x, by rw [h]; rfl⟩)
  · exact .inr (.inr (.inl ⟨x, by rw [h]; rfl⟩))
  · exact .inr (.inr (.inr (by rw [h]; rfl)))

end Sys2Proof.Machine
end

