-- ==== Sys2Proof/Laws/PerInstr.lean ====
section
/-! SUPPORT. What is shown of each instruction by itself: the words that encode a well-formed instruction decode to it. The
word's fields are read back by two facts about packed numbers. -/
namespace Sys2Proof.Laws
/-- A field that lies apart from the one added is unchanged. -/
theorem fld_add_apart (a x lo n lo' n' : Nat) (hx : x < 2 ^ n) (ha : fld a lo n = 0)
    (h : lo' + n' ≤ lo ∨ lo + n ≤ lo') : fld (a + x * 2 ^ lo) lo' n' = fld a lo' n' := by
  unfold fld at *
  rcases h with h | h
  · obtain ⟨k, rfl⟩ := Nat.exists_eq_add_of_le h
    have : x * 2 ^ (lo' + n' + k) = 2 ^ lo' * (2 ^ n' * (x * 2 ^ k)) := by rw [Nat.pow_add, Nat.pow_add]; ac_rfl
    rw [this, Nat.add_mul_div_left _ _ (Nat.two_pow_pos lo'), Nat.add_mul_mod_self_left]
  · obtain ⟨k, rfl⟩ := Nat.exists_eq_add_of_le h
    have e : ∀ y, y / 2 ^ (lo + n + k) = y / 2 ^ lo / 2 ^ n / 2 ^ k := by
      intro y; rw [Nat.pow_add, Nat.pow_add, Nat.div_div_eq_div_mul, Nat.div_div_eq_div_mul, Nat.mul_assoc]
    rw [e, e, Nat.add_mul_div_right _ _ (Nat.two_pow_pos lo)]
    congr 2
    have := Nat.div_add_mod (a / 2 ^ lo) (2 ^ n)
    rw [ha, Nat.add_zero] at this
    rw [← this, Nat.add_comm, Nat.add_mul_div_left _ _ (Nat.two_pow_pos n), Nat.div_eq_of_lt hx, Nat.zero_add,
      Nat.mul_div_cancel_left _ (Nat.two_pow_pos n)]
/-- The field added is read back. -/
theorem fld_add_self (a x lo n : Nat) (hx : x < 2 ^ n) (ha : fld a lo n = 0) : fld (a + x * 2 ^ lo) lo n = x := by
  unfold fld at *
  rw [Nat.add_mul_div_right _ _ (Nat.two_pow_pos lo), Nat.add_mod, ha, Nat.zero_add, Nat.mod_mod, Nat.mod_eq_of_lt hx]

/-- Two fields, each a lowest bit and a width, share no bit. -/
def apart (f g : Nat × Nat) : Bool := decide (f.1 + f.2 ≤ g.1) || decide (g.1 + g.2 ≤ f.1)

/-- Fields lie apart from each other and where the fixed bits are 0. -/
def layout (b : Nat) : List (Nat × Nat) → Bool
  | [] => true
  | f :: r => fld b f.1 f.2 == 0 && r.all (apart f) && layout b r

theorem apart_or {f g : Nat × Nat} (h : apart f g = true) : f.1 + f.2 ≤ g.1 ∨ g.1 + g.2 ≤ f.1 := by
  simpa [apart] using h

theorem layout_step {b x : Nat} {f : Nat × Nat} {r : List (Nat × Nat)} (hx : x < 2 ^ f.2) (h : fld b f.1 f.2 = 0)
    (ha : r.all (apart f) = true) (hl : layout b r = true) : layout (b + x * 2 ^ f.1) r = true := by
  induction r with
  | nil => rfl
  | cons g r ih =>
    simp only [List.all_cons, Bool.and_eq_true, layout, beq_iff_eq] at *
    refine ⟨⟨?_, hl.1.2⟩, ih ha.2 hl.2⟩
    rw [fld_add_apart b x f.1 f.2 g.1 g.2 hx h (apart_or ha.1).symm, hl.1.1]

/-- What a packed word holds: each field its value, and the fixed bits elsewhere. -/
theorem pack_fields (b : Nat) (fs : List (Nat × Nat × Nat)) (hx : ∀ f ∈ fs, f.1 < 2 ^ f.2.2)
    (hl : layout b (fs.map (·.2)) = true) :
    (∀ f ∈ fs, fld (pack b (fs.map (fun f => (f.1, f.2.1)))) f.2.1 f.2.2 = f.1) ∧
    (∀ g : Nat × Nat, (fs.map (·.2)).all (fun f => apart f g) = true →
      fld (pack b (fs.map (fun f => (f.1, f.2.1)))) g.1 g.2 = fld b g.1 g.2) := by
  induction fs generalizing b with
  | nil => exact ⟨by simp, fun _ _ => rfl⟩
  | cons f r ih =>
    simp only [List.map_cons, layout, Bool.and_eq_true, beq_iff_eq] at hl
    have h1 := hx f (List.mem_cons_self ..)
    have := ih (b + f.1 * 2 ^ f.2.1) (fun g hg => hx g (List.mem_cons_of_mem _ hg)) (layout_step h1 hl.1.1 hl.1.2 hl.2)
    simp only [List.map_cons, pack, List.all_cons, Bool.and_eq_true]
    refine ⟨?_, fun g hg => ?_⟩
    · intro g hg
      rcases List.mem_cons.1 hg with rfl | hg
      · rw [this.2 g.2 (List.all_eq_true.2 fun q hq => by
          have := List.all_eq_true.1 hl.1.2 q hq
          simpa [apart, or_comm] using this)]
        exact fld_add_self _ _ _ _ h1 hl.1.1
      · exact this.1 g hg
    · rw [this.2 g hg.2]
      exact fld_add_apart _ _ _ _ _ _ h1 hl.1.1 (apart_or hg.1).symm

theorem fld_mod (x lo n : Nat) (h : lo + n ≤ 32) : fld (x % 2 ^ 32) lo n = fld x lo n := by
  obtain ⟨k, hk⟩ := Nat.exists_eq_add_of_le h
  unfold fld
  rw [hk, Nat.pow_add, Nat.pow_add, Nat.mul_assoc, Nat.mod_mul_right_div_self, Nat.mod_mul_right_mod]

theorem bv_of_fld {w lo n : Nat} {d : BitVec n} (h : fld w lo n = d.toNat) : bv w lo n = d := by
  apply BitVec.eq_of_toNat_eq
  rw [← h, bv, BitVec.toNat_ofNat, fld]

theorem bit_of_fld {w : Nat} {lo : Nat} {e : Bool} (h : fld w lo 1 = e.toNat) : bit w lo = e := by
  unfold fld at h
  rw [bit, ← Nat.pow_one 2, h]
  cases e <;> rfl

theorem accept_ok {i : Instr} (h : i.wf = true) : accept 0 i = .ok i := by simp [accept, h]

/-- The words of the instruction decode to it; the first of two words, and no other, is MOVL's. -/
def Encode.Statement (i : Instr) : Prop := i.wf = true → i.isWord = true →
  (∃ w, encode i = [w] ∧ isMovlWord w.toNat = false ∧ decodeWord w.toNat 0 = .ok i) ∨
  (∃ w v, encode i = [w, v] ∧ isMovlWord w.toNat = true ∧ decodeWord w.toNat v.toNat = .ok i)

/-- Every field is below 2^width. -/
def Small : List (Nat × Nat × Nat) → Prop
  | [] => True
  | f :: r => f.1 < 2 ^ f.2.2 ∧ Small r
/-- Every field reads its value in w. -/
def Reads (w : Nat) : List (Nat × Nat × Nat) → Prop
  | [] => True
  | f :: r => fld w f.2.1 f.2.2 = f.1 ∧ Reads w r

theorem Small.all {fs : List (Nat × Nat × Nat)} (h : Small fs) : ∀ f ∈ fs, f.1 < 2 ^ f.2.2 := by
  induction fs with
  | nil => simp
  | cons f r ih => exact List.forall_mem_cons.2 ⟨h.1, ih h.2⟩
theorem Reads.of_all {w : Nat} {fs : List (Nat × Nat × Nat)} (h : ∀ f ∈ fs, fld w f.2.1 f.2.2 = f.1) : Reads w fs := by
  induction fs with
  | nil => trivial
  | cons f r ih => exact ⟨(List.forall_mem_cons.1 h).1, ih (List.forall_mem_cons.1 h).2⟩

/-- What is known of the number w of a packed word: its fields, and its fixed bits. -/
theorem word_fields (b : Nat) (fs : List (Nat × Nat × Nat)) (ls : List (Nat × Nat)) (hs : fs.map (·.2) = ls)
    (hx : Small fs) (hl : (layout b ls && ls.all (fun f => decide (f.1 + f.2 ≤ 32))) = true) :
    Reads (wordOf (pack b (fs.map (fun f => (f.1, f.2.1))))).toNat fs ∧
    (∀ lo n : Nat, (decide (lo + n ≤ 32) && ls.all (fun f => apart f (lo, n))) = true →
      fld (wordOf (pack b (fs.map (fun f => (f.1, f.2.1))))).toNat lo n = fld b lo n) := by
  subst hs
  simp only [Bool.and_eq_true, List.all_map] at hl
  have ⟨F, A⟩ := pack_fields b fs hx.all hl.1
  refine ⟨Reads.of_all fun f hf => ?_, fun lo n h => ?_⟩
  · rw [wordOf, BitVec.toNat_ofNat, fld_mod _ _ _ (by simpa using List.all_eq_true.1 hl.2 f hf)]
    exact F f hf
  · simp only [Bool.and_eq_true, decide_eq_true_eq] at h
    rw [wordOf, BitVec.toNat_ofNat, fld_mod _ _ _ h.1]
    exact A (lo, n) h.2

/-- A word of the lane set. -/
theorem encode_ofLane {i : Instr} (b : Nat) (fs : List (Nat × Nat × Nat)) (ls : List (Nat × Nat)) (hs : fs.map (·.2) = ls)
    (he : encode i = [wordOf (pack b (fs.map (fun f => (f.1, f.2.1))))]) (hx : Small fs)
    (hl : (layout b ls && ls.all (fun f => decide (f.1 + f.2 ≤ 32)) && (ls.all (fun f => apart f (31, 1)) &&
      fld b 31 1 == 0)) = true)
    (hd : i.wf = true → ∀ w, Reads w fs →
      (∀ lo n : Nat, (decide (lo + n ≤ 32) && ls.all (fun f => apart f (lo, n))) = true → fld w lo n = fld b lo n) →
      decodeLane w = .ok i) : Encode.Statement i := by
  intro h _
  rw [Bool.and_eq_true, Bool.and_eq_true (ls.all _) _, beq_iff_eq] at hl
  have ⟨F, A⟩ := word_fields b fs ls hs hx hl.1
  have h31 := (A 31 1 (by simpa using hl.2.1)).trans hl.2.2
  refine .inl ⟨_, he, ?_, ?_⟩
  · rw [isMovlWord, h31]; rfl
  · rw [decodeWord, if_pos h31]; exact hd h _ F A

/-- A word of the uniform set that stands alone, or the first of two. -/
theorem encode_ofUniform {i : Instr} (b : Nat) (fs : List (Nat × Nat × Nat)) (ls : List (Nat × Nat))
    (hs : fs.map (·.2) = ls) (two : Option Word)
    (he : encode i = wordOf (pack b (fs.map (fun f => (f.1, f.2.1)))) :: two.toList) (hx : Small fs)
    (hl : (layout b ls && ls.all (fun f => decide (f.1 + f.2 ≤ 32)) && (ls.all (fun f => apart f (31, 1)) &&
      (fld b 31 1 == 1 && (ls.all (fun f => apart f (24, 6)) && (fld b 24 6 == 0x3F) == two.isSome)))) = true)
    (hd : i.wf = true → ∀ w, Reads w fs →
      (∀ lo n : Nat, (decide (lo + n ≤ 32) && ls.all (fun f => apart f (lo, n))) = true → fld w lo n = fld b lo n) →
      decodeUniform w (match two with
        | none => 0
        | some v => v.toNat) = .ok i) : Encode.Statement i := by
  intro h _
  rw [Bool.and_eq_true, Bool.and_eq_true (ls.all _) _, Bool.and_eq_true (_ == 1) _, Bool.and_eq_true (ls.all _) _,
    beq_iff_eq, beq_iff_eq] at hl
  have ⟨F, A⟩ := word_fields b fs ls hs hx hl.1
  have h31 := (A 31 1 (by simpa using hl.2.1)).trans hl.2.2.1
  have h24 := A 24 6 (by simpa using hl.2.2.2.1)
  have hm := hl.2.2.2.2
  have d := hd h _ F A
  have n0 : ¬ fld (wordOf (pack b (fs.map (fun f => (f.1, f.2.1))))).toNat 31 1 = 0 := by rw [h31]; decide
  cases two with
  | none => exact .inl ⟨_, he, by rw [isMovlWord, h31, h24]; simpa using hm, by rw [decodeWord, if_neg n0]; exact d⟩
  | some v => exact .inr ⟨_, v, he, by rw [isMovlWord, h31, h24]; simpa using hm, by rw [decodeWord, if_neg n0]; exact d⟩

theorem acceptEnd_ok {w : Nat} {i : Instr} (hb : bit w 30 = true) (h : i.wf = true) : acceptEnd w 0 i = .ok i := by
  rw [acceptEnd, if_pos hb, accept_ok h]
theorem acceptMid_ok {w : Nat} {i : Instr} (hb : bit w 30 = false) (h : i.wf = true) : acceptMid w 0 i = .ok i := by
  rw [acceptMid, hb, if_neg (by decide), accept_ok h]

theorem Encode.scene (x_w : BitVec 12) (a b : BitVec 4) (l : BitVec 1) : Encode.Statement (.scene x_w a b l) :=
  encode_ofUniform 0x80000000 [(x_w.toNat, 12, 12), (a.toNat, 8, 4), (b.toNat, 4, 4), (l.toNat, 3, 1)]
    [(12, 12), (8, 4), (4, 4), (3, 1)] rfl none rfl ⟨x_w.isLt, a.isLt, b.isLt, l.isLt, trivial⟩ rfl fun h w ⟨f0, f1, f2, f3, _⟩ A => by
    rw [decodeUniform, A 24 6 rfl, A 0 3 rfl, bv_of_fld f0, bv_of_fld f1, bv_of_fld f2, bv_of_fld f3]
    exact acceptMid_ok (bit_of_fld (A 30 1 rfl)) h
theorem Encode.add (e : Bool) (d a b : BitVec 6) : Encode.Statement (.add e d a b) :=
  encode_ofLane 0x1000000 [(e.toNat, 30, 1), (d.toNat, 18, 6), (a.toNat, 12, 6), (b.toNat, 6, 6)]
    [(30, 1), (18, 6), (12, 6), (6, 6)] rfl rfl ⟨e.toNat_lt, d.isLt, a.isLt, b.isLt, trivial⟩ rfl fun h w ⟨f0, f1, f2, f3, _⟩ A => by
    rw [decodeLane, A 24 6 rfl, A 0 6 rfl, bit_of_fld f0, bv_of_fld f1, bv_of_fld f2, bv_of_fld f3]
    exact accept_ok h
theorem Encode.sub (e : Bool) (d a b : BitVec 6) : Encode.Statement (.sub e d a b) :=
  encode_ofLane 0x1000001 [(e.toNat, 30, 1), (d.toNat, 18, 6), (a.toNat, 12, 6), (b.toNat, 6, 6)]
    [(30, 1), (18, 6), (12, 6), (6, 6)] rfl rfl ⟨e.toNat_lt, d.isLt, a.isLt, b.isLt, trivial⟩ rfl fun h w ⟨f0, f1, f2, f3, _⟩ A => by
    rw [decodeLane, A 24 6 rfl, A 0 6 rfl, bit_of_fld f0, bv_of_fld f1, bv_of_fld f2, bv_of_fld f3]
    exact accept_ok h
theorem Encode.addc (e : Bool) (d a b : BitVec 6) : Encode.Statement (.addc e d a b) :=
  encode_ofLane 0x1000002 [(e.toNat, 30, 1), (d.toNat, 18, 6), (a.toNat, 12, 6), (b.toNat, 6, 6)]
    [(30, 1), (18, 6), (12, 6), (6, 6)] rfl rfl ⟨e.toNat_lt, d.isLt, a.isLt, b.isLt, trivial⟩ rfl fun h w ⟨f0, f1, f2, f3, _⟩ A => by
    rw [decodeLane, A 24 6 rfl, A 0 6 rfl, bit_of_fld f0, bv_of_fld f1, bv_of_fld f2, bv_of_fld f3]
    exact accept_ok h
theorem Encode.subb (e : Bool) (d a b : BitVec 6) : Encode.Statement (.subb e d a b) :=
  encode_ofLane 0x1000003 [(e.toNat, 30, 1), (d.toNat, 18, 6), (a.toNat, 12, 6), (b.toNat, 6, 6)]
    [(30, 1), (18, 6), (12, 6), (6, 6)] rfl rfl ⟨e.toNat_lt, d.isLt, a.isLt, b.isLt, trivial⟩ rfl fun h w ⟨f0, f1, f2, f3, _⟩ A => by
    rw [decodeLane, A 24 6 rfl, A 0 6 rfl, bit_of_fld f0, bv_of_fld f1, bv_of_fld f2, bv_of_fld f3]
    exact accept_ok h
theorem Encode.add64 (e : Bool) (d a b : BitVec 6) : Encode.Statement (.add64 e d a b) :=
  encode_ofLane 0x1000004 [(e.toNat, 30, 1), (d.toNat, 18, 6), (a.toNat, 12, 6), (b.toNat, 6, 6)]
    [(30, 1), (18, 6), (12, 6), (6, 6)] rfl rfl ⟨e.toNat_lt, d.isLt, a.isLt, b.isLt, trivial⟩ rfl fun h w ⟨f0, f1, f2, f3, _⟩ A => by
    rw [decodeLane, A 24 6 rfl, A 0 6 rfl, bit_of_fld f0, bv_of_fld f1, bv_of_fld f2, bv_of_fld f3]
    exact accept_ok h
theorem Encode.sub64 (e : Bool) (d a b : BitVec 6) : Encode.Statement (.sub64 e d a b) :=
  encode_ofLane 0x1000005 [(e.toNat, 30, 1), (d.toNat, 18, 6), (a.toNat, 12, 6), (b.toNat, 6, 6)]
    [(30, 1), (18, 6), (12, 6), (6, 6)] rfl rfl ⟨e.toNat_lt, d.isLt, a.isLt, b.isLt, trivial⟩ rfl fun h w ⟨f0, f1, f2, f3, _⟩ A => by
    rw [decodeLane, A 24 6 rfl, A 0 6 rfl, bit_of_fld f0, bv_of_fld f1, bv_of_fld f2, bv_of_fld f3]
    exact accept_ok h
theorem Encode.min (e : Bool) (d a b : BitVec 6) : Encode.Statement (.min e d a b) :=
  encode_ofLane 0x1000006 [(e.toNat, 30, 1), (d.toNat, 18, 6), (a.toNat, 12, 6), (b.toNat, 6, 6)]
    [(30, 1), (18, 6), (12, 6), (6, 6)] rfl rfl ⟨e.toNat_lt, d.isLt, a.isLt, b.isLt, trivial⟩ rfl fun h w ⟨f0, f1, f2, f3, _⟩ A => by
    rw [decodeLane, A 24 6 rfl, A 0 6 rfl, bit_of_fld f0, bv_of_fld f1, bv_of_fld f2, bv_of_fld f3]
    exact accept_ok h
theorem Encode.max (e : Bool) (d a b : BitVec 6) : Encode.Statement (.max e d a b) :=
  encode_ofLane 0x1000007 [(e.toNat, 30, 1), (d.toNat, 18, 6), (a.toNat, 12, 6), (b.toNat, 6, 6)]
    [(30, 1), (18, 6), (12, 6), (6, 6)] rfl rfl ⟨e.toNat_lt, d.isLt, a.isLt, b.isLt, trivial⟩ rfl fun h w ⟨f0, f1, f2, f3, _⟩ A => by
    rw [decodeLane, A 24 6 rfl, A 0 6 rfl, bit_of_fld f0, bv_of_fld f1, bv_of_fld f2, bv_of_fld f3]
    exact accept_ok h
theorem Encode.minu (e : Bool) (d a b : BitVec 6) : Encode.Statement (.minu e d a b) :=
  encode_ofLane 0x1000008 [(e.toNat, 30, 1), (d.toNat, 18, 6), (a.toNat, 12, 6), (b.toNat, 6, 6)]
    [(30, 1), (18, 6), (12, 6), (6, 6)] rfl rfl ⟨e.toNat_lt, d.isLt, a.isLt, b.isLt, trivial⟩ rfl fun h w ⟨f0, f1, f2, f3, _⟩ A => by
    rw [decodeLane, A 24 6 rfl, A 0 6 rfl, bit_of_fld f0, bv_of_fld f1, bv_of_fld f2, bv_of_fld f3]
    exact accept_ok h
theorem Encode.maxu (e : Bool) (d a b : BitVec 6) : Encode.Statement (.maxu e d a b) :=
  encode_ofLane 0x1000009 [(e.toNat, 30, 1), (d.toNat, 18, 6), (a.toNat, 12, 6), (b.toNat, 6, 6)]
    [(30, 1), (18, 6), (12, 6), (6, 6)] rfl rfl ⟨e.toNat_lt, d.isLt, a.isLt, b.isLt, trivial⟩ rfl fun h w ⟨f0, f1, f2, f3, _⟩ A => by
    rw [decodeLane, A 24 6 rfl, A 0 6 rfl, bit_of_fld f0, bv_of_fld f1, bv_of_fld f2, bv_of_fld f3]
    exact accept_ok h
theorem Encode.abs (e : Bool) (d a : BitVec 6) : Encode.Statement (.abs e d a) :=
  encode_ofLane 0x100000A [(e.toNat, 30, 1), (d.toNat, 18, 6), (a.toNat, 12, 6)]
    [(30, 1), (18, 6), (12, 6)] rfl rfl ⟨e.toNat_lt, d.isLt, a.isLt, trivial⟩ rfl fun h w ⟨f0, f1, f2, _⟩ A => by
    rw [decodeLane, A 24 6 rfl, A 0 6 rfl, A 6 6 rfl, bit_of_fld f0, bv_of_fld f1, bv_of_fld f2]
    exact accept_ok h
theorem Encode.and (e : Bool) (d a b : BitVec 6) : Encode.Statement (.and e d a b) :=
  encode_ofLane 0x100000B [(e.toNat, 30, 1), (d.toNat, 18, 6), (a.toNat, 12, 6), (b.toNat, 6, 6)]
    [(30, 1), (18, 6), (12, 6), (6, 6)] rfl rfl ⟨e.toNat_lt, d.isLt, a.isLt, b.isLt, trivial⟩ rfl fun h w ⟨f0, f1, f2, f3, _⟩ A => by
    rw [decodeLane, A 24 6 rfl, A 0 6 rfl, bit_of_fld f0, bv_of_fld f1, bv_of_fld f2, bv_of_fld f3]
    exact accept_ok h
theorem Encode.or (e : Bool) (d a b : BitVec 6) : Encode.Statement (.or e d a b) :=
  encode_ofLane 0x100000C [(e.toNat, 30, 1), (d.toNat, 18, 6), (a.toNat, 12, 6), (b.toNat, 6, 6)]
    [(30, 1), (18, 6), (12, 6), (6, 6)] rfl rfl ⟨e.toNat_lt, d.isLt, a.isLt, b.isLt, trivial⟩ rfl fun h w ⟨f0, f1, f2, f3, _⟩ A => by
    rw [decodeLane, A 24 6 rfl, A 0 6 rfl, bit_of_fld f0, bv_of_fld f1, bv_of_fld f2, bv_of_fld f3]
    exact accept_ok h
theorem Encode.xor (e : Bool) (d a b : BitVec 6) : Encode.Statement (.xor e d a b) :=
  encode_ofLane 0x100000D [(e.toNat, 30, 1), (d.toNat, 18, 6), (a.toNat, 12, 6), (b.toNat, 6, 6)]
    [(30, 1), (18, 6), (12, 6), (6, 6)] rfl rfl ⟨e.toNat_lt, d.isLt, a.isLt, b.isLt, trivial⟩ rfl fun h w ⟨f0, f1, f2, f3, _⟩ A => by
    rw [decodeLane, A 24 6 rfl, A 0 6 rfl, bit_of_fld f0, bv_of_fld f1, bv_of_fld f2, bv_of_fld f3]
    exact accept_ok h
theorem Encode.andn (e : Bool) (d a b : BitVec 6) : Encode.Statement (.andn e d a b) :=
  encode_ofLane 0x100000E [(e.toNat, 30, 1), (d.toNat, 18, 6), (a.toNat, 12, 6), (b.toNat, 6, 6)]
    [(30, 1), (18, 6), (12, 6), (6, 6)] rfl rfl ⟨e.toNat_lt, d.isLt, a.isLt, b.isLt, trivial⟩ rfl fun h w ⟨f0, f1, f2, f3, _⟩ A => by
    rw [decodeLane, A 24 6 rfl, A 0 6 rfl, bit_of_fld f0, bv_of_fld f1, bv_of_fld f2, bv_of_fld f3]
    exact accept_ok h
theorem Encode.shl (e : Bool) (d a b : BitVec 6) : Encode.Statement (.shl e d a b) :=
  encode_ofLane 0x100000F [(e.toNat, 30, 1), (d.toNat, 18, 6), (a.toNat, 12, 6), (b.toNat, 6, 6)]
    [(30, 1), (18, 6), (12, 6), (6, 6)] rfl rfl ⟨e.toNat_lt, d.isLt, a.isLt, b.isLt, trivial⟩ rfl fun h w ⟨f0, f1, f2, f3, _⟩ A => by
    rw [decodeLane, A 24 6 rfl, A 0 6 rfl, bit_of_fld f0, bv_of_fld f1, bv_of_fld f2, bv_of_fld f3]
    exact accept_ok h
theorem Encode.shr (e : Bool) (d a b : BitVec 6) : Encode.Statement (.shr e d a b) :=
  encode_ofLane 0x1000010 [(e.toNat, 30, 1), (d.toNat, 18, 6), (a.toNat, 12, 6), (b.toNat, 6, 6)]
    [(30, 1), (18, 6), (12, 6), (6, 6)] rfl rfl ⟨e.toNat_lt, d.isLt, a.isLt, b.isLt, trivial⟩ rfl fun h w ⟨f0, f1, f2, f3, _⟩ A => by
    rw [decodeLane, A 24 6 rfl, A 0 6 rfl, bit_of_fld f0, bv_of_fld f1, bv_of_fld f2, bv_of_fld f3]
    exact accept_ok h
theorem Encode.sar (e : Bool) (d a b : BitVec 6) : Encode.Statement (.sar e d a b) :=
  encode_ofLane 0x1000011 [(e.toNat, 30, 1), (d.toNat, 18, 6), (a.toNat, 12, 6), (b.toNat, 6, 6)]
    [(30, 1), (18, 6), (12, 6), (6, 6)] rfl rfl ⟨e.toNat_lt, d.isLt, a.isLt, b.isLt, trivial⟩ rfl fun h w ⟨f0, f1, f2, f3, _⟩ A => by
    rw [decodeLane, A 24 6 rfl, A 0 6 rfl, bit_of_fld f0, bv_of_fld f1, bv_of_fld f2, bv_of_fld f3]
    exact accept_ok h
theorem Encode.rotl (e : Bool) (d a b : BitVec 6) : Encode.Statement (.rotl e d a b) :=
  encode_ofLane 0x1000012 [(e.toNat, 30, 1), (d.toNat, 18, 6), (a.toNat, 12, 6), (b.toNat, 6, 6)]
    [(30, 1), (18, 6), (12, 6), (6, 6)] rfl rfl ⟨e.toNat_lt, d.isLt, a.isLt, b.isLt, trivial⟩ rfl fun h w ⟨f0, f1, f2, f3, _⟩ A => by
    rw [decodeLane, A 24 6 rfl, A 0 6 rfl, bit_of_fld f0, bv_of_fld f1, bv_of_fld f2, bv_of_fld f3]
    exact accept_ok h
theorem Encode.popc (e : Bool) (d a : BitVec 6) : Encode.Statement (.popc e d a) :=
  encode_ofLane 0x1000013 [(e.toNat, 30, 1), (d.toNat, 18, 6), (a.toNat, 12, 6)]
    [(30, 1), (18, 6), (12, 6)] rfl rfl ⟨e.toNat_lt, d.isLt, a.isLt, trivial⟩ rfl fun h w ⟨f0, f1, f2, _⟩ A => by
    rw [decodeLane, A 24 6 rfl, A 0 6 rfl, A 6 6 rfl, bit_of_fld f0, bv_of_fld f1, bv_of_fld f2]
    exact accept_ok h
theorem Encode.clz (e : Bool) (d a : BitVec 6) : Encode.Statement (.clz e d a) :=
  encode_ofLane 0x1000014 [(e.toNat, 30, 1), (d.toNat, 18, 6), (a.toNat, 12, 6)]
    [(30, 1), (18, 6), (12, 6)] rfl rfl ⟨e.toNat_lt, d.isLt, a.isLt, trivial⟩ rfl fun h w ⟨f0, f1, f2, _⟩ A => by
    rw [decodeLane, A 24 6 rfl, A 0 6 rfl, A 6 6 rfl, bit_of_fld f0, bv_of_fld f1, bv_of_fld f2]
    exact accept_ok h
theorem Encode.ctz (e : Bool) (d a : BitVec 6) : Encode.Statement (.ctz e d a) :=
  encode_ofLane 0x1000015 [(e.toNat, 30, 1), (d.toNat, 18, 6), (a.toNat, 12, 6)]
    [(30, 1), (18, 6), (12, 6)] rfl rfl ⟨e.toNat_lt, d.isLt, a.isLt, trivial⟩ rfl fun h w ⟨f0, f1, f2, _⟩ A => by
    rw [decodeLane, A 24 6 rfl, A 0 6 rfl, A 6 6 rfl, bit_of_fld f0, bv_of_fld f1, bv_of_fld f2]
    exact accept_ok h
theorem Encode.brev (e : Bool) (d a : BitVec 6) : Encode.Statement (.brev e d a) :=
  encode_ofLane 0x1000016 [(e.toNat, 30, 1), (d.toNat, 18, 6), (a.toNat, 12, 6)]
    [(30, 1), (18, 6), (12, 6)] rfl rfl ⟨e.toNat_lt, d.isLt, a.isLt, trivial⟩ rfl fun h w ⟨f0, f1, f2, _⟩ A => by
    rw [decodeLane, A 24 6 rfl, A 0 6 rfl, A 6 6 rfl, bit_of_fld f0, bv_of_fld f1, bv_of_fld f2]
    exact accept_ok h
theorem Encode.bswap (e : Bool) (d a : BitVec 6) : Encode.Statement (.bswap e d a) :=
  encode_ofLane 0x1000017 [(e.toNat, 30, 1), (d.toNat, 18, 6), (a.toNat, 12, 6)]
    [(30, 1), (18, 6), (12, 6)] rfl rfl ⟨e.toNat_lt, d.isLt, a.isLt, trivial⟩ rfl fun h w ⟨f0, f1, f2, _⟩ A => by
    rw [decodeLane, A 24 6 rfl, A 0 6 rfl, A 6 6 rfl, bit_of_fld f0, bv_of_fld f1, bv_of_fld f2]
    exact accept_ok h
theorem Encode.bfx (e : Bool) (d a b : BitVec 6) : Encode.Statement (.bfx e d a b) :=
  encode_ofLane 0x1000018 [(e.toNat, 30, 1), (d.toNat, 18, 6), (a.toNat, 12, 6), (b.toNat, 6, 6)]
    [(30, 1), (18, 6), (12, 6), (6, 6)] rfl rfl ⟨e.toNat_lt, d.isLt, a.isLt, b.isLt, trivial⟩ rfl fun h w ⟨f0, f1, f2, f3, _⟩ A => by
    rw [decodeLane, A 24 6 rfl, A 0 6 rfl, bit_of_fld f0, bv_of_fld f1, bv_of_fld f2, bv_of_fld f3]
    exact accept_ok h
theorem Encode.bfi (e : Bool) (d a b : BitVec 6) : Encode.Statement (.bfi e d a b) :=
  encode_ofLane 0x1000019 [(e.toNat, 30, 1), (d.toNat, 18, 6), (a.toNat, 12, 6), (b.toNat, 6, 6)]
    [(30, 1), (18, 6), (12, 6), (6, 6)] rfl rfl ⟨e.toNat_lt, d.isLt, a.isLt, b.isLt, trivial⟩ rfl fun h w ⟨f0, f1, f2, f3, _⟩ A => by
    rw [decodeLane, A 24 6 rfl, A 0 6 rfl, bit_of_fld f0, bv_of_fld f1, bv_of_fld f2, bv_of_fld f3]
    exact accept_ok h
theorem Encode.addi (e : Bool) (d a : BitVec 6) (x_i : BitVec 12) : Encode.Statement (.addi e d a x_i) :=
  encode_ofLane 0x2000000 [(e.toNat, 30, 1), (d.toNat, 18, 6), (a.toNat, 12, 6), (x_i.toNat, 0, 12)]
    [(30, 1), (18, 6), (12, 6), (0, 12)] rfl rfl ⟨e.toNat_lt, d.isLt, a.isLt, x_i.isLt, trivial⟩ rfl fun h w ⟨f0, f1, f2, f3, _⟩ A => by
    rw [decodeLane, A 24 6 rfl, bit_of_fld f0, bv_of_fld f1, bv_of_fld f2, bv_of_fld f3]
    exact accept_ok h
theorem Encode.andi (e : Bool) (d a : BitVec 6) (x_i : BitVec 12) : Encode.Statement (.andi e d a x_i) :=
  encode_ofLane 0x3000000 [(e.toNat, 30, 1), (d.toNat, 18, 6), (a.toNat, 12, 6), (x_i.toNat, 0, 12)]
    [(30, 1), (18, 6), (12, 6), (0, 12)] rfl rfl ⟨e.toNat_lt, d.isLt, a.isLt, x_i.isLt, trivial⟩ rfl fun h w ⟨f0, f1, f2, f3, _⟩ A => by
    rw [decodeLane, A 24 6 rfl, bit_of_fld f0, bv_of_fld f1, bv_of_fld f2, bv_of_fld f3]
    exact accept_ok h
theorem Encode.ori (e : Bool) (d a : BitVec 6) (x_i : BitVec 12) : Encode.Statement (.ori e d a x_i) :=
  encode_ofLane 0x4000000 [(e.toNat, 30, 1), (d.toNat, 18, 6), (a.toNat, 12, 6), (x_i.toNat, 0, 12)]
    [(30, 1), (18, 6), (12, 6), (0, 12)] rfl rfl ⟨e.toNat_lt, d.isLt, a.isLt, x_i.isLt, trivial⟩ rfl fun h w ⟨f0, f1, f2, f3, _⟩ A => by
    rw [decodeLane, A 24 6 rfl, bit_of_fld f0, bv_of_fld f1, bv_of_fld f2, bv_of_fld f3]
    exact accept_ok h
theorem Encode.xori (e : Bool) (d a : BitVec 6) (x_i : BitVec 12) : Encode.Statement (.xori e d a x_i) :=
  encode_ofLane 0x5000000 [(e.toNat, 30, 1), (d.toNat, 18, 6), (a.toNat, 12, 6), (x_i.toNat, 0, 12)]
    [(30, 1), (18, 6), (12, 6), (0, 12)] rfl rfl ⟨e.toNat_lt, d.isLt, a.isLt, x_i.isLt, trivial⟩ rfl fun h w ⟨f0, f1, f2, f3, _⟩ A => by
    rw [decodeLane, A 24 6 rfl, bit_of_fld f0, bv_of_fld f1, bv_of_fld f2, bv_of_fld f3]
    exact accept_ok h
theorem Encode.shli (e : Bool) (d a : BitVec 6) (n : BitVec 5) : Encode.Statement (.shli e d a n) :=
  encode_ofLane 0x6000000 [(e.toNat, 30, 1), (d.toNat, 18, 6), (a.toNat, 12, 6), (n.toNat, 0, 5)]
    [(30, 1), (18, 6), (12, 6), (0, 5)] rfl rfl ⟨e.toNat_lt, d.isLt, a.isLt, n.isLt, trivial⟩ rfl fun h w ⟨f0, f1, f2, f3, _⟩ A => by
    rw [decodeLane, A 24 6 rfl, A 10 2 rfl, A 5 5 rfl, bit_of_fld f0, bv_of_fld f1, bv_of_fld f2, bv_of_fld f3]
    exact accept_ok h
theorem Encode.shri (e : Bool) (d a : BitVec 6) (n : BitVec 5) : Encode.Statement (.shri e d a n) :=
  encode_ofLane 0x6000400 [(e.toNat, 30, 1), (d.toNat, 18, 6), (a.toNat, 12, 6), (n.toNat, 0, 5)]
    [(30, 1), (18, 6), (12, 6), (0, 5)] rfl rfl ⟨e.toNat_lt, d.isLt, a.isLt, n.isLt, trivial⟩ rfl fun h w ⟨f0, f1, f2, f3, _⟩ A => by
    rw [decodeLane, A 24 6 rfl, A 10 2 rfl, A 5 5 rfl, bit_of_fld f0, bv_of_fld f1, bv_of_fld f2, bv_of_fld f3]
    exact accept_ok h
theorem Encode.sari (e : Bool) (d a : BitVec 6) (n : BitVec 5) : Encode.Statement (.sari e d a n) :=
  encode_ofLane 0x6000800 [(e.toNat, 30, 1), (d.toNat, 18, 6), (a.toNat, 12, 6), (n.toNat, 0, 5)]
    [(30, 1), (18, 6), (12, 6), (0, 5)] rfl rfl ⟨e.toNat_lt, d.isLt, a.isLt, n.isLt, trivial⟩ rfl fun h w ⟨f0, f1, f2, f3, _⟩ A => by
    rw [decodeLane, A 24 6 rfl, A 10 2 rfl, A 5 5 rfl, bit_of_fld f0, bv_of_fld f1, bv_of_fld f2, bv_of_fld f3]
    exact accept_ok h
theorem Encode.movi (e : Bool) (d : BitVec 6) (x_i : BitVec 17) : Encode.Statement (.movi e d x_i) :=
  encode_ofLane 0x7000000 [(e.toNat, 30, 1), (d.toNat, 18, 6), (x_i.toNat, 0, 17)]
    [(30, 1), (18, 6), (0, 17)] rfl rfl ⟨e.toNat_lt, d.isLt, x_i.isLt, trivial⟩ rfl fun h w ⟨f0, f1, f2, _⟩ A => by
    rw [decodeLane, A 24 6 rfl, A 17 1 rfl, bit_of_fld f0, bv_of_fld f1, bv_of_fld f2]
    exact accept_ok h
theorem Encode.movhi (e : Bool) (d : BitVec 6) (x_i : BitVec 17) : Encode.Statement (.movhi e d x_i) :=
  encode_ofLane 0x7020000 [(e.toNat, 30, 1), (d.toNat, 18, 6), (x_i.toNat, 0, 17)]
    [(30, 1), (18, 6), (0, 17)] rfl rfl ⟨e.toNat_lt, d.isLt, x_i.isLt, trivial⟩ rfl fun h w ⟨f0, f1, f2, _⟩ A => by
    rw [decodeLane, A 24 6 rfl, A 17 1 rfl, bit_of_fld f0, bv_of_fld f1, bv_of_fld f2]
    exact accept_ok h
theorem Encode.mullo (e : Bool) (d a b : BitVec 6) : Encode.Statement (.mullo e d a b) :=
  encode_ofLane 0x8000000 [(e.toNat, 30, 1), (d.toNat, 18, 6), (a.toNat, 12, 6), (b.toNat, 6, 6)]
    [(30, 1), (18, 6), (12, 6), (6, 6)] rfl rfl ⟨e.toNat_lt, d.isLt, a.isLt, b.isLt, trivial⟩ rfl fun h w ⟨f0, f1, f2, f3, _⟩ A => by
    rw [decodeLane, A 24 6 rfl, A 0 6 rfl, bit_of_fld f0, bv_of_fld f1, bv_of_fld f2, bv_of_fld f3]
    exact accept_ok h
theorem Encode.mulhi (e : Bool) (d a b : BitVec 6) : Encode.Statement (.mulhi e d a b) :=
  encode_ofLane 0x8000001 [(e.toNat, 30, 1), (d.toNat, 18, 6), (a.toNat, 12, 6), (b.toNat, 6, 6)]
    [(30, 1), (18, 6), (12, 6), (6, 6)] rfl rfl ⟨e.toNat_lt, d.isLt, a.isLt, b.isLt, trivial⟩ rfl fun h w ⟨f0, f1, f2, f3, _⟩ A => by
    rw [decodeLane, A 24 6 rfl, A 0 6 rfl, bit_of_fld f0, bv_of_fld f1, bv_of_fld f2, bv_of_fld f3]
    exact accept_ok h
theorem Encode.mulhiu (e : Bool) (d a b : BitVec 6) : Encode.Statement (.mulhiu e d a b) :=
  encode_ofLane 0x8000002 [(e.toNat, 30, 1), (d.toNat, 18, 6), (a.toNat, 12, 6), (b.toNat, 6, 6)]
    [(30, 1), (18, 6), (12, 6), (6, 6)] rfl rfl ⟨e.toNat_lt, d.isLt, a.isLt, b.isLt, trivial⟩ rfl fun h w ⟨f0, f1, f2, f3, _⟩ A => by
    rw [decodeLane, A 24 6 rfl, A 0 6 rfl, bit_of_fld f0, bv_of_fld f1, bv_of_fld f2, bv_of_fld f3]
    exact accept_ok h
theorem Encode.mad (e : Bool) (d a b : BitVec 6) : Encode.Statement (.mad e d a b) :=
  encode_ofLane 0x8000003 [(e.toNat, 30, 1), (d.toNat, 18, 6), (a.toNat, 12, 6), (b.toNat, 6, 6)]
    [(30, 1), (18, 6), (12, 6), (6, 6)] rfl rfl ⟨e.toNat_lt, d.isLt, a.isLt, b.isLt, trivial⟩ rfl fun h w ⟨f0, f1, f2, f3, _⟩ A => by
    rw [decodeLane, A 24 6 rfl, A 0 6 rfl, bit_of_fld f0, bv_of_fld f1, bv_of_fld f2, bv_of_fld f3]
    exact accept_ok h
theorem Encode.div (e : Bool) (d a b : BitVec 6) : Encode.Statement (.div e d a b) :=
  encode_ofLane 0x8000004 [(e.toNat, 30, 1), (d.toNat, 18, 6), (a.toNat, 12, 6), (b.toNat, 6, 6)]
    [(30, 1), (18, 6), (12, 6), (6, 6)] rfl rfl ⟨e.toNat_lt, d.isLt, a.isLt, b.isLt, trivial⟩ rfl fun h w ⟨f0, f1, f2, f3, _⟩ A => by
    rw [decodeLane, A 24 6 rfl, A 0 6 rfl, bit_of_fld f0, bv_of_fld f1, bv_of_fld f2, bv_of_fld f3]
    exact accept_ok h
theorem Encode.divu (e : Bool) (d a b : BitVec 6) : Encode.Statement (.divu e d a b) :=
  encode_ofLane 0x8000005 [(e.toNat, 30, 1), (d.toNat, 18, 6), (a.toNat, 12, 6), (b.toNat, 6, 6)]
    [(30, 1), (18, 6), (12, 6), (6, 6)] rfl rfl ⟨e.toNat_lt, d.isLt, a.isLt, b.isLt, trivial⟩ rfl fun h w ⟨f0, f1, f2, f3, _⟩ A => by
    rw [decodeLane, A 24 6 rfl, A 0 6 rfl, bit_of_fld f0, bv_of_fld f1, bv_of_fld f2, bv_of_fld f3]
    exact accept_ok h
theorem Encode.rem (e : Bool) (d a b : BitVec 6) : Encode.Statement (.rem e d a b) :=
  encode_ofLane 0x8000006 [(e.toNat, 30, 1), (d.toNat, 18, 6), (a.toNat, 12, 6), (b.toNat, 6, 6)]
    [(30, 1), (18, 6), (12, 6), (6, 6)] rfl rfl ⟨e.toNat_lt, d.isLt, a.isLt, b.isLt, trivial⟩ rfl fun h w ⟨f0, f1, f2, f3, _⟩ A => by
    rw [decodeLane, A 24 6 rfl, A 0 6 rfl, bit_of_fld f0, bv_of_fld f1, bv_of_fld f2, bv_of_fld f3]
    exact accept_ok h
theorem Encode.remu (e : Bool) (d a b : BitVec 6) : Encode.Statement (.remu e d a b) :=
  encode_ofLane 0x8000007 [(e.toNat, 30, 1), (d.toNat, 18, 6), (a.toNat, 12, 6), (b.toNat, 6, 6)]
    [(30, 1), (18, 6), (12, 6), (6, 6)] rfl rfl ⟨e.toNat_lt, d.isLt, a.isLt, b.isLt, trivial⟩ rfl fun h w ⟨f0, f1, f2, f3, _⟩ A => by
    rw [decodeLane, A 24 6 rfl, A 0 6 rfl, bit_of_fld f0, bv_of_fld f1, bv_of_fld f2, bv_of_fld f3]
    exact accept_ok h
theorem Encode.dot4s (e : Bool) (d a b : BitVec 6) : Encode.Statement (.dot4s e d a b) :=
  encode_ofLane 0x8000008 [(e.toNat, 30, 1), (d.toNat, 18, 6), (a.toNat, 12, 6), (b.toNat, 6, 6)]
    [(30, 1), (18, 6), (12, 6), (6, 6)] rfl rfl ⟨e.toNat_lt, d.isLt, a.isLt, b.isLt, trivial⟩ rfl fun h w ⟨f0, f1, f2, f3, _⟩ A => by
    rw [decodeLane, A 24 6 rfl, A 0 6 rfl, bit_of_fld f0, bv_of_fld f1, bv_of_fld f2, bv_of_fld f3]
    exact accept_ok h
theorem Encode.dot4u (e : Bool) (d a b : BitVec 6) : Encode.Statement (.dot4u e d a b) :=
  encode_ofLane 0x8000009 [(e.toNat, 30, 1), (d.toNat, 18, 6), (a.toNat, 12, 6), (b.toNat, 6, 6)]
    [(30, 1), (18, 6), (12, 6), (6, 6)] rfl rfl ⟨e.toNat_lt, d.isLt, a.isLt, b.isLt, trivial⟩ rfl fun h w ⟨f0, f1, f2, f3, _⟩ A => by
    rw [decodeLane, A 24 6 rfl, A 0 6 rfl, bit_of_fld f0, bv_of_fld f1, bv_of_fld f2, bv_of_fld f3]
    exact accept_ok h
theorem Encode.dot2s (e : Bool) (d a b : BitVec 6) : Encode.Statement (.dot2s e d a b) :=
  encode_ofLane 0x800000A [(e.toNat, 30, 1), (d.toNat, 18, 6), (a.toNat, 12, 6), (b.toNat, 6, 6)]
    [(30, 1), (18, 6), (12, 6), (6, 6)] rfl rfl ⟨e.toNat_lt, d.isLt, a.isLt, b.isLt, trivial⟩ rfl fun h w ⟨f0, f1, f2, f3, _⟩ A => by
    rw [decodeLane, A 24 6 rfl, A 0 6 rfl, bit_of_fld f0, bv_of_fld f1, bv_of_fld f2, bv_of_fld f3]
    exact accept_ok h
theorem Encode.cmp (e : Bool) (p : BitVec 4) (c : BitVec 2) (a b k : BitVec 6) : Encode.Statement (.cmp e p c a b k) :=
  encode_ofLane 0xC000000 [(e.toNat, 30, 1), (p.toNat, 20, 4), (c.toNat, 18, 2), (a.toNat, 12, 6), (b.toNat, 6, 6), (k.toNat, 0, 6)]
    [(30, 1), (20, 4), (18, 2), (12, 6), (6, 6), (0, 6)] rfl rfl ⟨e.toNat_lt, p.isLt, c.isLt, a.isLt, b.isLt, k.isLt, trivial⟩ rfl fun h w ⟨f0, f1, f2, f3, f4, f5, _⟩ A => by
    rw [decodeLane, A 24 6 rfl, bit_of_fld f0, bv_of_fld f1, bv_of_fld f2, bv_of_fld f3, bv_of_fld f4, bv_of_fld f5]
    exact accept_ok h
theorem Encode.cmpi (e : Bool) (p : BitVec 4) (c : BitVec 2) (a : BitVec 6) (k : BitVec 4) (x_i : BitVec 8) : Encode.Statement (.cmpi e p c a k x_i) :=
  encode_ofLane 0xD000000 [(e.toNat, 30, 1), (p.toNat, 20, 4), (c.toNat, 18, 2), (a.toNat, 12, 6), (k.toNat, 8, 4), (x_i.toNat, 0, 8)]
    [(30, 1), (20, 4), (18, 2), (12, 6), (8, 4), (0, 8)] rfl rfl ⟨e.toNat_lt, p.isLt, c.isLt, a.isLt, k.isLt, x_i.isLt, trivial⟩ rfl fun h w ⟨f0, f1, f2, f3, f4, f5, _⟩ A => by
    rw [decodeLane, A 24 6 rfl, bit_of_fld f0, bv_of_fld f1, bv_of_fld f2, bv_of_fld f3, bv_of_fld f4, bv_of_fld f5]
    exact accept_ok h
theorem Encode.plop (e : Bool) (d a b t : BitVec 4) : Encode.Statement (.plop e d a b t) :=
  encode_ofLane 0xE000000 [(e.toNat, 30, 1), (d.toNat, 20, 4), (a.toNat, 12, 4), (b.toNat, 8, 4), (t.toNat, 0, 4)]
    [(30, 1), (20, 4), (12, 4), (8, 4), (0, 4)] rfl rfl ⟨e.toNat_lt, d.isLt, a.isLt, b.isLt, t.isLt, trivial⟩ rfl fun h w ⟨f0, f1, f2, f3, f4, _⟩ A => by
    rw [decodeLane, A 24 6 rfl, A 4 4 rfl, A 16 4 rfl, bit_of_fld f0, bv_of_fld f1, bv_of_fld f2, bv_of_fld f3, bv_of_fld f4]
    exact accept_ok h
theorem Encode.pmovToV (e : Bool) (d : BitVec 6) : Encode.Statement (.pmovToV e d) :=
  encode_ofLane 0xF000000 [(e.toNat, 30, 1), (d.toNat, 18, 6)]
    [(30, 1), (18, 6)] rfl rfl ⟨e.toNat_lt, d.isLt, trivial⟩ rfl fun h w ⟨f0, f1, _⟩ A => by
    rw [decodeLane, A 24 6 rfl, A 0 6 rfl, A 6 12 rfl, bit_of_fld f0, bv_of_fld f1]
    exact accept_ok h
theorem Encode.pmovToP (e : Bool) (a : BitVec 6) : Encode.Statement (.pmovToP e a) :=
  encode_ofLane 0xF000001 [(e.toNat, 30, 1), (a.toNat, 12, 6)]
    [(30, 1), (12, 6)] rfl rfl ⟨e.toNat_lt, a.isLt, trivial⟩ rfl fun h w ⟨f0, f1, _⟩ A => by
    rw [decodeLane, A 24 6 rfl, A 0 6 rfl, A 6 6 rfl, A 18 6 rfl, bit_of_fld f0, bv_of_fld f1]
    exact accept_ok h
theorem Encode.fadd (e : Bool) (d a b : BitVec 6) : Encode.Statement (.fadd e d a b) :=
  encode_ofLane 0x10000000 [(e.toNat, 30, 1), (d.toNat, 18, 6), (a.toNat, 12, 6), (b.toNat, 6, 6)]
    [(30, 1), (18, 6), (12, 6), (6, 6)] rfl rfl ⟨e.toNat_lt, d.isLt, a.isLt, b.isLt, trivial⟩ rfl fun h w ⟨f0, f1, f2, f3, _⟩ A => by
    rw [decodeLane, A 24 6 rfl, A 0 6 rfl, bit_of_fld f0, bv_of_fld f1, bv_of_fld f2, bv_of_fld f3]
    exact accept_ok h
theorem Encode.fsub (e : Bool) (d a b : BitVec 6) : Encode.Statement (.fsub e d a b) :=
  encode_ofLane 0x10000001 [(e.toNat, 30, 1), (d.toNat, 18, 6), (a.toNat, 12, 6), (b.toNat, 6, 6)]
    [(30, 1), (18, 6), (12, 6), (6, 6)] rfl rfl ⟨e.toNat_lt, d.isLt, a.isLt, b.isLt, trivial⟩ rfl fun h w ⟨f0, f1, f2, f3, _⟩ A => by
    rw [decodeLane, A 24 6 rfl, A 0 6 rfl, bit_of_fld f0, bv_of_fld f1, bv_of_fld f2, bv_of_fld f3]
    exact accept_ok h
theorem Encode.fmul (e : Bool) (d a b : BitVec 6) : Encode.Statement (.fmul e d a b) :=
  encode_ofLane 0x10000002 [(e.toNat, 30, 1), (d.toNat, 18, 6), (a.toNat, 12, 6), (b.toNat, 6, 6)]
    [(30, 1), (18, 6), (12, 6), (6, 6)] rfl rfl ⟨e.toNat_lt, d.isLt, a.isLt, b.isLt, trivial⟩ rfl fun h w ⟨f0, f1, f2, f3, _⟩ A => by
    rw [decodeLane, A 24 6 rfl, A 0 6 rfl, bit_of_fld f0, bv_of_fld f1, bv_of_fld f2, bv_of_fld f3]
    exact accept_ok h
theorem Encode.ffma (e : Bool) (d a b : BitVec 6) : Encode.Statement (.ffma e d a b) :=
  encode_ofLane 0x10000003 [(e.toNat, 30, 1), (d.toNat, 18, 6), (a.toNat, 12, 6), (b.toNat, 6, 6)]
    [(30, 1), (18, 6), (12, 6), (6, 6)] rfl rfl ⟨e.toNat_lt, d.isLt, a.isLt, b.isLt, trivial⟩ rfl fun h w ⟨f0, f1, f2, f3, _⟩ A => by
    rw [decodeLane, A 24 6 rfl, A 0 6 rfl, bit_of_fld f0, bv_of_fld f1, bv_of_fld f2, bv_of_fld f3]
    exact accept_ok h
theorem Encode.fmin (e : Bool) (d a b : BitVec 6) : Encode.Statement (.fmin e d a b) :=
  encode_ofLane 0x10000004 [(e.toNat, 30, 1), (d.toNat, 18, 6), (a.toNat, 12, 6), (b.toNat, 6, 6)]
    [(30, 1), (18, 6), (12, 6), (6, 6)] rfl rfl ⟨e.toNat_lt, d.isLt, a.isLt, b.isLt, trivial⟩ rfl fun h w ⟨f0, f1, f2, f3, _⟩ A => by
    rw [decodeLane, A 24 6 rfl, A 0 6 rfl, bit_of_fld f0, bv_of_fld f1, bv_of_fld f2, bv_of_fld f3]
    exact accept_ok h
theorem Encode.fmax (e : Bool) (d a b : BitVec 6) : Encode.Statement (.fmax e d a b) :=
  encode_ofLane 0x10000005 [(e.toNat, 30, 1), (d.toNat, 18, 6), (a.toNat, 12, 6), (b.toNat, 6, 6)]
    [(30, 1), (18, 6), (12, 6), (6, 6)] rfl rfl ⟨e.toNat_lt, d.isLt, a.isLt, b.isLt, trivial⟩ rfl fun h w ⟨f0, f1, f2, f3, _⟩ A => by
    rw [decodeLane, A 24 6 rfl, A 0 6 rfl, bit_of_fld f0, bv_of_fld f1, bv_of_fld f2, bv_of_fld f3]
    exact accept_ok h
theorem Encode.fclass (e : Bool) (d a : BitVec 6) : Encode.Statement (.fclass e d a) :=
  encode_ofLane 0x10000006 [(e.toNat, 30, 1), (d.toNat, 18, 6), (a.toNat, 12, 6)]
    [(30, 1), (18, 6), (12, 6)] rfl rfl ⟨e.toNat_lt, d.isLt, a.isLt, trivial⟩ rfl fun h w ⟨f0, f1, f2, _⟩ A => by
    rw [decodeLane, A 24 6 rfl, A 0 6 rfl, A 6 6 rfl, bit_of_fld f0, bv_of_fld f1, bv_of_fld f2]
    exact accept_ok h
theorem Encode.frnd (e : Bool) (d a : BitVec 6) : Encode.Statement (.frnd e d a) :=
  encode_ofLane 0x10000007 [(e.toNat, 30, 1), (d.toNat, 18, 6), (a.toNat, 12, 6)]
    [(30, 1), (18, 6), (12, 6)] rfl rfl ⟨e.toNat_lt, d.isLt, a.isLt, trivial⟩ rfl fun h w ⟨f0, f1, f2, _⟩ A => by
    rw [decodeLane, A 24 6 rfl, A 0 6 rfl, A 6 6 rfl, bit_of_fld f0, bv_of_fld f1, bv_of_fld f2]
    exact accept_ok h
theorem Encode.fcmp (e : Bool) (p : BitVec 4) (c : BitVec 2) (a b k : BitVec 6) : Encode.Statement (.fcmp e p c a b k) :=
  encode_ofLane 0x11000000 [(e.toNat, 30, 1), (p.toNat, 20, 4), (c.toNat, 18, 2), (a.toNat, 12, 6), (b.toNat, 6, 6), (k.toNat, 0, 6)]
    [(30, 1), (20, 4), (18, 2), (12, 6), (6, 6), (0, 6)] rfl rfl ⟨e.toNat_lt, p.isLt, c.isLt, a.isLt, b.isLt, k.isLt, trivial⟩ rfl fun h w ⟨f0, f1, f2, f3, f4, f5, _⟩ A => by
    rw [decodeLane, A 24 6 rfl, bit_of_fld f0, bv_of_fld f1, bv_of_fld f2, bv_of_fld f3, bv_of_fld f4, bv_of_fld f5]
    exact accept_ok h
theorem Encode.pkadd (e : Bool) (d a b : BitVec 6) : Encode.Statement (.pkadd e d a b) :=
  encode_ofLane 0x12000000 [(e.toNat, 30, 1), (d.toNat, 18, 6), (a.toNat, 12, 6), (b.toNat, 6, 6)]
    [(30, 1), (18, 6), (12, 6), (6, 6)] rfl rfl ⟨e.toNat_lt, d.isLt, a.isLt, b.isLt, trivial⟩ rfl fun h w ⟨f0, f1, f2, f3, _⟩ A => by
    rw [decodeLane, A 24 6 rfl, A 0 6 rfl, bit_of_fld f0, bv_of_fld f1, bv_of_fld f2, bv_of_fld f3]
    exact accept_ok h
theorem Encode.pkmul (e : Bool) (d a b : BitVec 6) : Encode.Statement (.pkmul e d a b) :=
  encode_ofLane 0x12000001 [(e.toNat, 30, 1), (d.toNat, 18, 6), (a.toNat, 12, 6), (b.toNat, 6, 6)]
    [(30, 1), (18, 6), (12, 6), (6, 6)] rfl rfl ⟨e.toNat_lt, d.isLt, a.isLt, b.isLt, trivial⟩ rfl fun h w ⟨f0, f1, f2, f3, _⟩ A => by
    rw [decodeLane, A 24 6 rfl, A 0 6 rfl, bit_of_fld f0, bv_of_fld f1, bv_of_fld f2, bv_of_fld f3]
    exact accept_ok h
theorem Encode.pkfma (e : Bool) (d a b : BitVec 6) : Encode.Statement (.pkfma e d a b) :=
  encode_ofLane 0x12000002 [(e.toNat, 30, 1), (d.toNat, 18, 6), (a.toNat, 12, 6), (b.toNat, 6, 6)]
    [(30, 1), (18, 6), (12, 6), (6, 6)] rfl rfl ⟨e.toNat_lt, d.isLt, a.isLt, b.isLt, trivial⟩ rfl fun h w ⟨f0, f1, f2, f3, _⟩ A => by
    rw [decodeLane, A 24 6 rfl, A 0 6 rfl, bit_of_fld f0, bv_of_fld f1, bv_of_fld f2, bv_of_fld f3]
    exact accept_ok h
theorem Encode.pkaddBf (e : Bool) (d a b : BitVec 6) : Encode.Statement (.pkaddBf e d a b) :=
  encode_ofLane 0x12000008 [(e.toNat, 30, 1), (d.toNat, 18, 6), (a.toNat, 12, 6), (b.toNat, 6, 6)]
    [(30, 1), (18, 6), (12, 6), (6, 6)] rfl rfl ⟨e.toNat_lt, d.isLt, a.isLt, b.isLt, trivial⟩ rfl fun h w ⟨f0, f1, f2, f3, _⟩ A => by
    rw [decodeLane, A 24 6 rfl, A 0 6 rfl, bit_of_fld f0, bv_of_fld f1, bv_of_fld f2, bv_of_fld f3]
    exact accept_ok h
theorem Encode.pkmulBf (e : Bool) (d a b : BitVec 6) : Encode.Statement (.pkmulBf e d a b) :=
  encode_ofLane 0x12000009 [(e.toNat, 30, 1), (d.toNat, 18, 6), (a.toNat, 12, 6), (b.toNat, 6, 6)]
    [(30, 1), (18, 6), (12, 6), (6, 6)] rfl rfl ⟨e.toNat_lt, d.isLt, a.isLt, b.isLt, trivial⟩ rfl fun h w ⟨f0, f1, f2, f3, _⟩ A => by
    rw [decodeLane, A 24 6 rfl, A 0 6 rfl, bit_of_fld f0, bv_of_fld f1, bv_of_fld f2, bv_of_fld f3]
    exact accept_ok h
theorem Encode.pkfmaBf (e : Bool) (d a b : BitVec 6) : Encode.Statement (.pkfmaBf e d a b) :=
  encode_ofLane 0x1200000A [(e.toNat, 30, 1), (d.toNat, 18, 6), (a.toNat, 12, 6), (b.toNat, 6, 6)]
    [(30, 1), (18, 6), (12, 6), (6, 6)] rfl rfl ⟨e.toNat_lt, d.isLt, a.isLt, b.isLt, trivial⟩ rfl fun h w ⟨f0, f1, f2, f3, _⟩ A => by
    rw [decodeLane, A 24 6 rfl, A 0 6 rfl, bit_of_fld f0, bv_of_fld f1, bv_of_fld f2, bv_of_fld f3]
    exact accept_ok h
theorem Encode.dadd (e : Bool) (d a b : BitVec 6) : Encode.Statement (.dadd e d a b) :=
  encode_ofLane 0x18000000 [(e.toNat, 30, 1), (d.toNat, 18, 6), (a.toNat, 12, 6), (b.toNat, 6, 6)]
    [(30, 1), (18, 6), (12, 6), (6, 6)] rfl rfl ⟨e.toNat_lt, d.isLt, a.isLt, b.isLt, trivial⟩ rfl fun h w ⟨f0, f1, f2, f3, _⟩ A => by
    rw [decodeLane, A 24 6 rfl, A 0 6 rfl, bit_of_fld f0, bv_of_fld f1, bv_of_fld f2, bv_of_fld f3]
    exact accept_ok h
theorem Encode.dsub (e : Bool) (d a b : BitVec 6) : Encode.Statement (.dsub e d a b) :=
  encode_ofLane 0x18000001 [(e.toNat, 30, 1), (d.toNat, 18, 6), (a.toNat, 12, 6), (b.toNat, 6, 6)]
    [(30, 1), (18, 6), (12, 6), (6, 6)] rfl rfl ⟨e.toNat_lt, d.isLt, a.isLt, b.isLt, trivial⟩ rfl fun h w ⟨f0, f1, f2, f3, _⟩ A => by
    rw [decodeLane, A 24 6 rfl, A 0 6 rfl, bit_of_fld f0, bv_of_fld f1, bv_of_fld f2, bv_of_fld f3]
    exact accept_ok h
theorem Encode.dmul (e : Bool) (d a b : BitVec 6) : Encode.Statement (.dmul e d a b) :=
  encode_ofLane 0x18000002 [(e.toNat, 30, 1), (d.toNat, 18, 6), (a.toNat, 12, 6), (b.toNat, 6, 6)]
    [(30, 1), (18, 6), (12, 6), (6, 6)] rfl rfl ⟨e.toNat_lt, d.isLt, a.isLt, b.isLt, trivial⟩ rfl fun h w ⟨f0, f1, f2, f3, _⟩ A => by
    rw [decodeLane, A 24 6 rfl, A 0 6 rfl, bit_of_fld f0, bv_of_fld f1, bv_of_fld f2, bv_of_fld f3]
    exact accept_ok h
theorem Encode.dfma (e : Bool) (d a b : BitVec 6) : Encode.Statement (.dfma e d a b) :=
  encode_ofLane 0x18000003 [(e.toNat, 30, 1), (d.toNat, 18, 6), (a.toNat, 12, 6), (b.toNat, 6, 6)]
    [(30, 1), (18, 6), (12, 6), (6, 6)] rfl rfl ⟨e.toNat_lt, d.isLt, a.isLt, b.isLt, trivial⟩ rfl fun h w ⟨f0, f1, f2, f3, _⟩ A => by
    rw [decodeLane, A 24 6 rfl, A 0 6 rfl, bit_of_fld f0, bv_of_fld f1, bv_of_fld f2, bv_of_fld f3]
    exact accept_ok h
theorem Encode.dmin (e : Bool) (d a b : BitVec 6) : Encode.Statement (.dmin e d a b) :=
  encode_ofLane 0x18000004 [(e.toNat, 30, 1), (d.toNat, 18, 6), (a.toNat, 12, 6), (b.toNat, 6, 6)]
    [(30, 1), (18, 6), (12, 6), (6, 6)] rfl rfl ⟨e.toNat_lt, d.isLt, a.isLt, b.isLt, trivial⟩ rfl fun h w ⟨f0, f1, f2, f3, _⟩ A => by
    rw [decodeLane, A 24 6 rfl, A 0 6 rfl, bit_of_fld f0, bv_of_fld f1, bv_of_fld f2, bv_of_fld f3]
    exact accept_ok h
theorem Encode.dmax (e : Bool) (d a b : BitVec 6) : Encode.Statement (.dmax e d a b) :=
  encode_ofLane 0x18000005 [(e.toNat, 30, 1), (d.toNat, 18, 6), (a.toNat, 12, 6), (b.toNat, 6, 6)]
    [(30, 1), (18, 6), (12, 6), (6, 6)] rfl rfl ⟨e.toNat_lt, d.isLt, a.isLt, b.isLt, trivial⟩ rfl fun h w ⟨f0, f1, f2, f3, _⟩ A => by
    rw [decodeLane, A 24 6 rfl, A 0 6 rfl, bit_of_fld f0, bv_of_fld f1, bv_of_fld f2, bv_of_fld f3]
    exact accept_ok h
theorem Encode.dcmp (e : Bool) (p : BitVec 4) (c : BitVec 2) (a b k : BitVec 6) : Encode.Statement (.dcmp e p c a b k) :=
  encode_ofLane 0x19000000 [(e.toNat, 30, 1), (p.toNat, 20, 4), (c.toNat, 18, 2), (a.toNat, 12, 6), (b.toNat, 6, 6), (k.toNat, 0, 6)]
    [(30, 1), (20, 4), (18, 2), (12, 6), (6, 6), (0, 6)] rfl rfl ⟨e.toNat_lt, p.isLt, c.isLt, a.isLt, b.isLt, k.isLt, trivial⟩ rfl fun h w ⟨f0, f1, f2, f3, f4, f5, _⟩ A => by
    rw [decodeLane, A 24 6 rfl, bit_of_fld f0, bv_of_fld f1, bv_of_fld f2, bv_of_fld f3, bv_of_fld f4, bv_of_fld f5]
    exact accept_ok h
theorem Encode.frcp (e : Bool) (d a : BitVec 6) : Encode.Statement (.frcp e d a) :=
  encode_ofLane 0x1C000000 [(e.toNat, 30, 1), (d.toNat, 18, 6), (a.toNat, 12, 6)]
    [(30, 1), (18, 6), (12, 6)] rfl rfl ⟨e.toNat_lt, d.isLt, a.isLt, trivial⟩ rfl fun h w ⟨f0, f1, f2, _⟩ A => by
    rw [decodeLane, A 24 6 rfl, A 0 6 rfl, A 6 6 rfl, bit_of_fld f0, bv_of_fld f1, bv_of_fld f2]
    exact accept_ok h
theorem Encode.frsq (e : Bool) (d a : BitVec 6) : Encode.Statement (.frsq e d a) :=
  encode_ofLane 0x1C000001 [(e.toNat, 30, 1), (d.toNat, 18, 6), (a.toNat, 12, 6)]
    [(30, 1), (18, 6), (12, 6)] rfl rfl ⟨e.toNat_lt, d.isLt, a.isLt, trivial⟩ rfl fun h w ⟨f0, f1, f2, _⟩ A => by
    rw [decodeLane, A 24 6 rfl, A 0 6 rfl, A 6 6 rfl, bit_of_fld f0, bv_of_fld f1, bv_of_fld f2]
    exact accept_ok h
theorem Encode.fsqrt (e : Bool) (d a : BitVec 6) : Encode.Statement (.fsqrt e d a) :=
  encode_ofLane 0x1C000002 [(e.toNat, 30, 1), (d.toNat, 18, 6), (a.toNat, 12, 6)]
    [(30, 1), (18, 6), (12, 6)] rfl rfl ⟨e.toNat_lt, d.isLt, a.isLt, trivial⟩ rfl fun h w ⟨f0, f1, f2, _⟩ A => by
    rw [decodeLane, A 24 6 rfl, A 0 6 rfl, A 6 6 rfl, bit_of_fld f0, bv_of_fld f1, bv_of_fld f2]
    exact accept_ok h
theorem Encode.fdiv (e : Bool) (d a b : BitVec 6) : Encode.Statement (.fdiv e d a b) :=
  encode_ofLane 0x1C000003 [(e.toNat, 30, 1), (d.toNat, 18, 6), (a.toNat, 12, 6), (b.toNat, 6, 6)]
    [(30, 1), (18, 6), (12, 6), (6, 6)] rfl rfl ⟨e.toNat_lt, d.isLt, a.isLt, b.isLt, trivial⟩ rfl fun h w ⟨f0, f1, f2, f3, _⟩ A => by
    rw [decodeLane, A 24 6 rfl, A 0 6 rfl, bit_of_fld f0, bv_of_fld f1, bv_of_fld f2, bv_of_fld f3]
    exact accept_ok h
theorem Encode.fexp2 (e : Bool) (d a : BitVec 6) : Encode.Statement (.fexp2 e d a) :=
  encode_ofLane 0x1C000004 [(e.toNat, 30, 1), (d.toNat, 18, 6), (a.toNat, 12, 6)]
    [(30, 1), (18, 6), (12, 6)] rfl rfl ⟨e.toNat_lt, d.isLt, a.isLt, trivial⟩ rfl fun h w ⟨f0, f1, f2, _⟩ A => by
    rw [decodeLane, A 24 6 rfl, A 0 6 rfl, A 6 6 rfl, bit_of_fld f0, bv_of_fld f1, bv_of_fld f2]
    exact accept_ok h
theorem Encode.flog2 (e : Bool) (d a : BitVec 6) : Encode.Statement (.flog2 e d a) :=
  encode_ofLane 0x1C000005 [(e.toNat, 30, 1), (d.toNat, 18, 6), (a.toNat, 12, 6)]
    [(30, 1), (18, 6), (12, 6)] rfl rfl ⟨e.toNat_lt, d.isLt, a.isLt, trivial⟩ rfl fun h w ⟨f0, f1, f2, _⟩ A => by
    rw [decodeLane, A 24 6 rfl, A 0 6 rfl, A 6 6 rfl, bit_of_fld f0, bv_of_fld f1, bv_of_fld f2]
    exact accept_ok h
theorem Encode.fsinpi (e : Bool) (d a : BitVec 6) : Encode.Statement (.fsinpi e d a) :=
  encode_ofLane 0x1C000006 [(e.toNat, 30, 1), (d.toNat, 18, 6), (a.toNat, 12, 6)]
    [(30, 1), (18, 6), (12, 6)] rfl rfl ⟨e.toNat_lt, d.isLt, a.isLt, trivial⟩ rfl fun h w ⟨f0, f1, f2, _⟩ A => by
    rw [decodeLane, A 24 6 rfl, A 0 6 rfl, A 6 6 rfl, bit_of_fld f0, bv_of_fld f1, bv_of_fld f2]
    exact accept_ok h
theorem Encode.fcospi (e : Bool) (d a : BitVec 6) : Encode.Statement (.fcospi e d a) :=
  encode_ofLane 0x1C000007 [(e.toNat, 30, 1), (d.toNat, 18, 6), (a.toNat, 12, 6)]
    [(30, 1), (18, 6), (12, 6)] rfl rfl ⟨e.toNat_lt, d.isLt, a.isLt, trivial⟩ rfl fun h w ⟨f0, f1, f2, _⟩ A => by
    rw [decodeLane, A 24 6 rfl, A 0 6 rfl, A 6 6 rfl, bit_of_fld f0, bv_of_fld f1, bv_of_fld f2]
    exact accept_ok h
theorem Encode.ftanh (e : Bool) (d a : BitVec 6) : Encode.Statement (.ftanh e d a) :=
  encode_ofLane 0x1C000008 [(e.toNat, 30, 1), (d.toNat, 18, 6), (a.toNat, 12, 6)]
    [(30, 1), (18, 6), (12, 6)] rfl rfl ⟨e.toNat_lt, d.isLt, a.isLt, trivial⟩ rfl fun h w ⟨f0, f1, f2, _⟩ A => by
    rw [decodeLane, A 24 6 rfl, A 0 6 rfl, A 6 6 rfl, bit_of_fld f0, bv_of_fld f1, bv_of_fld f2]
    exact accept_ok h
theorem Encode.drcp (e : Bool) (d a : BitVec 6) : Encode.Statement (.drcp e d a) :=
  encode_ofLane 0x1C000010 [(e.toNat, 30, 1), (d.toNat, 18, 6), (a.toNat, 12, 6)]
    [(30, 1), (18, 6), (12, 6)] rfl rfl ⟨e.toNat_lt, d.isLt, a.isLt, trivial⟩ rfl fun h w ⟨f0, f1, f2, _⟩ A => by
    rw [decodeLane, A 24 6 rfl, A 0 6 rfl, A 6 6 rfl, bit_of_fld f0, bv_of_fld f1, bv_of_fld f2]
    exact accept_ok h
theorem Encode.drsq (e : Bool) (d a : BitVec 6) : Encode.Statement (.drsq e d a) :=
  encode_ofLane 0x1C000011 [(e.toNat, 30, 1), (d.toNat, 18, 6), (a.toNat, 12, 6)]
    [(30, 1), (18, 6), (12, 6)] rfl rfl ⟨e.toNat_lt, d.isLt, a.isLt, trivial⟩ rfl fun h w ⟨f0, f1, f2, _⟩ A => by
    rw [decodeLane, A 24 6 rfl, A 0 6 rfl, A 6 6 rfl, bit_of_fld f0, bv_of_fld f1, bv_of_fld f2]
    exact accept_ok h
theorem Encode.ddiv (e : Bool) (d a b : BitVec 6) : Encode.Statement (.ddiv e d a b) :=
  encode_ofLane 0x1C000012 [(e.toNat, 30, 1), (d.toNat, 18, 6), (a.toNat, 12, 6), (b.toNat, 6, 6)]
    [(30, 1), (18, 6), (12, 6), (6, 6)] rfl rfl ⟨e.toNat_lt, d.isLt, a.isLt, b.isLt, trivial⟩ rfl fun h w ⟨f0, f1, f2, f3, _⟩ A => by
    rw [decodeLane, A 24 6 rfl, A 0 6 rfl, bit_of_fld f0, bv_of_fld f1, bv_of_fld f2, bv_of_fld f3]
    exact accept_ok h
theorem Encode.cvt (e : Bool) (d a x_s t : BitVec 6) : Encode.Statement (.cvt e d a x_s t) :=
  encode_ofLane 0x1D000000 [(e.toNat, 30, 1), (d.toNat, 18, 6), (a.toNat, 12, 6), (x_s.toNat, 6, 6), (t.toNat, 0, 6)]
    [(30, 1), (18, 6), (12, 6), (6, 6), (0, 6)] rfl rfl ⟨e.toNat_lt, d.isLt, a.isLt, x_s.isLt, t.isLt, trivial⟩ rfl fun h w ⟨f0, f1, f2, f3, f4, _⟩ A => by
    rw [decodeLane, A 24 6 rfl, bit_of_fld f0, bv_of_fld f1, bv_of_fld f2, bv_of_fld f3, bv_of_fld f4]
    exact accept_ok h
theorem Encode.qntTf8 (e : Bool) (d a b : BitVec 6) : Encode.Statement (.qntTf8 e d a b) :=
  encode_ofLane 0x1E000000 [(e.toNat, 30, 1), (d.toNat, 18, 6), (a.toNat, 12, 6), (b.toNat, 6, 6)]
    [(30, 1), (18, 6), (12, 6), (6, 6)] rfl rfl ⟨e.toNat_lt, d.isLt, a.isLt, b.isLt, trivial⟩ rfl fun h w ⟨f0, f1, f2, f3, _⟩ A => by
    rw [decodeLane, A 24 6 rfl, A 0 6 rfl, bit_of_fld f0, bv_of_fld f1, bv_of_fld f2, bv_of_fld f3]
    exact accept_ok h
theorem Encode.qntTf6 (e : Bool) (d a b : BitVec 6) : Encode.Statement (.qntTf6 e d a b) :=
  encode_ofLane 0x1E000001 [(e.toNat, 30, 1), (d.toNat, 18, 6), (a.toNat, 12, 6), (b.toNat, 6, 6)]
    [(30, 1), (18, 6), (12, 6), (6, 6)] rfl rfl ⟨e.toNat_lt, d.isLt, a.isLt, b.isLt, trivial⟩ rfl fun h w ⟨f0, f1, f2, f3, _⟩ A => by
    rw [decodeLane, A 24 6 rfl, A 0 6 rfl, bit_of_fld f0, bv_of_fld f1, bv_of_fld f2, bv_of_fld f3]
    exact accept_ok h
theorem Encode.dqntTf8 (e : Bool) (d a b : BitVec 6) : Encode.Statement (.dqntTf8 e d a b) :=
  encode_ofLane 0x1E000002 [(e.toNat, 30, 1), (d.toNat, 18, 6), (a.toNat, 12, 6), (b.toNat, 6, 6)]
    [(30, 1), (18, 6), (12, 6), (6, 6)] rfl rfl ⟨e.toNat_lt, d.isLt, a.isLt, b.isLt, trivial⟩ rfl fun h w ⟨f0, f1, f2, f3, _⟩ A => by
    rw [decodeLane, A 24 6 rfl, A 0 6 rfl, bit_of_fld f0, bv_of_fld f1, bv_of_fld f2, bv_of_fld f3]
    exact accept_ok h
theorem Encode.dqntTf6 (e : Bool) (d a b : BitVec 6) : Encode.Statement (.dqntTf6 e d a b) :=
  encode_ofLane 0x1E000003 [(e.toNat, 30, 1), (d.toNat, 18, 6), (a.toNat, 12, 6), (b.toNat, 6, 6)]
    [(30, 1), (18, 6), (12, 6), (6, 6)] rfl rfl ⟨e.toNat_lt, d.isLt, a.isLt, b.isLt, trivial⟩ rfl fun h w ⟨f0, f1, f2, f3, _⟩ A => by
    rw [decodeLane, A 24 6 rfl, A 0 6 rfl, bit_of_fld f0, bv_of_fld f1, bv_of_fld f2, bv_of_fld f3]
    exact accept_ok h
theorem Encode.ctbl (e : Bool) (d a b : BitVec 6) : Encode.Statement (.ctbl e d a b) :=
  encode_ofLane 0x1F000000 [(e.toNat, 30, 1), (d.toNat, 18, 6), (a.toNat, 12, 6), (b.toNat, 6, 6)]
    [(30, 1), (18, 6), (12, 6), (6, 6)] rfl rfl ⟨e.toNat_lt, d.isLt, a.isLt, b.isLt, trivial⟩ rfl fun h w ⟨f0, f1, f2, f3, _⟩ A => by
    rw [decodeLane, A 24 6 rfl, A 0 6 rfl, bit_of_fld f0, bv_of_fld f1, bv_of_fld f2, bv_of_fld f3]
    exact accept_ok h
theorem Encode.ld (e : Bool) (d a : BitVec 6) (b : BitVec 5) (m : BitVec 1) (z x_s : BitVec 3) : Encode.Statement (.ld e d a b m z x_s) :=
  encode_ofLane 0x20000000 [(e.toNat, 30, 1), (d.toNat, 18, 6), (a.toNat, 12, 6), (b.toNat, 7, 5), (m.toNat, 6, 1), (z.toNat, 3, 3), (x_s.toNat, 0, 3)]
    [(30, 1), (18, 6), (12, 6), (7, 5), (6, 1), (3, 3), (0, 3)] rfl rfl ⟨e.toNat_lt, d.isLt, a.isLt, b.isLt, m.isLt, z.isLt, x_s.isLt, trivial⟩ rfl fun h w ⟨f0, f1, f2, f3, f4, f5, f6, _⟩ A => by
    rw [decodeLane, A 24 6 rfl, bit_of_fld f0, bv_of_fld f1, bv_of_fld f2, bv_of_fld f3, bv_of_fld f4, bv_of_fld f5, bv_of_fld f6]
    exact accept_ok h
theorem Encode.st (e : Bool) (d a : BitVec 6) (b : BitVec 5) (m : BitVec 1) (z x_s : BitVec 3) : Encode.Statement (.st e d a b m z x_s) :=
  encode_ofLane 0x21000000 [(e.toNat, 30, 1), (d.toNat, 18, 6), (a.toNat, 12, 6), (b.toNat, 7, 5), (m.toNat, 6, 1), (z.toNat, 3, 3), (x_s.toNat, 0, 3)]
    [(30, 1), (18, 6), (12, 6), (7, 5), (6, 1), (3, 3), (0, 3)] rfl rfl ⟨e.toNat_lt, d.isLt, a.isLt, b.isLt, m.isLt, z.isLt, x_s.isLt, trivial⟩ rfl fun h w ⟨f0, f1, f2, f3, f4, f5, f6, _⟩ A => by
    rw [decodeLane, A 24 6 rfl, bit_of_fld f0, bv_of_fld f1, bv_of_fld f2, bv_of_fld f3, bv_of_fld f4, bv_of_fld f5, bv_of_fld f6]
    exact accept_ok h
theorem Encode.pfetch (e : Bool) (a : BitVec 6) (b : BitVec 5) (m : BitVec 1) (x_s : BitVec 3) : Encode.Statement (.pfetch e a b m x_s) :=
  encode_ofLane 0x22000000 [(e.toNat, 30, 1), (a.toNat, 12, 6), (b.toNat, 7, 5), (m.toNat, 6, 1), (x_s.toNat, 0, 3)]
    [(30, 1), (12, 6), (7, 5), (6, 1), (0, 3)] rfl rfl ⟨e.toNat_lt, a.isLt, b.isLt, m.isLt, x_s.isLt, trivial⟩ rfl fun h w ⟨f0, f1, f2, f3, f4, _⟩ A => by
    rw [decodeLane, A 24 6 rfl, A 3 3 rfl, A 18 6 rfl, bit_of_fld f0, bv_of_fld f1, bv_of_fld f2, bv_of_fld f3, bv_of_fld f4]
    exact accept_ok h
theorem Encode.mcst (e : Bool) (d a : BitVec 6) (b : BitVec 5) (m z : BitVec 1) (c : BitVec 2) : Encode.Statement (.mcst e d a b m z c) :=
  encode_ofLane 0x23000010 [(e.toNat, 30, 1), (d.toNat, 18, 6), (a.toNat, 12, 6), (b.toNat, 7, 5), (m.toNat, 6, 1), (z.toNat, 3, 1), (c.toNat, 0, 2)]
    [(30, 1), (18, 6), (12, 6), (7, 5), (6, 1), (3, 1), (0, 2)] rfl rfl ⟨e.toNat_lt, d.isLt, a.isLt, b.isLt, m.isLt, z.isLt, c.isLt, trivial⟩ rfl fun h w ⟨f0, f1, f2, f3, f4, f5, f6, _⟩ A => by
    rw [decodeLane, A 24 6 rfl, A 4 2 rfl, A 2 1 rfl, bit_of_fld f0, bv_of_fld f1, bv_of_fld f2, bv_of_fld f3, bv_of_fld f4, bv_of_fld f5, bv_of_fld f6]
    exact accept_ok h
theorem Encode.fence (e : Bool) (x_s : BitVec 3) : Encode.Statement (.fence e x_s) :=
  encode_ofLane 0x24000000 [(e.toNat, 30, 1), (x_s.toNat, 0, 3)]
    [(30, 1), (0, 3)] rfl rfl ⟨e.toNat_lt, x_s.isLt, trivial⟩ rfl fun h w ⟨f0, f1, _⟩ A => by
    rw [decodeLane, A 24 6 rfl, A 3 21 rfl, bit_of_fld f0, bv_of_fld f1]
    exact accept_ok h
theorem Encode.aadd (e : Bool) (d a : BitVec 6) (b : BitVec 5) (m x_w p : BitVec 1) : Encode.Statement (.aadd e d a b m x_w p) :=
  encode_ofLane 0x28000000 [(e.toNat, 30, 1), (d.toNat, 18, 6), (a.toNat, 12, 6), (b.toNat, 7, 5), (m.toNat, 6, 1), (x_w.toNat, 5, 1), (p.toNat, 4, 1)]
    [(30, 1), (18, 6), (12, 6), (7, 5), (6, 1), (5, 1), (4, 1)] rfl rfl ⟨e.toNat_lt, d.isLt, a.isLt, b.isLt, m.isLt, x_w.isLt, p.isLt, trivial⟩ rfl fun h w ⟨f0, f1, f2, f3, f4, f5, f6, _⟩ A => by
    rw [decodeLane, A 24 6 rfl, A 0 4 rfl, bit_of_fld f0, bv_of_fld f1, bv_of_fld f2, bv_of_fld f3, bv_of_fld f4, bv_of_fld f5, bv_of_fld f6]
    exact accept_ok h
theorem Encode.amin (e : Bool) (d a : BitVec 6) (b : BitVec 5) (m x_w p : BitVec 1) : Encode.Statement (.amin e d a b m x_w p) :=
  encode_ofLane 0x28000001 [(e.toNat, 30, 1), (d.toNat, 18, 6), (a.toNat, 12, 6), (b.toNat, 7, 5), (m.toNat, 6, 1), (x_w.toNat, 5, 1), (p.toNat, 4, 1)]
    [(30, 1), (18, 6), (12, 6), (7, 5), (6, 1), (5, 1), (4, 1)] rfl rfl ⟨e.toNat_lt, d.isLt, a.isLt, b.isLt, m.isLt, x_w.isLt, p.isLt, trivial⟩ rfl fun h w ⟨f0, f1, f2, f3, f4, f5, f6, _⟩ A => by
    rw [decodeLane, A 24 6 rfl, A 0 4 rfl, bit_of_fld f0, bv_of_fld f1, bv_of_fld f2, bv_of_fld f3, bv_of_fld f4, bv_of_fld f5, bv_of_fld f6]
    exact accept_ok h
theorem Encode.amax (e : Bool) (d a : BitVec 6) (b : BitVec 5) (m x_w p : BitVec 1) : Encode.Statement (.amax e d a b m x_w p) :=
  encode_ofLane 0x28000002 [(e.toNat, 30, 1), (d.toNat, 18, 6), (a.toNat, 12, 6), (b.toNat, 7, 5), (m.toNat, 6, 1), (x_w.toNat, 5, 1), (p.toNat, 4, 1)]
    [(30, 1), (18, 6), (12, 6), (7, 5), (6, 1), (5, 1), (4, 1)] rfl rfl ⟨e.toNat_lt, d.isLt, a.isLt, b.isLt, m.isLt, x_w.isLt, p.isLt, trivial⟩ rfl fun h w ⟨f0, f1, f2, f3, f4, f5, f6, _⟩ A => by
    rw [decodeLane, A 24 6 rfl, A 0 4 rfl, bit_of_fld f0, bv_of_fld f1, bv_of_fld f2, bv_of_fld f3, bv_of_fld f4, bv_of_fld f5, bv_of_fld f6]
    exact accept_ok h
theorem Encode.aand (e : Bool) (d a : BitVec 6) (b : BitVec 5) (m x_w p : BitVec 1) : Encode.Statement (.aand e d a b m x_w p) :=
  encode_ofLane 0x28000003 [(e.toNat, 30, 1), (d.toNat, 18, 6), (a.toNat, 12, 6), (b.toNat, 7, 5), (m.toNat, 6, 1), (x_w.toNat, 5, 1), (p.toNat, 4, 1)]
    [(30, 1), (18, 6), (12, 6), (7, 5), (6, 1), (5, 1), (4, 1)] rfl rfl ⟨e.toNat_lt, d.isLt, a.isLt, b.isLt, m.isLt, x_w.isLt, p.isLt, trivial⟩ rfl fun h w ⟨f0, f1, f2, f3, f4, f5, f6, _⟩ A => by
    rw [decodeLane, A 24 6 rfl, A 0 4 rfl, bit_of_fld f0, bv_of_fld f1, bv_of_fld f2, bv_of_fld f3, bv_of_fld f4, bv_of_fld f5, bv_of_fld f6]
    exact accept_ok h
theorem Encode.aor (e : Bool) (d a : BitVec 6) (b : BitVec 5) (m x_w p : BitVec 1) : Encode.Statement (.aor e d a b m x_w p) :=
  encode_ofLane 0x28000004 [(e.toNat, 30, 1), (d.toNat, 18, 6), (a.toNat, 12, 6), (b.toNat, 7, 5), (m.toNat, 6, 1), (x_w.toNat, 5, 1), (p.toNat, 4, 1)]
    [(30, 1), (18, 6), (12, 6), (7, 5), (6, 1), (5, 1), (4, 1)] rfl rfl ⟨e.toNat_lt, d.isLt, a.isLt, b.isLt, m.isLt, x_w.isLt, p.isLt, trivial⟩ rfl fun h w ⟨f0, f1, f2, f3, f4, f5, f6, _⟩ A => by
    rw [decodeLane, A 24 6 rfl, A 0 4 rfl, bit_of_fld f0, bv_of_fld f1, bv_of_fld f2, bv_of_fld f3, bv_of_fld f4, bv_of_fld f5, bv_of_fld f6]
    exact accept_ok h
theorem Encode.axor (e : Bool) (d a : BitVec 6) (b : BitVec 5) (m x_w p : BitVec 1) : Encode.Statement (.axor e d a b m x_w p) :=
  encode_ofLane 0x28000005 [(e.toNat, 30, 1), (d.toNat, 18, 6), (a.toNat, 12, 6), (b.toNat, 7, 5), (m.toNat, 6, 1), (x_w.toNat, 5, 1), (p.toNat, 4, 1)]
    [(30, 1), (18, 6), (12, 6), (7, 5), (6, 1), (5, 1), (4, 1)] rfl rfl ⟨e.toNat_lt, d.isLt, a.isLt, b.isLt, m.isLt, x_w.isLt, p.isLt, trivial⟩ rfl fun h w ⟨f0, f1, f2, f3, f4, f5, f6, _⟩ A => by
    rw [decodeLane, A 24 6 rfl, A 0 4 rfl, bit_of_fld f0, bv_of_fld f1, bv_of_fld f2, bv_of_fld f3, bv_of_fld f4, bv_of_fld f5, bv_of_fld f6]
    exact accept_ok h
theorem Encode.axch (e : Bool) (d a : BitVec 6) (b : BitVec 5) (m x_w p : BitVec 1) : Encode.Statement (.axch e d a b m x_w p) :=
  encode_ofLane 0x28000006 [(e.toNat, 30, 1), (d.toNat, 18, 6), (a.toNat, 12, 6), (b.toNat, 7, 5), (m.toNat, 6, 1), (x_w.toNat, 5, 1), (p.toNat, 4, 1)]
    [(30, 1), (18, 6), (12, 6), (7, 5), (6, 1), (5, 1), (4, 1)] rfl rfl ⟨e.toNat_lt, d.isLt, a.isLt, b.isLt, m.isLt, x_w.isLt, p.isLt, trivial⟩ rfl fun h w ⟨f0, f1, f2, f3, f4, f5, f6, _⟩ A => by
    rw [decodeLane, A 24 6 rfl, A 0 4 rfl, bit_of_fld f0, bv_of_fld f1, bv_of_fld f2, bv_of_fld f3, bv_of_fld f4, bv_of_fld f5, bv_of_fld f6]
    exact accept_ok h
theorem Encode.acas (e : Bool) (d a : BitVec 6) (b : BitVec 5) (m x_w p : BitVec 1) : Encode.Statement (.acas e d a b m x_w p) :=
  encode_ofLane 0x28000007 [(e.toNat, 30, 1), (d.toNat, 18, 6), (a.toNat, 12, 6), (b.toNat, 7, 5), (m.toNat, 6, 1), (x_w.toNat, 5, 1), (p.toNat, 4, 1)]
    [(30, 1), (18, 6), (12, 6), (7, 5), (6, 1), (5, 1), (4, 1)] rfl rfl ⟨e.toNat_lt, d.isLt, a.isLt, b.isLt, m.isLt, x_w.isLt, p.isLt, trivial⟩ rfl fun h w ⟨f0, f1, f2, f3, f4, f5, f6, _⟩ A => by
    rw [decodeLane, A 24 6 rfl, A 0 4 rfl, bit_of_fld f0, bv_of_fld f1, bv_of_fld f2, bv_of_fld f3, bv_of_fld f4, bv_of_fld f5, bv_of_fld f6]
    exact accept_ok h
theorem Encode.afadd (e : Bool) (d a : BitVec 6) (b : BitVec 5) (m x_w p : BitVec 1) : Encode.Statement (.afadd e d a b m x_w p) :=
  encode_ofLane 0x28000008 [(e.toNat, 30, 1), (d.toNat, 18, 6), (a.toNat, 12, 6), (b.toNat, 7, 5), (m.toNat, 6, 1), (x_w.toNat, 5, 1), (p.toNat, 4, 1)]
    [(30, 1), (18, 6), (12, 6), (7, 5), (6, 1), (5, 1), (4, 1)] rfl rfl ⟨e.toNat_lt, d.isLt, a.isLt, b.isLt, m.isLt, x_w.isLt, p.isLt, trivial⟩ rfl fun h w ⟨f0, f1, f2, f3, f4, f5, f6, _⟩ A => by
    rw [decodeLane, A 24 6 rfl, A 0 4 rfl, bit_of_fld f0, bv_of_fld f1, bv_of_fld f2, bv_of_fld f3, bv_of_fld f4, bv_of_fld f5, bv_of_fld f6]
    exact accept_ok h
theorem Encode.vote (e : Bool) (d a : BitVec 6) (m : BitVec 5) (v : BitVec 4) : Encode.Statement (.vote e d a m v) :=
  encode_ofLane 0x2C000000 [(e.toNat, 30, 1), (d.toNat, 18, 6), (a.toNat, 12, 6), (m.toNat, 7, 5), (v.toNat, 0, 4)]
    [(30, 1), (18, 6), (12, 6), (7, 5), (0, 4)] rfl rfl ⟨e.toNat_lt, d.isLt, a.isLt, m.isLt, v.isLt, trivial⟩ rfl fun h w ⟨f0, f1, f2, f3, f4, _⟩ A => by
    rw [decodeLane, A 24 6 rfl, A 4 3 rfl, bit_of_fld f0, bv_of_fld f1, bv_of_fld f2, bv_of_fld f3, bv_of_fld f4]
    exact accept_ok h
theorem Encode.redux (e : Bool) (d a : BitVec 6) (m : BitVec 5) (v : BitVec 4) : Encode.Statement (.redux e d a m v) :=
  encode_ofLane 0x2C000010 [(e.toNat, 30, 1), (d.toNat, 18, 6), (a.toNat, 12, 6), (m.toNat, 7, 5), (v.toNat, 0, 4)]
    [(30, 1), (18, 6), (12, 6), (7, 5), (0, 4)] rfl rfl ⟨e.toNat_lt, d.isLt, a.isLt, m.isLt, v.isLt, trivial⟩ rfl fun h w ⟨f0, f1, f2, f3, f4, _⟩ A => by
    rw [decodeLane, A 24 6 rfl, A 4 3 rfl, bit_of_fld f0, bv_of_fld f1, bv_of_fld f2, bv_of_fld f3, bv_of_fld f4]
    exact accept_ok h
theorem Encode.scanInc (e : Bool) (d a : BitVec 6) (m : BitVec 5) (v : BitVec 4) : Encode.Statement (.scanInc e d a m v) :=
  encode_ofLane 0x2C000020 [(e.toNat, 30, 1), (d.toNat, 18, 6), (a.toNat, 12, 6), (m.toNat, 7, 5), (v.toNat, 0, 4)]
    [(30, 1), (18, 6), (12, 6), (7, 5), (0, 4)] rfl rfl ⟨e.toNat_lt, d.isLt, a.isLt, m.isLt, v.isLt, trivial⟩ rfl fun h w ⟨f0, f1, f2, f3, f4, _⟩ A => by
    rw [decodeLane, A 24 6 rfl, A 4 3 rfl, bit_of_fld f0, bv_of_fld f1, bv_of_fld f2, bv_of_fld f3, bv_of_fld f4]
    exact accept_ok h
theorem Encode.scanExc (e : Bool) (d a : BitVec 6) (m : BitVec 5) (v : BitVec 4) : Encode.Statement (.scanExc e d a m v) :=
  encode_ofLane 0x2C000030 [(e.toNat, 30, 1), (d.toNat, 18, 6), (a.toNat, 12, 6), (m.toNat, 7, 5), (v.toNat, 0, 4)]
    [(30, 1), (18, 6), (12, 6), (7, 5), (0, 4)] rfl rfl ⟨e.toNat_lt, d.isLt, a.isLt, m.isLt, v.isLt, trivial⟩ rfl fun h w ⟨f0, f1, f2, f3, f4, _⟩ A => by
    rw [decodeLane, A 24 6 rfl, A 4 3 rfl, bit_of_fld f0, bv_of_fld f1, bv_of_fld f2, bv_of_fld f3, bv_of_fld f4]
    exact accept_ok h
theorem Encode.had (e : Bool) (d a : BitVec 6) (m : BitVec 5) : Encode.Statement (.had e d a m) :=
  encode_ofLane 0x2C000040 [(e.toNat, 30, 1), (d.toNat, 18, 6), (a.toNat, 12, 6), (m.toNat, 7, 5)]
    [(30, 1), (18, 6), (12, 6), (7, 5)] rfl rfl ⟨e.toNat_lt, d.isLt, a.isLt, m.isLt, trivial⟩ rfl fun h w ⟨f0, f1, f2, f3, _⟩ A => by
    rw [decodeLane, A 24 6 rfl, A 4 3 rfl, A 0 4 rfl, bit_of_fld f0, bv_of_fld f1, bv_of_fld f2, bv_of_fld f3]
    exact accept_ok h
theorem Encode.shflIdx (e : Bool) (d a : BitVec 6) (m x_s : BitVec 5) : Encode.Statement (.shflIdx e d a m x_s) :=
  encode_ofLane 0x2D000000 [(e.toNat, 30, 1), (d.toNat, 18, 6), (a.toNat, 12, 6), (m.toNat, 7, 5), (x_s.toNat, 0, 5)]
    [(30, 1), (18, 6), (12, 6), (7, 5), (0, 5)] rfl rfl ⟨e.toNat_lt, d.isLt, a.isLt, m.isLt, x_s.isLt, trivial⟩ rfl fun h w ⟨f0, f1, f2, f3, f4, _⟩ A => by
    rw [decodeLane, A 24 6 rfl, A 5 2 rfl, bit_of_fld f0, bv_of_fld f1, bv_of_fld f2, bv_of_fld f3, bv_of_fld f4]
    exact accept_ok h
theorem Encode.shflSidx (e : Bool) (d a : BitVec 6) (m x_s : BitVec 5) : Encode.Statement (.shflSidx e d a m x_s) :=
  encode_ofLane 0x2D000020 [(e.toNat, 30, 1), (d.toNat, 18, 6), (a.toNat, 12, 6), (m.toNat, 7, 5), (x_s.toNat, 0, 5)]
    [(30, 1), (18, 6), (12, 6), (7, 5), (0, 5)] rfl rfl ⟨e.toNat_lt, d.isLt, a.isLt, m.isLt, x_s.isLt, trivial⟩ rfl fun h w ⟨f0, f1, f2, f3, f4, _⟩ A => by
    rw [decodeLane, A 24 6 rfl, A 5 2 rfl, bit_of_fld f0, bv_of_fld f1, bv_of_fld f2, bv_of_fld f3, bv_of_fld f4]
    exact accept_ok h
theorem Encode.shflXor (e : Bool) (d a : BitVec 6) (m x_s : BitVec 5) : Encode.Statement (.shflXor e d a m x_s) :=
  encode_ofLane 0x2D000040 [(e.toNat, 30, 1), (d.toNat, 18, 6), (a.toNat, 12, 6), (m.toNat, 7, 5), (x_s.toNat, 0, 5)]
    [(30, 1), (18, 6), (12, 6), (7, 5), (0, 5)] rfl rfl ⟨e.toNat_lt, d.isLt, a.isLt, m.isLt, x_s.isLt, trivial⟩ rfl fun h w ⟨f0, f1, f2, f3, f4, _⟩ A => by
    rw [decodeLane, A 24 6 rfl, A 5 2 rfl, bit_of_fld f0, bv_of_fld f1, bv_of_fld f2, bv_of_fld f3, bv_of_fld f4]
    exact accept_ok h
theorem Encode.shflVidx (e : Bool) (d a : BitVec 6) (m : BitVec 5) : Encode.Statement (.shflVidx e d a m) :=
  encode_ofLane 0x2D000060 [(e.toNat, 30, 1), (d.toNat, 18, 6), (a.toNat, 12, 6), (m.toNat, 7, 5)]
    [(30, 1), (18, 6), (12, 6), (7, 5)] rfl rfl ⟨e.toNat_lt, d.isLt, a.isLt, m.isLt, trivial⟩ rfl fun h w ⟨f0, f1, f2, f3, _⟩ A => by
    rw [decodeLane, A 24 6 rfl, A 5 2 rfl, A 0 5 rfl, bit_of_fld f0, bv_of_fld f1, bv_of_fld f2, bv_of_fld f3]
    exact accept_ok h
theorem Encode.bra (p : BitVec 4) (x_i : BitVec 1) (o : BitVec 19) : Encode.Statement (.bra p x_i o) :=
  encode_ofLane 0x70000000 [(p.toNat, 20, 4), (x_i.toNat, 19, 1), (o.toNat, 0, 19)]
    [(20, 4), (19, 1), (0, 19)] rfl rfl ⟨p.isLt, x_i.isLt, o.isLt, trivial⟩ rfl fun h w ⟨f0, f1, f2, _⟩ A => by
    rw [decodeLane, A 24 6 rfl, bv_of_fld f0, bv_of_fld f1, bv_of_fld f2]
    exact acceptEnd_ok (bit_of_fld (A 30 1 rfl)) h
theorem Encode.jmpi (a : BitVec 6) : Encode.Statement (.jmpi a) :=
  encode_ofLane 0x71000000 [(a.toNat, 12, 6)]
    [(12, 6)] rfl rfl ⟨a.isLt, trivial⟩ rfl fun h w ⟨f0, _⟩ A => by
    rw [decodeLane, A 24 6 rfl, A 0 6 rfl, A 6 6 rfl, A 18 6 rfl, bv_of_fld f0]
    exact acceptEnd_ok (bit_of_fld (A 30 1 rfl)) h
theorem Encode.calli (d a : BitVec 6) : Encode.Statement (.calli d a) :=
  encode_ofLane 0x71000001 [(d.toNat, 18, 6), (a.toNat, 12, 6)]
    [(18, 6), (12, 6)] rfl rfl ⟨d.isLt, a.isLt, trivial⟩ rfl fun h w ⟨f0, f1, _⟩ A => by
    rw [decodeLane, A 24 6 rfl, A 0 6 rfl, A 6 6 rfl, bv_of_fld f0, bv_of_fld f1]
    exact acceptEnd_ok (bit_of_fld (A 30 1 rfl)) h
theorem Encode.ret (a : BitVec 6) : Encode.Statement (.ret a) :=
  encode_ofLane 0x71000002 [(a.toNat, 12, 6)]
    [(12, 6)] rfl rfl ⟨a.isLt, trivial⟩ rfl fun h w ⟨f0, _⟩ A => by
    rw [decodeLane, A 24 6 rfl, A 0 6 rfl, A 6 6 rfl, A 18 6 rfl, bv_of_fld f0]
    exact acceptEnd_ok (bit_of_fld (A 30 1 rfl)) h
theorem Encode.jtab (n a : BitVec 6) (b : BitVec 5) : Encode.Statement (.jtab n a b) :=
  encode_ofLane 0x72000000 [(n.toNat, 18, 6), (a.toNat, 12, 6), (b.toNat, 7, 5)]
    [(18, 6), (12, 6), (7, 5)] rfl rfl ⟨n.isLt, a.isLt, b.isLt, trivial⟩ rfl fun h w ⟨f0, f1, f2, _⟩ A => by
    rw [decodeLane, A 24 6 rfl, A 0 7 rfl, bv_of_fld f0, bv_of_fld f1, bv_of_fld f2]
    exact acceptEnd_ok (bit_of_fld (A 30 1 rfl)) h
theorem Encode.call (d : BitVec 6) (o : BitVec 18) : Encode.Statement (.call d o) :=
  encode_ofLane 0x73000000 [(d.toNat, 18, 6), (o.toNat, 0, 18)]
    [(18, 6), (0, 18)] rfl rfl ⟨d.isLt, o.isLt, trivial⟩ rfl fun h w ⟨f0, f1, _⟩ A => by
    rw [decodeLane, A 24 6 rfl, bv_of_fld f0, bv_of_fld f1]
    exact acceptEnd_ok (bit_of_fld (A 30 1 rfl)) h
theorem Encode.mov (e : Bool) (d a : BitVec 6) : Encode.Statement (.mov e d a) :=
  encode_ofLane 0x34000000 [(e.toNat, 30, 1), (d.toNat, 18, 6), (a.toNat, 12, 6)]
    [(30, 1), (18, 6), (12, 6)] rfl rfl ⟨e.toNat_lt, d.isLt, a.isLt, trivial⟩ rfl fun h w ⟨f0, f1, f2, _⟩ A => by
    rw [decodeLane, A 24 6 rfl, A 0 6 rfl, A 6 6 rfl, bit_of_fld f0, bv_of_fld f1, bv_of_fld f2]
    exact accept_ok h
theorem Encode.sel (e : Bool) (d a b : BitVec 6) (p : BitVec 4) : Encode.Statement (.sel e d a b p) :=
  encode_ofLane 0x34000010 [(e.toNat, 30, 1), (d.toNat, 18, 6), (a.toNat, 12, 6), (b.toNat, 6, 6), (p.toNat, 0, 4)]
    [(30, 1), (18, 6), (12, 6), (6, 6), (0, 4)] rfl rfl ⟨e.toNat_lt, d.isLt, a.isLt, b.isLt, p.isLt, trivial⟩ rfl fun h w ⟨f0, f1, f2, f3, f4, _⟩ A => by
    have hk : fld w 0 6 = 16 + p.toNat := by
      have h4 : fld w 4 2 = 1 := A 4 2 rfl
      simp only [fld] at h4 f4 ⊢
      omega
    have h24 : fld w 24 6 = 0x34 := A 24 6 rfl
    rw [decodeLane, h24, bit_of_fld f0, bv_of_fld f1, bv_of_fld f2, bv_of_fld f3, bv_of_fld f4]
    show (match fld w 0 6 with
      | 0 => accept (fld w 6 6) (.mov e d a)
      | _ => if fld w 4 2 = 1 then accept 0 (.sel e d a b p) else .error .unusedMinor) = _
    split
    · omega
    · rw [A 4 2 rfl]
      exact accept_ok h
theorem Encode.s2vLo (e : Bool) (d a : BitVec 6) : Encode.Statement (.s2vLo e d a) :=
  encode_ofLane 0x35000000 [(e.toNat, 30, 1), (d.toNat, 18, 6), (a.toNat, 12, 6)]
    [(30, 1), (18, 6), (12, 6)] rfl rfl ⟨e.toNat_lt, d.isLt, a.isLt, trivial⟩ rfl fun h w ⟨f0, f1, f2, _⟩ A => by
    rw [decodeLane, A 24 6 rfl, A 0 6 rfl, A 6 6 rfl, bit_of_fld f0, bv_of_fld f1, bv_of_fld f2]
    exact accept_ok h
theorem Encode.s2vHi (e : Bool) (d a : BitVec 6) : Encode.Statement (.s2vHi e d a) :=
  encode_ofLane 0x35000001 [(e.toNat, 30, 1), (d.toNat, 18, 6), (a.toNat, 12, 6)]
    [(30, 1), (18, 6), (12, 6)] rfl rfl ⟨e.toNat_lt, d.isLt, a.isLt, trivial⟩ rfl fun h w ⟨f0, f1, f2, _⟩ A => by
    rw [decodeLane, A 24 6 rfl, A 0 6 rfl, A 6 6 rfl, bit_of_fld f0, bv_of_fld f1, bv_of_fld f2]
    exact accept_ok h
theorem Encode.v2sLo (e : Bool) (d a : BitVec 6) : Encode.Statement (.v2sLo e d a) :=
  encode_ofLane 0x35000002 [(e.toNat, 30, 1), (d.toNat, 18, 6), (a.toNat, 12, 6)]
    [(30, 1), (18, 6), (12, 6)] rfl rfl ⟨e.toNat_lt, d.isLt, a.isLt, trivial⟩ rfl fun h w ⟨f0, f1, f2, _⟩ A => by
    rw [decodeLane, A 24 6 rfl, A 0 6 rfl, A 6 6 rfl, bit_of_fld f0, bv_of_fld f1, bv_of_fld f2]
    exact accept_ok h
theorem Encode.v2sHi (e : Bool) (d a : BitVec 6) : Encode.Statement (.v2sHi e d a) :=
  encode_ofLane 0x35000003 [(e.toNat, 30, 1), (d.toNat, 18, 6), (a.toNat, 12, 6)]
    [(30, 1), (18, 6), (12, 6)] rfl rfl ⟨e.toNat_lt, d.isLt, a.isLt, trivial⟩ rfl fun h w ⟨f0, f1, f2, _⟩ A => by
    rw [decodeLane, A 24 6 rfl, A 0 6 rfl, A 6 6 rfl, bit_of_fld f0, bv_of_fld f1, bv_of_fld f2]
    exact accept_ok h
theorem Encode.v2sPair (e : Bool) (d a : BitVec 6) : Encode.Statement (.v2sPair e d a) :=
  encode_ofLane 0x35000004 [(e.toNat, 30, 1), (d.toNat, 18, 6), (a.toNat, 12, 6)]
    [(30, 1), (18, 6), (12, 6)] rfl rfl ⟨e.toNat_lt, d.isLt, a.isLt, trivial⟩ rfl fun h w ⟨f0, f1, f2, _⟩ A => by
    rw [decodeLane, A 24 6 rfl, A 0 6 rfl, A 6 6 rfl, bit_of_fld f0, bv_of_fld f1, bv_of_fld f2]
    exact accept_ok h
theorem Encode.pfx (m : BitVec 4) (z : BitVec 1) (r : BitVec 3) (c : BitVec 6) (x_s : BitVec 1) : Encode.Statement (.pfx m z r c x_s) :=
  encode_ofLane 0x3F000000 [(m.toNat, 20, 4), (z.toNat, 19, 1), (r.toNat, 16, 3), (c.toNat, 10, 6), (x_s.toNat, 9, 1)]
    [(20, 4), (19, 1), (16, 3), (10, 6), (9, 1)] rfl rfl ⟨m.isLt, z.isLt, r.isLt, c.isLt, x_s.isLt, trivial⟩ rfl fun h w ⟨f0, f1, f2, f3, f4, _⟩ A => by
    rw [decodeLane, A 24 6 rfl, A 0 9 rfl, bv_of_fld f0, bv_of_fld f1, bv_of_fld f2, bv_of_fld f3, bv_of_fld f4]
    exact acceptMid_ok (bit_of_fld (A 30 1 rfl)) h
theorem Encode.uadd (e : Bool) (d a b : BitVec 5) : Encode.Statement (.uadd e d a b) :=
  encode_ofUniform 0x81000000 [(e.toNat, 30, 1), (d.toNat, 19, 5), (a.toNat, 14, 5), (b.toNat, 9, 5)]
    [(30, 1), (19, 5), (14, 5), (9, 5)] rfl none rfl ⟨e.toNat_lt, d.isLt, a.isLt, b.isLt, trivial⟩ rfl fun h w ⟨f0, f1, f2, f3, _⟩ A => by
    rw [decodeUniform, A 24 6 rfl, A 0 9 rfl, bit_of_fld f0, bv_of_fld f1, bv_of_fld f2, bv_of_fld f3]
    exact accept_ok h
theorem Encode.usub (e : Bool) (d a b : BitVec 5) : Encode.Statement (.usub e d a b) :=
  encode_ofUniform 0x81000001 [(e.toNat, 30, 1), (d.toNat, 19, 5), (a.toNat, 14, 5), (b.toNat, 9, 5)]
    [(30, 1), (19, 5), (14, 5), (9, 5)] rfl none rfl ⟨e.toNat_lt, d.isLt, a.isLt, b.isLt, trivial⟩ rfl fun h w ⟨f0, f1, f2, f3, _⟩ A => by
    rw [decodeUniform, A 24 6 rfl, A 0 9 rfl, bit_of_fld f0, bv_of_fld f1, bv_of_fld f2, bv_of_fld f3]
    exact accept_ok h
theorem Encode.umul (e : Bool) (d a b : BitVec 5) : Encode.Statement (.umul e d a b) :=
  encode_ofUniform 0x81000002 [(e.toNat, 30, 1), (d.toNat, 19, 5), (a.toNat, 14, 5), (b.toNat, 9, 5)]
    [(30, 1), (19, 5), (14, 5), (9, 5)] rfl none rfl ⟨e.toNat_lt, d.isLt, a.isLt, b.isLt, trivial⟩ rfl fun h w ⟨f0, f1, f2, f3, _⟩ A => by
    rw [decodeUniform, A 24 6 rfl, A 0 9 rfl, bit_of_fld f0, bv_of_fld f1, bv_of_fld f2, bv_of_fld f3]
    exact accept_ok h
theorem Encode.uand (e : Bool) (d a b : BitVec 5) : Encode.Statement (.uand e d a b) :=
  encode_ofUniform 0x81000003 [(e.toNat, 30, 1), (d.toNat, 19, 5), (a.toNat, 14, 5), (b.toNat, 9, 5)]
    [(30, 1), (19, 5), (14, 5), (9, 5)] rfl none rfl ⟨e.toNat_lt, d.isLt, a.isLt, b.isLt, trivial⟩ rfl fun h w ⟨f0, f1, f2, f3, _⟩ A => by
    rw [decodeUniform, A 24 6 rfl, A 0 9 rfl, bit_of_fld f0, bv_of_fld f1, bv_of_fld f2, bv_of_fld f3]
    exact accept_ok h
theorem Encode.uor (e : Bool) (d a b : BitVec 5) : Encode.Statement (.uor e d a b) :=
  encode_ofUniform 0x81000004 [(e.toNat, 30, 1), (d.toNat, 19, 5), (a.toNat, 14, 5), (b.toNat, 9, 5)]
    [(30, 1), (19, 5), (14, 5), (9, 5)] rfl none rfl ⟨e.toNat_lt, d.isLt, a.isLt, b.isLt, trivial⟩ rfl fun h w ⟨f0, f1, f2, f3, _⟩ A => by
    rw [decodeUniform, A 24 6 rfl, A 0 9 rfl, bit_of_fld f0, bv_of_fld f1, bv_of_fld f2, bv_of_fld f3]
    exact accept_ok h
theorem Encode.uxor (e : Bool) (d a b : BitVec 5) : Encode.Statement (.uxor e d a b) :=
  encode_ofUniform 0x81000005 [(e.toNat, 30, 1), (d.toNat, 19, 5), (a.toNat, 14, 5), (b.toNat, 9, 5)]
    [(30, 1), (19, 5), (14, 5), (9, 5)] rfl none rfl ⟨e.toNat_lt, d.isLt, a.isLt, b.isLt, trivial⟩ rfl fun h w ⟨f0, f1, f2, f3, _⟩ A => by
    rw [decodeUniform, A 24 6 rfl, A 0 9 rfl, bit_of_fld f0, bv_of_fld f1, bv_of_fld f2, bv_of_fld f3]
    exact accept_ok h
theorem Encode.ushl (e : Bool) (d a b : BitVec 5) : Encode.Statement (.ushl e d a b) :=
  encode_ofUniform 0x81000006 [(e.toNat, 30, 1), (d.toNat, 19, 5), (a.toNat, 14, 5), (b.toNat, 9, 5)]
    [(30, 1), (19, 5), (14, 5), (9, 5)] rfl none rfl ⟨e.toNat_lt, d.isLt, a.isLt, b.isLt, trivial⟩ rfl fun h w ⟨f0, f1, f2, f3, _⟩ A => by
    rw [decodeUniform, A 24 6 rfl, A 0 9 rfl, bit_of_fld f0, bv_of_fld f1, bv_of_fld f2, bv_of_fld f3]
    exact accept_ok h
theorem Encode.ushr (e : Bool) (d a b : BitVec 5) : Encode.Statement (.ushr e d a b) :=
  encode_ofUniform 0x81000007 [(e.toNat, 30, 1), (d.toNat, 19, 5), (a.toNat, 14, 5), (b.toNat, 9, 5)]
    [(30, 1), (19, 5), (14, 5), (9, 5)] rfl none rfl ⟨e.toNat_lt, d.isLt, a.isLt, b.isLt, trivial⟩ rfl fun h w ⟨f0, f1, f2, f3, _⟩ A => by
    rw [decodeUniform, A 24 6 rfl, A 0 9 rfl, bit_of_fld f0, bv_of_fld f1, bv_of_fld f2, bv_of_fld f3]
    exact accept_ok h
theorem Encode.usar (e : Bool) (d a b : BitVec 5) : Encode.Statement (.usar e d a b) :=
  encode_ofUniform 0x81000008 [(e.toNat, 30, 1), (d.toNat, 19, 5), (a.toNat, 14, 5), (b.toNat, 9, 5)]
    [(30, 1), (19, 5), (14, 5), (9, 5)] rfl none rfl ⟨e.toNat_lt, d.isLt, a.isLt, b.isLt, trivial⟩ rfl fun h w ⟨f0, f1, f2, f3, _⟩ A => by
    rw [decodeUniform, A 24 6 rfl, A 0 9 rfl, bit_of_fld f0, bv_of_fld f1, bv_of_fld f2, bv_of_fld f3]
    exact accept_ok h
theorem Encode.umov (e : Bool) (d a : BitVec 5) : Encode.Statement (.umov e d a) :=
  encode_ofUniform 0x81000009 [(e.toNat, 30, 1), (d.toNat, 19, 5), (a.toNat, 14, 5)]
    [(30, 1), (19, 5), (14, 5)] rfl none rfl ⟨e.toNat_lt, d.isLt, a.isLt, trivial⟩ rfl fun h w ⟨f0, f1, f2, _⟩ A => by
    rw [decodeUniform, A 24 6 rfl, A 0 9 rfl, A 9 5 rfl, bit_of_fld f0, bv_of_fld f1, bv_of_fld f2]
    exact accept_ok h
theorem Encode.uaddi (e : Bool) (d a : BitVec 5) (x_i : BitVec 14) : Encode.Statement (.uaddi e d a x_i) :=
  encode_ofUniform 0x82000000 [(e.toNat, 30, 1), (d.toNat, 19, 5), (a.toNat, 14, 5), (x_i.toNat, 0, 14)]
    [(30, 1), (19, 5), (14, 5), (0, 14)] rfl none rfl ⟨e.toNat_lt, d.isLt, a.isLt, x_i.isLt, trivial⟩ rfl fun h w ⟨f0, f1, f2, f3, _⟩ A => by
    rw [decodeUniform, A 24 6 rfl, bit_of_fld f0, bv_of_fld f1, bv_of_fld f2, bv_of_fld f3]
    exact accept_ok h
theorem Encode.movl (e : Bool) (d : BitVec 5) (lit : BitVec 32) : Encode.Statement (.movl e d lit) :=
  encode_ofUniform 0xBF000000 [(e.toNat, 30, 1), (d.toNat, 19, 5)]
    [(30, 1), (19, 5)] rfl (some lit) rfl ⟨e.toNat_lt, d.isLt, trivial⟩ rfl fun h w ⟨f0, f1, _⟩ A => by
    have v : bv lit.toNat 0 32 = lit := by simp [bv]
    show decodeUniform w lit.toNat = _
    rw [decodeUniform, A 24 6 rfl, A 18 1 rfl, A 0 18 rfl, bit_of_fld f0, bv_of_fld f1, v]
    exact accept_ok h
theorem Encode.movlHi (e : Bool) (d : BitVec 5) (lit : BitVec 32) : Encode.Statement (.movlHi e d lit) :=
  encode_ofUniform 0xBF040000 [(e.toNat, 30, 1), (d.toNat, 19, 5)]
    [(30, 1), (19, 5)] rfl (some lit) rfl ⟨e.toNat_lt, d.isLt, trivial⟩ rfl fun h w ⟨f0, f1, _⟩ A => by
    have v : bv lit.toNat 0 32 = lit := by simp [bv]
    show decodeUniform w lit.toNat = _
    rw [decodeUniform, A 24 6 rfl, A 18 1 rfl, A 0 18 rfl, bit_of_fld f0, bv_of_fld f1, v]
    exact accept_ok h
theorem Encode.ubra (a : BitVec 5) (c : BitVec 3) (o : BitVec 16) : Encode.Statement (.ubra a c o) :=
  encode_ofUniform 0xC8000000 [(a.toNat, 19, 5), (c.toNat, 16, 3), (o.toNat, 0, 16)]
    [(19, 5), (16, 3), (0, 16)] rfl none rfl ⟨a.isLt, c.isLt, o.isLt, trivial⟩ rfl fun h w ⟨f0, f1, f2, _⟩ A => by
    rw [decodeUniform, A 24 6 rfl, bv_of_fld f0, bv_of_fld f1, bv_of_fld f2]
    exact acceptEnd_ok (bit_of_fld (A 30 1 rfl)) h
theorem Encode.ucall (a : BitVec 5) (o : BitVec 16) : Encode.Statement (.ucall a o) :=
  encode_ofUniform 0xC9000000 [(a.toNat, 19, 5), (o.toNat, 0, 16)]
    [(19, 5), (0, 16)] rfl none rfl ⟨a.isLt, o.isLt, trivial⟩ rfl fun h w ⟨f0, f1, _⟩ A => by
    rw [decodeUniform, A 24 6 rfl, A 16 3 rfl, bv_of_fld f0, bv_of_fld f1]
    exact acceptEnd_ok (bit_of_fld (A 30 1 rfl)) h
theorem Encode.uret (a : BitVec 5) : Encode.Statement (.uret a) :=
  encode_ofUniform 0xCA000000 [(a.toNat, 19, 5)]
    [(19, 5)] rfl none rfl ⟨a.isLt, trivial⟩ rfl fun h w ⟨f0, _⟩ A => by
    rw [decodeUniform, A 24 6 rfl, A 0 19 rfl, bv_of_fld f0]
    exact acceptEnd_ok (bit_of_fld (A 30 1 rfl)) h
theorem Encode.reform : Encode.Statement .reform :=
  encode_ofUniform 0xCC000000 []
    [] rfl none rfl trivial rfl fun h w _ A => by
    rw [decodeUniform, A 24 6 rfl, A 0 24 rfl]
    exact acceptEnd_ok (bit_of_fld (A 30 1 rfl)) h
theorem Encode.exit : Encode.Statement .exit :=
  encode_ofUniform 0xCD000000 []
    [] rfl none rfl trivial rfl fun h w _ A => by
    rw [decodeUniform, A 24 6 rfl, A 0 24 rfl]
    exact acceptEnd_ok (bit_of_fld (A 30 1 rfl)) h
theorem Encode.waitAny (p : BitVec 4) (a : BitVec 5) (n : BitVec 2) (x_s : BitVec 5) : Encode.Statement (.waitAny p a n x_s) :=
  encode_ofUniform 0xCE000000 [(p.toNat, 20, 4), (a.toNat, 15, 5), (n.toNat, 13, 2), (x_s.toNat, 7, 5)]
    [(20, 4), (15, 5), (13, 2), (7, 5)] rfl none rfl ⟨p.isLt, a.isLt, n.isLt, x_s.isLt, trivial⟩ rfl fun h w ⟨f0, f1, f2, f3, _⟩ A => by
    rw [decodeUniform, A 24 6 rfl, A 12 1 rfl, A 0 7 rfl, bv_of_fld f0, bv_of_fld f1, bv_of_fld f2, bv_of_fld f3]
    exact acceptEnd_ok (bit_of_fld (A 30 1 rfl)) h
theorem Encode.waitAll (p : BitVec 4) (a : BitVec 5) (n : BitVec 2) (x_s : BitVec 5) : Encode.Statement (.waitAll p a n x_s) :=
  encode_ofUniform 0xCE001000 [(p.toNat, 20, 4), (a.toNat, 15, 5), (n.toNat, 13, 2), (x_s.toNat, 7, 5)]
    [(20, 4), (15, 5), (13, 2), (7, 5)] rfl none rfl ⟨p.isLt, a.isLt, n.isLt, x_s.isLt, trivial⟩ rfl fun h w ⟨f0, f1, f2, f3, _⟩ A => by
    rw [decodeUniform, A 24 6 rfl, A 12 1 rfl, A 0 7 rfl, bv_of_fld f0, bv_of_fld f1, bv_of_fld f2, bv_of_fld f3]
    exact acceptEnd_ok (bit_of_fld (A 30 1 rfl)) h
theorem Encode.nop (e : Bool) : Encode.Statement (.nop e) :=
  encode_ofUniform 0x8F000000 [(e.toNat, 30, 1)]
    [(30, 1)] rfl none rfl ⟨e.toNat_lt, trivial⟩ rfl fun h w ⟨f0, _⟩ A => by
    rw [decodeUniform, A 24 6 rfl, A 20 4 rfl, A 0 20 rfl, bit_of_fld f0]
    exact accept_ok h
theorem Encode.trap (e : Bool) (c : BitVec 16) : Encode.Statement (.trap e c) :=
  encode_ofUniform 0x8F100000 [(e.toNat, 30, 1), (c.toNat, 0, 16)]
    [(30, 1), (0, 16)] rfl none rfl ⟨e.toNat_lt, c.isLt, trivial⟩ rfl fun h w ⟨f0, f1, _⟩ A => by
    rw [decodeUniform, A 24 6 rfl, A 20 4 rfl, A 16 4 rfl, bit_of_fld f0, bv_of_fld f1]
    exact accept_ok h
theorem Encode.bkpt (e : Bool) (c : BitVec 16) : Encode.Statement (.bkpt e c) :=
  encode_ofUniform 0x8F200000 [(e.toNat, 30, 1), (c.toNat, 0, 16)]
    [(30, 1), (0, 16)] rfl none rfl ⟨e.toNat_lt, c.isLt, trivial⟩ rfl fun h w ⟨f0, f1, _⟩ A => by
    rw [decodeUniform, A 24 6 rfl, A 20 4 rfl, A 16 4 rfl, bit_of_fld f0, bv_of_fld f1]
    exact accept_ok h
theorem Encode.vres (e : Bool) (r : BitVec 4) (a b : BitVec 5) : Encode.Statement (.vres e r a b) :=
  encode_ofUniform 0x90000000 [(e.toNat, 30, 1), (r.toNat, 20, 4), (a.toNat, 14, 5), (b.toNat, 9, 5)]
    [(30, 1), (20, 4), (14, 5), (9, 5)] rfl none rfl ⟨e.toNat_lt, r.isLt, a.isLt, b.isLt, trivial⟩ rfl fun h w ⟨f0, f1, f2, f3, _⟩ A => by
    rw [decodeUniform, A 24 6 rfl, A 0 9 rfl, A 19 1 rfl, bit_of_fld f0, bv_of_fld f1, bv_of_fld f2, bv_of_fld f3]
    exact accept_ok h
theorem Encode.vrel (e : Bool) (r : BitVec 4) : Encode.Statement (.vrel e r) :=
  encode_ofUniform 0x90000001 [(e.toNat, 30, 1), (r.toNat, 20, 4)]
    [(30, 1), (20, 4)] rfl none rfl ⟨e.toNat_lt, r.isLt, trivial⟩ rfl fun h w ⟨f0, f1, _⟩ A => by
    rw [decodeUniform, A 24 6 rfl, A 0 9 rfl, A 9 11 rfl, bit_of_fld f0, bv_of_fld f1]
    exact accept_ok h
theorem Encode.tfetch (e : Bool) (r : BitVec 4) (b : BitVec 5) : Encode.Statement (.tfetch e r b) :=
  encode_ofUniform 0x90000002 [(e.toNat, 30, 1), (r.toNat, 20, 4), (b.toNat, 9, 5)]
    [(30, 1), (20, 4), (9, 5)] rfl none rfl ⟨e.toNat_lt, r.isLt, b.isLt, trivial⟩ rfl fun h w ⟨f0, f1, f2, _⟩ A => by
    rw [decodeUniform, A 24 6 rfl, A 0 9 rfl, A 14 6 rfl, bit_of_fld f0, bv_of_fld f1, bv_of_fld f2]
    exact accept_ok h
theorem Encode.mma (e : Bool) (q : BitVec 4) (d : BitVec 3) (a b : BitVec 4) (z : BitVec 1) : Encode.Statement (.mma e q d a b z) :=
  encode_ofUniform 0x91000000 [(e.toNat, 30, 1), (q.toNat, 20, 4), (d.toNat, 17, 3), (a.toNat, 13, 4), (b.toNat, 9, 4), (z.toNat, 0, 1)]
    [(30, 1), (20, 4), (17, 3), (13, 4), (9, 4), (0, 1)] rfl none rfl ⟨e.toNat_lt, q.isLt, d.isLt, a.isLt, b.isLt, z.isLt, trivial⟩ rfl fun h w ⟨f0, f1, f2, f3, f4, f5, _⟩ A => by
    rw [decodeUniform, A 24 6 rfl, A 1 8 rfl, bit_of_fld f0, bv_of_fld f1, bv_of_fld f2, bv_of_fld f3, bv_of_fld f4, bv_of_fld f5]
    exact accept_ok h
theorem Encode.qmma (e : Bool) (q : BitVec 4) (d : BitVec 3) (a b : BitVec 4) (z : BitVec 1) : Encode.Statement (.qmma e q d a b z) :=
  encode_ofUniform 0x92000000 [(e.toNat, 30, 1), (q.toNat, 20, 4), (d.toNat, 17, 3), (a.toNat, 13, 4), (b.toNat, 9, 4), (z.toNat, 0, 1)]
    [(30, 1), (20, 4), (17, 3), (13, 4), (9, 4), (0, 1)] rfl none rfl ⟨e.toNat_lt, q.isLt, d.isLt, a.isLt, b.isLt, z.isLt, trivial⟩ rfl fun h w ⟨f0, f1, f2, f3, f4, f5, _⟩ A => by
    rw [decodeUniform, A 24 6 rfl, A 1 8 rfl, bit_of_fld f0, bv_of_fld f1, bv_of_fld f2, bv_of_fld f3, bv_of_fld f4, bv_of_fld f5]
    exact accept_ok h
theorem Encode.mpoly (e : Bool) (q : BitVec 4) (d x t g : BitVec 3) (p : BitVec 1) : Encode.Statement (.mpoly e q d x t g p) :=
  encode_ofUniform 0x93000000 [(e.toNat, 30, 1), (q.toNat, 20, 4), (d.toNat, 17, 3), (x.toNat, 14, 3), (t.toNat, 11, 3), (g.toNat, 8, 3), (p.toNat, 7, 1)]
    [(30, 1), (20, 4), (17, 3), (14, 3), (11, 3), (8, 3), (7, 1)] rfl none rfl ⟨e.toNat_lt, q.isLt, d.isLt, x.isLt, t.isLt, g.isLt, p.isLt, trivial⟩ rfl fun h w ⟨f0, f1, f2, f3, f4, f5, f6, _⟩ A => by
    rw [decodeUniform, A 24 6 rfl, A 0 7 rfl, bit_of_fld f0, bv_of_fld f1, bv_of_fld f2, bv_of_fld f3, bv_of_fld f4, bv_of_fld f5, bv_of_fld f6]
    exact accept_ok h
theorem Encode.miter (e : Bool) (q : BitVec 4) (x a b : BitVec 3) (g : BitVec 2) (p : BitVec 1) (c : BitVec 6) : Encode.Statement (.miter e q x a b g p c) :=
  encode_ofUniform 0x94000000 [(e.toNat, 30, 1), (q.toNat, 20, 4), (x.toNat, 17, 3), (a.toNat, 14, 3), (b.toNat, 11, 3), (g.toNat, 9, 2), (p.toNat, 8, 1), (c.toNat, 0, 6)]
    [(30, 1), (20, 4), (17, 3), (14, 3), (11, 3), (9, 2), (8, 1), (0, 6)] rfl none rfl ⟨e.toNat_lt, q.isLt, x.isLt, a.isLt, b.isLt, g.isLt, p.isLt, c.isLt, trivial⟩ rfl fun h w ⟨f0, f1, f2, f3, f4, f5, f6, f7, _⟩ A => by
    rw [decodeUniform, A 24 6 rfl, A 6 2 rfl, bit_of_fld f0, bv_of_fld f1, bv_of_fld f2, bv_of_fld f3, bv_of_fld f4, bv_of_fld f5, bv_of_fld f6, bv_of_fld f7]
    exact accept_ok h
theorem Encode.azero (e : Bool) (d : BitVec 3) : Encode.Statement (.azero e d) :=
  encode_ofUniform 0x95000000 [(e.toNat, 30, 1), (d.toNat, 21, 3)]
    [(30, 1), (21, 3)] rfl none rfl ⟨e.toNat_lt, d.isLt, trivial⟩ rfl fun h w ⟨f0, f1, _⟩ A => by
    rw [decodeUniform, A 24 6 rfl, A 0 8 rfl, A 8 13 rfl, bit_of_fld f0, bv_of_fld f1]
    exact accept_ok h
theorem Encode.aload (e : Bool) (d : BitVec 3) (a b : BitVec 5) : Encode.Statement (.aload e d a b) :=
  encode_ofUniform 0x95000001 [(e.toNat, 30, 1), (d.toNat, 21, 3), (a.toNat, 13, 5), (b.toNat, 8, 5)]
    [(30, 1), (21, 3), (13, 5), (8, 5)] rfl none rfl ⟨e.toNat_lt, d.isLt, a.isLt, b.isLt, trivial⟩ rfl fun h w ⟨f0, f1, f2, f3, _⟩ A => by
    rw [decodeUniform, A 24 6 rfl, A 0 8 rfl, A 18 3 rfl, bit_of_fld f0, bv_of_fld f1, bv_of_fld f2, bv_of_fld f3]
    exact accept_ok h
theorem Encode.astore (e : Bool) (d : BitVec 3) (a b : BitVec 5) : Encode.Statement (.astore e d a b) :=
  encode_ofUniform 0x95000002 [(e.toNat, 30, 1), (d.toNat, 21, 3), (a.toNat, 13, 5), (b.toNat, 8, 5)]
    [(30, 1), (21, 3), (13, 5), (8, 5)] rfl none rfl ⟨e.toNat_lt, d.isLt, a.isLt, b.isLt, trivial⟩ rfl fun h w ⟨f0, f1, f2, f3, _⟩ A => by
    rw [decodeUniform, A 24 6 rfl, A 0 8 rfl, A 18 3 rfl, bit_of_fld f0, bv_of_fld f1, bv_of_fld f2, bv_of_fld f3]
    exact accept_ok h
theorem Encode.aread (e : Bool) (d : BitVec 3) (a b : BitVec 5) : Encode.Statement (.aread e d a b) :=
  encode_ofUniform 0x95000003 [(e.toNat, 30, 1), (d.toNat, 21, 3), (a.toNat, 13, 5), (b.toNat, 8, 5)]
    [(30, 1), (21, 3), (13, 5), (8, 5)] rfl none rfl ⟨e.toNat_lt, d.isLt, a.isLt, b.isLt, trivial⟩ rfl fun h w ⟨f0, f1, f2, f3, _⟩ A => by
    rw [decodeUniform, A 24 6 rfl, A 0 8 rfl, A 18 3 rfl, bit_of_fld f0, bv_of_fld f1, bv_of_fld f2, bv_of_fld f3]
    exact accept_ok h
theorem Encode.awrite (e : Bool) (d : BitVec 3) (a b : BitVec 5) : Encode.Statement (.awrite e d a b) :=
  encode_ofUniform 0x95000004 [(e.toNat, 30, 1), (d.toNat, 21, 3), (a.toNat, 13, 5), (b.toNat, 8, 5)]
    [(30, 1), (21, 3), (13, 5), (8, 5)] rfl none rfl ⟨e.toNat_lt, d.isLt, a.isLt, b.isLt, trivial⟩ rfl fun h w ⟨f0, f1, f2, f3, _⟩ A => by
    rw [decodeUniform, A 24 6 rfl, A 0 8 rfl, A 18 3 rfl, bit_of_fld f0, bv_of_fld f1, bv_of_fld f2, bv_of_fld f3]
    exact accept_ok h
theorem Encode.atrn (e : Bool) (d b : BitVec 3) : Encode.Statement (.atrn e d b) :=
  encode_ofUniform 0x95000005 [(e.toNat, 30, 1), (d.toNat, 21, 3), (b.toNat, 18, 3)]
    [(30, 1), (21, 3), (18, 3)] rfl none rfl ⟨e.toNat_lt, d.isLt, b.isLt, trivial⟩ rfl fun h w ⟨f0, f1, f2, _⟩ A => by
    rw [decodeUniform, A 24 6 rfl, A 0 8 rfl, A 8 10 rfl, bit_of_fld f0, bv_of_fld f1, bv_of_fld f2]
    exact accept_ok h
theorem Encode.acoef (e : Bool) (c : BitVec 3) (a : BitVec 5) : Encode.Statement (.acoef e c a) :=
  encode_ofUniform 0x95000006 [(e.toNat, 30, 1), (c.toNat, 18, 3), (a.toNat, 13, 5)]
    [(30, 1), (18, 3), (13, 5)] rfl none rfl ⟨e.toNat_lt, c.isLt, a.isLt, trivial⟩ rfl fun h w ⟨f0, f1, f2, _⟩ A => by
    rw [decodeUniform, A 24 6 rfl, A 0 8 rfl, A 8 5 rfl, A 21 3 rfl, bit_of_fld f0, bv_of_fld f1, bv_of_fld f2]
    exact accept_ok h
theorem Encode.astat (e : Bool) (d x_s : BitVec 3) (t : BitVec 5) : Encode.Statement (.astat e d x_s t) :=
  encode_ofUniform 0x95000007 [(e.toNat, 30, 1), (d.toNat, 21, 3), (x_s.toNat, 18, 3), (t.toNat, 8, 5)]
    [(30, 1), (21, 3), (18, 3), (8, 5)] rfl none rfl ⟨e.toNat_lt, d.isLt, x_s.isLt, t.isLt, trivial⟩ rfl fun h w ⟨f0, f1, f2, f3, _⟩ A => by
    rw [decodeUniform, A 24 6 rfl, A 0 8 rfl, A 13 5 rfl, bit_of_fld f0, bv_of_fld f1, bv_of_fld f2, bv_of_fld f3]
    exact accept_ok h
theorem Encode.conv (e : Bool) (q a b : BitVec 5) : Encode.Statement (.conv e q a b) :=
  encode_ofUniform 0x98000000 [(e.toNat, 30, 1), (q.toNat, 19, 5), (a.toNat, 14, 5), (b.toNat, 9, 5)]
    [(30, 1), (19, 5), (14, 5), (9, 5)] rfl none rfl ⟨e.toNat_lt, q.isLt, a.isLt, b.isLt, trivial⟩ rfl fun h w ⟨f0, f1, f2, f3, _⟩ A => by
    rw [decodeUniform, A 24 6 rfl, A 0 9 rfl, bit_of_fld f0, bv_of_fld f1, bv_of_fld f2, bv_of_fld f3]
    exact accept_ok h
theorem Encode.qread (e : Bool) (d q x_s : BitVec 5) : Encode.Statement (.qread e d q x_s) :=
  encode_ofUniform 0x98000001 [(e.toNat, 30, 1), (d.toNat, 19, 5), (q.toNat, 14, 5), (x_s.toNat, 9, 5)]
    [(30, 1), (19, 5), (14, 5), (9, 5)] rfl none rfl ⟨e.toNat_lt, d.isLt, q.isLt, x_s.isLt, trivial⟩ rfl fun h w ⟨f0, f1, f2, f3, _⟩ A => by
    rw [decodeUniform, A 24 6 rfl, A 0 9 rfl, bit_of_fld f0, bv_of_fld f1, bv_of_fld f2, bv_of_fld f3]
    exact accept_ok h
theorem Encode.bar (e : Bool) (d a : BitVec 5) : Encode.Statement (.bar e d a) :=
  encode_ofUniform 0x99000000 [(e.toNat, 30, 1), (d.toNat, 19, 5), (a.toNat, 14, 5)]
    [(30, 1), (19, 5), (14, 5)] rfl none rfl ⟨e.toNat_lt, d.isLt, a.isLt, trivial⟩ rfl fun h w ⟨f0, f1, f2, _⟩ A => by
    rw [decodeUniform, A 24 6 rfl, A 0 9 rfl, A 9 5 rfl, bit_of_fld f0, bv_of_fld f1, bv_of_fld f2]
    exact accept_ok h
theorem Encode.binit (e : Bool) (a b : BitVec 5) : Encode.Statement (.binit e a b) :=
  encode_ofUniform 0x99000001 [(e.toNat, 30, 1), (a.toNat, 14, 5), (b.toNat, 9, 5)]
    [(30, 1), (14, 5), (9, 5)] rfl none rfl ⟨e.toNat_lt, a.isLt, b.isLt, trivial⟩ rfl fun h w ⟨f0, f1, f2, _⟩ A => by
    rw [decodeUniform, A 24 6 rfl, A 0 9 rfl, A 19 5 rfl, bit_of_fld f0, bv_of_fld f1, bv_of_fld f2]
    exact accept_ok h
theorem Encode.gbar (e : Bool) (d a : BitVec 5) : Encode.Statement (.gbar e d a) :=
  encode_ofUniform 0x9A000000 [(e.toNat, 30, 1), (d.toNat, 19, 5), (a.toNat, 14, 5)]
    [(30, 1), (19, 5), (14, 5)] rfl none rfl ⟨e.toNat_lt, d.isLt, a.isLt, trivial⟩ rfl fun h w ⟨f0, f1, f2, _⟩ A => by
    rw [decodeUniform, A 24 6 rfl, A 0 9 rfl, A 9 5 rfl, bit_of_fld f0, bv_of_fld f1, bv_of_fld f2]
    exact accept_ok h
theorem Encode.copy (e : Bool) (d a b : BitVec 5) : Encode.Statement (.copy e d a b) :=
  encode_ofUniform 0x9C000000 [(e.toNat, 30, 1), (d.toNat, 19, 5), (a.toNat, 14, 5), (b.toNat, 9, 5)]
    [(30, 1), (19, 5), (14, 5), (9, 5)] rfl none rfl ⟨e.toNat_lt, d.isLt, a.isLt, b.isLt, trivial⟩ rfl fun h w ⟨f0, f1, f2, f3, _⟩ A => by
    rw [decodeUniform, A 24 6 rfl, A 0 9 rfl, bit_of_fld f0, bv_of_fld f1, bv_of_fld f2, bv_of_fld f3]
    exact accept_ok h
theorem Encode.gather (e : Bool) (d a b : BitVec 5) : Encode.Statement (.gather e d a b) :=
  encode_ofUniform 0x9C000001 [(e.toNat, 30, 1), (d.toNat, 19, 5), (a.toNat, 14, 5), (b.toNat, 9, 5)]
    [(30, 1), (19, 5), (14, 5), (9, 5)] rfl none rfl ⟨e.toNat_lt, d.isLt, a.isLt, b.isLt, trivial⟩ rfl fun h w ⟨f0, f1, f2, f3, _⟩ A => by
    rw [decodeUniform, A 24 6 rfl, A 0 9 rfl, bit_of_fld f0, bv_of_fld f1, bv_of_fld f2, bv_of_fld f3]
    exact accept_ok h
theorem Encode.scatter (e : Bool) (d a b : BitVec 5) : Encode.Statement (.scatter e d a b) :=
  encode_ofUniform 0x9C000002 [(e.toNat, 30, 1), (d.toNat, 19, 5), (a.toNat, 14, 5), (b.toNat, 9, 5)]
    [(30, 1), (19, 5), (14, 5), (9, 5)] rfl none rfl ⟨e.toNat_lt, d.isLt, a.isLt, b.isLt, trivial⟩ rfl fun h w ⟨f0, f1, f2, f3, _⟩ A => by
    rw [decodeUniform, A 24 6 rfl, A 0 9 rfl, bit_of_fld f0, bv_of_fld f1, bv_of_fld f2, bv_of_fld f3]
    exact accept_ok h
theorem Encode.publish (e : Bool) (a b : BitVec 5) : Encode.Statement (.publish e a b) :=
  encode_ofUniform 0x9D000000 [(e.toNat, 30, 1), (a.toNat, 14, 5), (b.toNat, 9, 5)]
    [(30, 1), (14, 5), (9, 5)] rfl none rfl ⟨e.toNat_lt, a.isLt, b.isLt, trivial⟩ rfl fun h w ⟨f0, f1, f2, _⟩ A => by
    rw [decodeUniform, A 24 6 rfl, A 0 9 rfl, A 19 5 rfl, bit_of_fld f0, bv_of_fld f1, bv_of_fld f2]
    exact accept_ok h
theorem Encode.coll (e : Bool) (d a b : BitVec 5) : Encode.Statement (.coll e d a b) :=
  encode_ofUniform 0x9E000000 [(e.toNat, 30, 1), (d.toNat, 19, 5), (a.toNat, 14, 5), (b.toNat, 9, 5)]
    [(30, 1), (19, 5), (14, 5), (9, 5)] rfl none rfl ⟨e.toNat_lt, d.isLt, a.isLt, b.isLt, trivial⟩ rfl fun h w ⟨f0, f1, f2, f3, _⟩ A => by
    rw [decodeUniform, A 24 6 rfl, A 0 9 rfl, bit_of_fld f0, bv_of_fld f1, bv_of_fld f2, bv_of_fld f3]
    exact accept_ok h
theorem Encode.launch (e : Bool) (d a : BitVec 5) : Encode.Statement (.launch e d a) :=
  encode_ofUniform 0xA0000000 [(e.toNat, 30, 1), (d.toNat, 19, 5), (a.toNat, 14, 5)]
    [(30, 1), (19, 5), (14, 5)] rfl none rfl ⟨e.toNat_lt, d.isLt, a.isLt, trivial⟩ rfl fun h w ⟨f0, f1, f2, _⟩ A => by
    rw [decodeUniform, A 24 6 rfl, A 0 9 rfl, A 9 5 rfl, bit_of_fld f0, bv_of_fld f1, bv_of_fld f2]
    exact accept_ok h
theorem Encode.gnode (e : Bool) (d a : BitVec 5) : Encode.Statement (.gnode e d a) :=
  encode_ofUniform 0xA0000001 [(e.toNat, 30, 1), (d.toNat, 19, 5), (a.toNat, 14, 5)]
    [(30, 1), (19, 5), (14, 5)] rfl none rfl ⟨e.toNat_lt, d.isLt, a.isLt, trivial⟩ rfl fun h w ⟨f0, f1, f2, _⟩ A => by
    rw [decodeUniform, A 24 6 rfl, A 0 9 rfl, A 9 5 rfl, bit_of_fld f0, bv_of_fld f1, bv_of_fld f2]
    exact accept_ok h
theorem Encode.gdep (e : Bool) (a b : BitVec 5) : Encode.Statement (.gdep e a b) :=
  encode_ofUniform 0xA0000002 [(e.toNat, 30, 1), (a.toNat, 14, 5), (b.toNat, 9, 5)]
    [(30, 1), (14, 5), (9, 5)] rfl none rfl ⟨e.toNat_lt, a.isLt, b.isLt, trivial⟩ rfl fun h w ⟨f0, f1, f2, _⟩ A => by
    rw [decodeUniform, A 24 6 rfl, A 0 9 rfl, A 19 5 rfl, bit_of_fld f0, bv_of_fld f1, bv_of_fld f2]
    exact accept_ok h
theorem Encode.send (e : Bool) (d a b : BitVec 5) : Encode.Statement (.send e d a b) :=
  encode_ofUniform 0xA1000000 [(e.toNat, 30, 1), (d.toNat, 19, 5), (a.toNat, 14, 5), (b.toNat, 9, 5)]
    [(30, 1), (19, 5), (14, 5), (9, 5)] rfl none rfl ⟨e.toNat_lt, d.isLt, a.isLt, b.isLt, trivial⟩ rfl fun h w ⟨f0, f1, f2, f3, _⟩ A => by
    rw [decodeUniform, A 24 6 rfl, A 0 9 rfl, bit_of_fld f0, bv_of_fld f1, bv_of_fld f2, bv_of_fld f3]
    exact accept_ok h
theorem Encode.recv (e : Bool) (d a b : BitVec 5) : Encode.Statement (.recv e d a b) :=
  encode_ofUniform 0xA1000001 [(e.toNat, 30, 1), (d.toNat, 19, 5), (a.toNat, 14, 5), (b.toNat, 9, 5)]
    [(30, 1), (19, 5), (14, 5), (9, 5)] rfl none rfl ⟨e.toNat_lt, d.isLt, a.isLt, b.isLt, trivial⟩ rfl fun h w ⟨f0, f1, f2, f3, _⟩ A => by
    rw [decodeUniform, A 24 6 rfl, A 0 9 rfl, bit_of_fld f0, bv_of_fld f1, bv_of_fld f2, bv_of_fld f3]
    exact accept_ok h
theorem Encode.rfcal (e : Bool) (d a : BitVec 5) : Encode.Statement (.rfcal e d a) :=
  encode_ofUniform 0xA4000000 [(e.toNat, 30, 1), (d.toNat, 19, 5), (a.toNat, 14, 5)]
    [(30, 1), (19, 5), (14, 5)] rfl none rfl ⟨e.toNat_lt, d.isLt, a.isLt, trivial⟩ rfl fun h w ⟨f0, f1, f2, _⟩ A => by
    rw [decodeUniform, A 24 6 rfl, A 0 9 rfl, A 9 5 rfl, bit_of_fld f0, bv_of_fld f1, bv_of_fld f2]
    exact accept_ok h
theorem Encode.snap (e : Bool) (d a b : BitVec 5) : Encode.Statement (.snap e d a b) :=
  encode_ofUniform 0xA5000000 [(e.toNat, 30, 1), (d.toNat, 19, 5), (a.toNat, 14, 5), (b.toNat, 9, 5)]
    [(30, 1), (19, 5), (14, 5), (9, 5)] rfl none rfl ⟨e.toNat_lt, d.isLt, a.isLt, b.isLt, trivial⟩ rfl fun h w ⟨f0, f1, f2, f3, _⟩ A => by
    rw [decodeUniform, A 24 6 rfl, A 0 9 rfl, bit_of_fld f0, bv_of_fld f1, bv_of_fld f2, bv_of_fld f3]
    exact accept_ok h
theorem Encode.csrr (e : Bool) (c : BitVec 12) (x_s : BitVec 5) : Encode.Statement (.csrr e c x_s) :=
  encode_ofUniform 0xA8000000 [(e.toNat, 30, 1), (c.toNat, 12, 12), (x_s.toNat, 7, 5)]
    [(30, 1), (12, 12), (7, 5)] rfl none rfl ⟨e.toNat_lt, c.isLt, x_s.isLt, trivial⟩ rfl fun h w ⟨f0, f1, f2, _⟩ A => by
    rw [decodeUniform, A 24 6 rfl, A 0 7 rfl, bit_of_fld f0, bv_of_fld f1, bv_of_fld f2]
    exact accept_ok h
theorem Encode.csrw (e : Bool) (c : BitVec 12) (x_s : BitVec 5) : Encode.Statement (.csrw e c x_s) :=
  encode_ofUniform 0xA8000001 [(e.toNat, 30, 1), (c.toNat, 12, 12), (x_s.toNat, 7, 5)]
    [(30, 1), (12, 12), (7, 5)] rfl none rfl ⟨e.toNat_lt, c.isLt, x_s.isLt, trivial⟩ rfl fun h w ⟨f0, f1, f2, _⟩ A => by
    rw [decodeUniform, A 24 6 rfl, A 0 7 rfl, bit_of_fld f0, bv_of_fld f1, bv_of_fld f2]
    exact accept_ok h
theorem Encode.csrs (e : Bool) (c : BitVec 12) (x_s : BitVec 5) : Encode.Statement (.csrs e c x_s) :=
  encode_ofUniform 0xA8000002 [(e.toNat, 30, 1), (c.toNat, 12, 12), (x_s.toNat, 7, 5)]
    [(30, 1), (12, 12), (7, 5)] rfl none rfl ⟨e.toNat_lt, c.isLt, x_s.isLt, trivial⟩ rfl fun h w ⟨f0, f1, f2, _⟩ A => by
    rw [decodeUniform, A 24 6 rfl, A 0 7 rfl, bit_of_fld f0, bv_of_fld f1, bv_of_fld f2]
    exact accept_ok h
theorem Encode.csrc (e : Bool) (c : BitVec 12) (x_s : BitVec 5) : Encode.Statement (.csrc e c x_s) :=
  encode_ofUniform 0xA8000003 [(e.toNat, 30, 1), (c.toNat, 12, 12), (x_s.toNat, 7, 5)]
    [(30, 1), (12, 12), (7, 5)] rfl none rfl ⟨e.toNat_lt, c.isLt, x_s.isLt, trivial⟩ rfl fun h w ⟨f0, f1, f2, _⟩ A => by
    rw [decodeUniform, A 24 6 rfl, A 0 7 rfl, bit_of_fld f0, bv_of_fld f1, bv_of_fld f2]
    exact accept_ok h
theorem Encode.rett : Encode.Statement .rett :=
  encode_ofUniform 0xE8000004 []
    [] rfl none rfl trivial rfl fun h w _ A => by
    rw [decodeUniform, A 24 6 rfl, A 0 7 rfl, A 7 17 rfl]
    exact acceptEnd_ok (bit_of_fld (A 30 1 rfl)) h
theorem Encode.rdtime (e : Bool) (x_s : BitVec 5) : Encode.Statement (.rdtime e x_s) :=
  encode_ofUniform 0xA8000005 [(e.toNat, 30, 1), (x_s.toNat, 7, 5)]
    [(30, 1), (7, 5)] rfl none rfl ⟨e.toNat_lt, x_s.isLt, trivial⟩ rfl fun h w ⟨f0, f1, _⟩ A => by
    rw [decodeUniform, A 24 6 rfl, A 0 7 rfl, A 12 12 rfl, bit_of_fld f0, bv_of_fld f1]
    exact accept_ok h
theorem Encode.ctxsave (e : Bool) (x_s : BitVec 5) : Encode.Statement (.ctxsave e x_s) :=
  encode_ofUniform 0xA8000006 [(e.toNat, 30, 1), (x_s.toNat, 7, 5)]
    [(30, 1), (7, 5)] rfl none rfl ⟨e.toNat_lt, x_s.isLt, trivial⟩ rfl fun h w ⟨f0, f1, _⟩ A => by
    rw [decodeUniform, A 24 6 rfl, A 0 7 rfl, A 12 12 rfl, bit_of_fld f0, bv_of_fld f1]
    exact accept_ok h
theorem Encode.ctxload (e : Bool) (x_s : BitVec 5) : Encode.Statement (.ctxload e x_s) :=
  encode_ofUniform 0xA8000007 [(e.toNat, 30, 1), (x_s.toNat, 7, 5)]
    [(30, 1), (7, 5)] rfl none rfl ⟨e.toNat_lt, x_s.isLt, trivial⟩ rfl fun h w ⟨f0, f1, _⟩ A => by
    rw [decodeUniform, A 24 6 rfl, A 0 7 rfl, A 12 12 rfl, bit_of_fld f0, bv_of_fld f1]
    exact accept_ok h
theorem Encode.wingageWrite (x : BitVec 64) : Encode.Statement (.wingageWrite x) := nofun
theorem Encode.frmWrite (x : BitVec 64) : Encode.Statement (.frmWrite x) := nofun
theorem Encode.tcauseClear (x : BitVec 64) : Encode.Statement (.tcauseClear x) := nofun
theorem Encode.tvecWrite (x : BitVec 64) : Encode.Statement (.tvecWrite x) := nofun
theorem Encode.haltcast (x : BitVec 64) : Encode.Statement (.haltcast x) := nofun
theorem Encode.rdvtoWrite (x : BitVec 64) : Encode.Statement (.rdvtoWrite x) := nofun
theorem Encode.tsliceWrite (x : BitVec 64) : Encode.Statement (.tsliceWrite x) := nofun
theorem Encode.curatorBaseWrite (csr : BitVec 12) (x : BitVec 64) : Encode.Statement (.curatorBaseWrite csr x) := nofun
theorem Encode.snapresWrite (x : BitVec 64) : Encode.Statement (.snapresWrite x) := nofun
theorem Encode.csrPlainWrite (csr : BitVec 12) (x : BitVec 64) : Encode.Statement (.csrPlainWrite csr x) := nofun
theorem Encode.moduleReset (failed : Option Nat) (bad : List Nat) : Encode.Statement (.moduleReset failed bad) := nofun
theorem Encode.slotAged (core slot : Nat) : Encode.Statement (.slotAged core slot) := nofun
theorem Encode.chorusDraw (core slot : Nat) : Encode.Statement (.chorusDraw core slot) := nofun
theorem Encode.laneGrant (core ch : Nat) : Encode.Statement (.laneGrant core ch) := nofun
theorem Encode.sceneFetch (core ch : Nat) : Encode.Statement (.sceneFetch core ch) := nofun
theorem Encode.headerWaitMet (core ch : Nat) : Encode.Statement (.headerWaitMet core ch) := nofun
theorem Encode.translationWalk (core : Nat) (va : BitVec 64) : Encode.Statement (.translationWalk core va) := nofun
theorem Encode.loadComplete (tk op : Nat) : Encode.Statement (.loadComplete tk op) := nofun
theorem Encode.waitEvaluate (tk : Nat) : Encode.Statement (.waitEvaluate tk) := nofun
theorem Encode.waitTimeout (tk : Nat) : Encode.Statement (.waitTimeout tk) := nofun
theorem Encode.causeDelivery (tk : Nat) : Encode.Statement (.causeDelivery tk) := nofun
theorem Encode.rdvTimeout (tk : Nat) : Encode.Statement (.rdvTimeout tk) := nofun
theorem Encode.matrixOpStart (core : Nat) : Encode.Statement (.matrixOpStart core) := nofun
theorem Encode.matrixOpComplete (core : Nat) : Encode.Statement (.matrixOpComplete core) := nofun
theorem Encode.accOpComplete (core : Nat) : Encode.Statement (.accOpComplete core) := nofun
theorem Encode.slewStep (cluster : Nat) : Encode.Statement (.slewStep cluster) := nofun
theorem Encode.fenceComplete (tk : Nat) : Encode.Statement (.fenceComplete tk) := nofun
theorem Encode.engineSlotFree (tk : Nat) : Encode.Statement (.engineSlotFree tk) := nofun
theorem Encode.engineOpComplete (op : Nat) : Encode.Statement (.engineOpComplete op) := nofun
theorem Encode.publishTake (tk : Nat) : Encode.Statement (.publishTake tk) := nofun
theorem Encode.castEnd (ck : Nat) : Encode.Statement (.castEnd ck) := nofun
theorem Encode.copyNodeStart (node : Nat) : Encode.Statement (.copyNodeStart node) := nofun
theorem Encode.boxOfficePass (g : Nat) : Encode.Statement (.boxOfficePass g) := nofun
theorem Encode.blockerTimeout (g : Nat) : Encode.Statement (.blockerTimeout g) := nofun
theorem Encode.coreGate (core : Nat) : Encode.Statement (.coreGate core) := nofun
theorem Encode.coreWakeComplete (core : Nat) : Encode.Statement (.coreWakeComplete core) := nofun
theorem Encode.powerInterval (temps : List Nat) : Encode.Statement (.powerInterval temps) := nofun
theorem Encode.refreshWindowStart (store : Nat) : Encode.Statement (.refreshWindowStart store) := nofun
theorem Encode.refreshWindowEnd (store : Nat) : Encode.Statement (.refreshWindowEnd store) := nofun
theorem Encode.ptsAdvance (core : Nat) : Encode.Statement (.ptsAdvance core) := nofun
theorem Encode.sliceExpiry (ck : Nat) : Encode.Statement (.sliceExpiry ck) := nofun
theorem Encode.sliceDecision (ck : Nat) : Encode.Statement (.sliceDecision ck) := nofun
theorem Encode.haltRequest (ck : Nat) : Encode.Statement (.haltRequest ck) := nofun
theorem Encode.hostCxlMemAccess (g : HostPath) (addr : Nat) (write : Bool) (data : List (BitVec 8)) :
    Encode.Statement (.hostCxlMemAccess g addr write data) := nofun
theorem Encode.packetTagDrop (tag tile : Nat) : Encode.Statement (.packetTagDrop tag tile) := nofun
theorem Encode.regionTestFail (region : Nat) : Encode.Statement (.regionTestFail region) := nofun
theorem Encode.coreComputeFail (core : Nat) : Encode.Statement (.coreComputeFail core) := nofun
theorem Encode.snapshotComplete (g : Nat) : Encode.Statement (.snapshotComplete g) := nofun
theorem Encode.fabricFlitReceive (port : Nat) (flit : List (BitVec 8)) : Encode.Statement (.fabricFlitReceive port flit) := nofun
theorem Encode.fabricPortDown (port : Nat) : Encode.Statement (.fabricPortDown port) := nofun
theorem Encode.stubLaunch (g : HostPath) (opa : BitVec 64) : Encode.Statement (.stubLaunch g opa) := nofun
theorem Encode.stubGnode (g : HostPath) (opa : BitVec 64) : Encode.Statement (.stubGnode g opa) := nofun
theorem Encode.stubGdep (g : HostPath) (opa opb : BitVec 64) : Encode.Statement (.stubGdep g opa opb) := nofun
theorem Encode.createGallery (tag : BitVec 8) (a0 a1 a2 a3 a4 : BitVec 64) : Encode.Statement (.createGallery tag a0 a1 a2 a3 a4) := nofun
theorem Encode.removeGallery (tag : BitVec 8) (a0 a1 a2 a3 a4 : BitVec 64) : Encode.Statement (.removeGallery tag a0 a1 a2 a3 a4) := nofun
theorem Encode.growGallery (tag : BitVec 8) (a0 a1 a2 a3 a4 : BitVec 64) : Encode.Statement (.growGallery tag a0 a1 a2 a3 a4) := nofun
theorem Encode.shrinkGallery (tag : BitVec 8) (a0 a1 a2 a3 a4 : BitVec 64) : Encode.Statement (.shrinkGallery tag a0 a1 a2 a3 a4) := nofun
theorem Encode.migratePosition (tag : BitVec 8) (a0 a1 a2 a3 a4 : BitVec 64) : Encode.Statement (.migratePosition tag a0 a1 a2 a3 a4) := nofun
theorem Encode.compactGallery (tag : BitVec 8) (a0 a1 a2 a3 a4 : BitVec 64) : Encode.Statement (.compactGallery tag a0 a1 a2 a3 a4) := nofun
theorem Encode.retirePosition (tag : BitVec 8) (a0 a1 a2 a3 a4 : BitVec 64) : Encode.Statement (.retirePosition tag a0 a1 a2 a3 a4) := nofun
theorem Encode.setCommunicator (tag : BitVec 8) (a0 a1 a2 a3 a4 : BitVec 64) : Encode.Statement (.setCommunicator tag a0 a1 a2 a3 a4) := nofun
theorem Encode.haltCast (tag : BitVec 8) (a0 a1 a2 a3 a4 : BitVec 64) : Encode.Statement (.haltCast tag a0 a1 a2 a3 a4) := nofun
theorem Encode.readBack (tag : BitVec 8) (a0 a1 a2 a3 a4 : BitVec 64) : Encode.Statement (.readBack tag a0 a1 a2 a3 a4) := nofun
theorem Encode.readLog (tag : BitVec 8) (a0 a1 a2 a3 a4 : BitVec 64) : Encode.Statement (.readLog tag a0 a1 a2 a3 a4) := nofun
theorem Encode.stageFirmware (tag : BitVec 8) (a0 a1 a2 a3 a4 : BitVec 64) : Encode.Statement (.stageFirmware tag a0 a1 a2 a3 a4) := nofun
theorem Encode.identify (tag : BitVec 8) (a0 a1 a2 a3 a4 : BitVec 64) : Encode.Statement (.identify tag a0 a1 a2 a3 a4) := nofun
theorem Encode.spdmGetMeasurements (g : Nat) (nonce : List (BitVec 8)) : Encode.Statement (.spdmGetMeasurements g nonce) := nofun
theorem Encode.tdispLock (g : Nat) : Encode.Statement (.tdispLock g) := nofun
theorem Encode.groupKeyDelivery (g grp : Nat) (key : List (BitVec 8)) : Encode.Statement (.groupKeyDelivery g grp key) := nofun
theorem Encode.snapshotStreamPassesLine (g line : Nat) : Encode.Statement (.snapshotStreamPassesLine g line) := nofun
theorem Encode.managementRequestMalformed (words : List (BitVec 64)) : Encode.Statement (.managementRequestMalformed words) := nofun
theorem Encode.stubOpMalformed (g : HostPath) (op opa opb : BitVec 64) :
    Encode.Statement (.stubOpMalformed g op opa opb) := nofun
theorem Encode.spdmSecuredSession (g : Nat) : Encode.Statement (.spdmSecuredSession g) := nofun
theorem Encode.tdispRunRequest (g : Nat) : Encode.Statement (.tdispRunRequest g) := nofun
theorem Encode.ideKeyManagement (g stream : Nat) (key : List (BitVec 8)) : Encode.Statement (.ideKeyManagement g stream key) := nofun
theorem Encode.fabricBringUp (ports : List Nat) (number : Nat) : Encode.Statement (.fabricBringUp ports number) := nofun

end Sys2Proof.Laws
end

