-- ==== Sys2Proof/Tests/Slice0.lean ====
section
/-! SUPPORT. The model's own tests. Expected words and results are the specification's own encodings and examples, or
calculated by hand from its rules; what each rests on stands above it. -/
namespace Sys2Proof.Tests
open Sys2Proof.Machine Sys2Proof.Safety

/-! ## Decoding: words that the specification writes out -/

/-- 02_encoding.md R10; 05 R129, R135, R139, R145; the encodings under each entry. -/
theorem test_decode_integer :
    decodeWord 0x4108_0040 0 = .ok (.add true 2 0 1) ∧ decodeWord 0x0C10_20C2 0 = .ok (.cmp false 1 0 2 3 2) ∧
    decodeWord 0x071C_5678 0 = .ok (.movi false 7 0x5678) ∧ decodeWord 0x071E_2468 0 = .ok (.movhi false 7 0x2468) ∧
    decodeWord 0x8108_8600 0 = .ok (.uadd false 1 2 3) ∧ decodeWord 0x8208_7FFF 0 = .ok (.uaddi false 1 1 0x3FFF) :=
  ⟨rfl, rfl, rfl, rfl, rfl, rfl⟩

theorem test_decode_control :
    decodeWord 0x7010_0005 0 = .ok (.bra 1 0 5) ∧ decodeWord 0x701F_FFFD 0 = .ok (.bra 1 1 0x7FFFD) ∧
    decodeWord 0x7110_6001 0 = .ok (.calli 4 6) ∧ decodeWord 0x7100_4002 0 = .ok (.ret 4) ∧
    decodeWord 0xC82A_FFF8 0 = .ok (.ubra 5 2 0xFFF8) ∧ decodeWord 0xCE34_2500 0 = .ok (.waitAny 3 8 1 10) ∧
    decodeWord 0xCC00_0000 0 = .ok .reform ∧ decodeWord 0xCD00_0000 0 = .ok .exit :=
  ⟨rfl, rfl, rfl, rfl, rfl, rfl, rfl, rfl⟩

/-- 06_thread_float.md. -/
theorem test_decode_float :
    decodeWord 0x1010_1080 0 = .ok (.fadd false 4 1 2) ∧ decodeWord 0x1120_3102 0 = .ok (.fcmp false 2 0 3 4 2) ∧
    decodeWord 0x1228_B30A 0 = .ok (.pkfmaBf false 10 11 12) ∧ decodeWord 0x1820_2103 0 = .ok (.dfma false 8 2 4) ∧
    decodeWord 0x1C18_5001 0 = .ok (.frsq false 6 5) ∧ decodeWord 0x1D14_2301 0 = .ok (.cvt false 5 2 12 1) ∧
    decodeWord 0x1F51_6600 0 = .ok (.ctbl false 20 22 24) ∧ decodeWord 0x1E1C_3240 0 = .ok (.qntTf8 false 7 3 9) :=
  ⟨rfl, rfl, rfl, rfl, rfl, rfl, rfl, rfl⟩

/-- 07_thread_memory_traps.md. -/
theorem test_decode_memory :
    decodeWord 0x200C_1110 0 = .ok (.ld false 3 1 2 0 2 0) ∧ decodeWord 0x2118_A058 0 = .ok (.st false 6 10 0 1 3 0) ∧
    decodeWord 0x2320_4113 0 = .ok (.mcst false 8 4 2 0 0 3) ∧ decodeWord 0x2400_0005 0 = .ok (.fence false 5) ∧
    decodeWord 0x2814_2180 0 = .ok (.aadd false 5 2 3 0 0 0) ∧ decodeWord 0x2820_C067 0 = .ok (.acas false 8 12 0 1 1 0) ∧
    decodeWord 0xA840_0200 0 = .ok (.csrr false 0x400 4) ∧ decodeWord 0xA840_0201 0 = .ok (.csrw false 0x400 4) :=
  ⟨rfl, rfl, rfl, rfl, rfl, rfl, rfl, rfl⟩

/-- 09_core.md. -/
theorem test_decode_window :
    decodeWord 0x2D14_3200 0 = .ok (.shflIdx false 5 3 4 0) ∧ decodeWord 0x2C08_1190 0 = .ok (.redux false 2 1 3 0) ∧
    decodeWord 0x2C08_11B8 0 = .ok (.scanExc false 2 1 3 8) ∧ decodeWord 0x2C1C_61C0 0 = .ok (.had false 7 6 3) ∧
    decodeWord 0x9811_8E00 0 = .ok (.conv false 2 6 7) ∧ decodeWord 0x9848_8001 0 = .ok (.qread false 9 2 0) ∧
    decodeWord 0x9901_4C01 0 = .ok (.binit false 5 6) ∧ decodeWord 0x9921_4000 0 = .ok (.bar false 4 5) :=
  ⟨rfl, rfl, rfl, rfl, rfl, rfl, rfl, rfl⟩

/-- 11_cluster_matrix.md, 12_cluster_iteration.md. -/
theorem test_decode_matrix :
    decodeWord 0x9002_9800 0 = .ok (.vres false 0 10 12) ∧ decodeWord 0x9010_0001 0 = .ok (.vrel false 1) ∧
    decodeWord 0x9126_0200 0 = .ok (.mma false 2 3 0 1 0) ∧ decodeWord 0x9240_4601 0 = .ok (.qmma false 4 0 2 3 1) ∧
    decodeWord 0x9332_1200 0 = .ok (.mpoly false 3 1 0 2 2 0) ∧ decodeWord 0x9410_520F 0 = .ok (.miter false 1 0 1 2 1 0 15) ∧
    decodeWord 0x9520_8501 0 = .ok (.aload false 1 4 5) ∧ decodeWord 0x9544_0907 0 = .ok (.astat false 2 1 9) ∧
    decodeWord 0x951D_8006 0 = .ok (.acoef false 7 12) :=
  ⟨rfl, rfl, rfl, rfl, rfl, rfl, rfl, rfl, rfl⟩

/-- 15_die_engines_refresh.md, 16_package_launch_power.md, 18_package_galleries.md, 22_fabric_host.md. -/
theorem test_decode_system :
    decodeWord 0x9C52_D801 0 = .ok (.gather false 10 11 12) ∧ decodeWord 0x9D01_0A00 0 = .ok (.publish false 4 5) ∧
    decodeWord 0x9E52_D800 0 = .ok (.coll false 10 11 12) ∧ decodeWord 0xA001_0C02 0 = .ok (.gdep false 4 6) ∧
    decodeWord 0x9A21_4000 0 = .ok (.gbar false 4 5) ∧ decodeWord 0xA13A_1201 0 = .ok (.recv false 7 8 9) ∧
    decodeWord 0xA431_C000 0 = .ok (.rfcal false 6 7) ∧ decodeWord 0xA521_4C00 0 = .ok (.snap false 4 5 6) ∧
    decodeWord 0xA800_0306 0 = .ok (.ctxsave false 6) ∧ decodeWord 0xE800_0004 0 = .ok .rett :=
  ⟨rfl, rfl, rfl, rfl, rfl, rfl, rfl, rfl, rfl, rfl⟩

/-- R22, R35: MOVL takes the word after it. -/
theorem test_decode_two_words :
    decodeBytes [0x00, 0x00, 0x5C, 0xBF, 0x78, 0x56, 0x34, 0x12, 0xAA] = .ok (.movlHi false 11 0x1234_5678, [0xAA]) ∧
    decodeBytes [0x00, 0x00, 0x5C, 0xBF] = .error .truncated :=
  ⟨rfl, rfl⟩

/-- R30, R33, R42: what is no instruction is refused by name: an unused minor, a reserved field, a prefix with E, a
transfer without E, an odd pair. -/
theorem test_decode_refuses :
    decodeWord 0x0100_003F 0 = .error .unusedMinor ∧ decodeWord 0xCC00_0001 0 = .error .reservedField ∧
    decodeWord 0x8C00_0000 0 = .error .sceneEnd ∧ decodeWord 0x0104_0044 0 = .error .illegalOperand :=
  ⟨rfl, rfl, rfl, rfl⟩

/-! ## Well-formedness: an ill-formed term for each check (R24, R30, R37 to R41, R161, R177, R180, R182) -/

theorem test_wf_registers :
    (Instr.add64 false 1 2 4).wf = false ∧ (Instr.dadd false 2 3 4).wf = false ∧ (Instr.drcp false 2 5).wf = false ∧
    (Instr.dcmp false 1 0 2 3 0).wf = false ∧ (Instr.ctbl false 1 3 4).wf = false ∧ (Instr.jmpi 3).wf = false ∧
    (Instr.calli 5 6).wf = false ∧ (Instr.call 7 0).wf = false ∧ (Instr.s2vLo false 1 32).wf = false ∧
    (Instr.v2sHi false 32 1).wf = false ∧ (Instr.v2sPair false 3 1).wf = false ∧ (Instr.vres false 0 31 0).wf = false ∧
    (Instr.gather false 0 31 0).wf = false ∧ (Instr.scatter false 0 31 0).wf = false ∧
    (Instr.waitAny 0 31 1 0).wf = false ∧ (Instr.cvt false 1 2 0 1).wf = true ∧ (Instr.cvt false 1 3 0 1).wf = false := by
  decide

theorem test_wf_memory :
    (Instr.ld false 1 0 0 0 3 0).wf = false ∧ (Instr.ld false 2 0 0 0 4 0).wf = false ∧
    (Instr.ld false 0 0 0 0 7 0).wf = false ∧ (Instr.ld false 0 0 0 0 2 5).wf = false ∧
    (Instr.ld false 0 1 0 1 2 0).wf = false ∧ (Instr.ld false 0 2 1 1 2 0).wf = false ∧
    (Instr.st false 0 0 0 0 5 0).wf = false ∧ (Instr.st false 0 0 0 0 2 1).wf = false ∧
    (Instr.pfetch false 0 0 0 4).wf = false ∧ (Instr.mcst false 1 0 0 0 1 0).wf = false ∧
    (Instr.mcst false 0 62 0 0 0 3).wf = false ∧ (Instr.mcst false 0 58 0 1 0 3).wf = false ∧
    (Instr.fence false 0).wf = false ∧ (Instr.aadd false 1 0 0 0 1 0).wf = false ∧
    (Instr.acas false 1 0 0 0 0 0).wf = false ∧ (Instr.acas false 2 0 0 0 1 0).wf = false := by
  decide

theorem test_wf_codes :
    (Instr.scene 0 12 0 0).wf = false ∧ (Instr.scene 0 0 14 0).wf = false ∧ (Instr.cmp false 0 0 0 0 10).wf = false ∧
    (Instr.cmpi false 0 0 0 10 0).wf = false ∧ (Instr.fcmp false 0 0 0 0 8).wf = false ∧
    (Instr.cvt false 0 0 6 1).wf = false ∧ (Instr.cvt false 0 0 1 1).wf = false ∧ (Instr.vote false 0 0 0 6).wf = false ∧
    (Instr.redux false 0 0 0 11).wf = false ∧ (Instr.pfx 0 0 6 0 0).wf = false ∧ (Instr.ubra 0 7 0).wf = false ∧
    (Instr.ubra 1 0 0).wf = false ∧ (Instr.astat false 0 5 0).wf = false ∧ (Instr.conv false 16 0 0).wf = false ∧
    (Instr.qread false 0 16 0).wf = false ∧ (Instr.qread false 0 0 4).wf = false := by
  decide

/-! ## A small machine: one cast with one thread on core 0 of gallery 1 -/

/-- The machine, with the thread and the cast given. -/
def on (t : Thread) (c : Cast) : State :=
  { State.reset.placeScene 0 0 with threads := [(0, t)], casts := [(0, c)] }
/-- Its thread, which stands at the first word of a scene, and its cast, with 4 KiB of scratchpad. -/
def t0 : Thread := { Thread.fresh placedProd 0 0 0 with pc := 0x1004, hdr := 0x1000, run := .member, inScene := true }
def c0 : Cast := { Cast.fresh 0 0 placedProd (.core 0) 0 with spsize := 0x1000 }
/-- The thread with lane and uniform registers. -/
def regs (v : Tab Word) (u : Tab DWord) : Thread := { t0 with v := v, u := u }
/-- What the thread is after one instruction. -/
def after (i : Instr) (t : Thread) : Option Thread :=
  match exec i (on t c0) with
  | .next z => z.thread 0
  | _ => none
/-- Lane register n after one instruction. -/
def laneAfter (i : Instr) (t : Thread) (n : Nat) : Option Word := (after i t).map (·.lane n)
/-- Uniform register n after one instruction. -/
def uniAfter (i : Instr) (t : Thread) (n : Nat) : Option DWord := (after i t).map (·.uni n)

/-- R120: the example of ADD and ADDC. -/
theorem test_add_wraps :
    laneAfter (.add false 2 0 1) (regs [(0, 0xFFFF_FFFF), (1, 2)] []) 2 = some 1 ∧
    laneAfter (.addc false 2 0 1) (regs [(0, 0xFFFF_FFFF), (1, 2)] []) 2 = some 1 := by decide
/-- R127: the examples of DIV and REM, and division by 0. -/
theorem test_div_rem :
    laneAfter (.div false 2 0 1) (regs [(0, 0xFFFF_FFF9), (1, 2)] []) 2 = some 0xFFFF_FFFD ∧
    laneAfter (.rem false 2 0 1) (regs [(0, 0xFFFF_FFF9), (1, 2)] []) 2 = some 0xFFFF_FFFF ∧
    laneAfter (.divu false 2 0 1) (regs [(0, 7)] []) 2 = some 0xFFFF_FFFF ∧
    laneAfter (.remu false 2 0 1) (regs [(0, 7)] []) 2 = some 7 := by decide
/-- R121: a shift by 32 or more, and the source that is also the destination. -/
theorem test_shifts :
    laneAfter (.shl false 0 0 1) (regs [(0, 3), (1, 32)] []) 0 = some 0 ∧
    laneAfter (.sar false 0 0 1) (regs [(0, 0x8000_0000), (1, 100)] []) 0 = some 0xFFFF_FFFF ∧
    laneAfter (.rotl false 0 0 1) (regs [(0, 0x8000_0001), (1, 33)] []) 0 = some 3 := by decide
/-- R122: a signed field of 4 bits at bit 4. -/
theorem test_bit_field : laneAfter (.bfx false 2 0 1) (regs [(0, 0x0000_00F0), (1, 0x0000_8404)] []) 2 = some 0xFFFF_FFFF := by
  decide
/-- R137, R35: unsigned wrap of USUB, the upper half of MOVL.HI. -/
theorem test_uniform :
    uniAfter (.usub false 3 1 2) (regs [] [(2, 1)]) 3 = some 0xFFFF_FFFF_FFFF_FFFF ∧
    uniAfter (.movlHi false 3 0x1234_5678) (regs [] [(3, 9)]) 3 = some 0x1234_5678_0000_0009 := by decide
/-- R129, R38: LT is signed, LTU is not. -/
theorem test_compare :
    (after (.cmp false 1 0 0 1 2) (regs [(0, 0xFFFF_FFFF), (1, 1)] [])).map (·.pred 1) = some true ∧
    (after (.cmp false 1 0 0 1 6) (regs [(0, 0xFFFF_FFFF), (1, 1)] [])).map (·.pred 1) = some false := by decide

/-- R150, R94: 1 + 2 is 3; a signalling operand gives the canonical NaN and raises NV (R107); 1 / 0 raises DZ (R158). -/
theorem test_fp32 :
    laneAfter (.fadd false 2 0 1) (regs [(0, 0x3F80_0000), (1, 0x4000_0000)] []) 2 = some 0x4040_0000 ∧
    laneAfter (.fadd false 2 0 1) (regs [(0, 0x7F80_0001), (1, 0x4000_0000)] []) 2 = some 0x7FC0_0000 ∧
    (after (.fadd false 2 0 1) (regs [(0, 0x7F80_0001), (1, 0x4000_0000)] [])).map (·.fflags) = some 0x10 ∧
    laneAfter (.frcp false 2 0) (regs [] []) 2 = some 0x7F80_0000 ∧
    (after (.frcp false 2 0) (regs [] [])).map (·.fflags) = some 0x08 := by decide
/-- R156, R157: halves by themselves; a pair. -/
theorem test_packed_and_fp64 :
    laneAfter (.pkadd false 2 0 1) (regs [(0, 0x3C00_4000), (1, 0x3C00_3C00)] []) 2 = some 0x4000_4200 ∧
    laneAfter (.dadd false 4 0 2) (regs [(1, 0x3FF0_0000), (3, 0x3FF0_0000)] []) 5 = some 0x4000_0000 := by decide
/-- R161, R163: 2.5 to INT32 rounds to even, inexactly. -/
theorem test_convert :
    laneAfter (.cvt false 2 0 1 12) (regs [(0, 0x4020_0000)] []) 2 = some 2 ∧
    (after (.cvt false 2 0 1 12) (regs [(0, 0x4020_0000)] [])).map (·.fflags) = some 1 := by decide
/-- R155: FRND of 2.5 gives 2. -/
theorem test_round : laneAfter (.frnd false 2 0) (regs [(0, 0x4020_0000)] []) 2 = some 0x4000_0000 := by decide

/-- The byte of the scratchpad of the cast after one instruction. -/
def scratchAfter (i : Instr) (t : Thread) (a : Nat) : Option Byte :=
  match exec i (on t c0) with
  | .next z => some (byteAt z.mem (Loc.scratch 0 a).cell)
  | _ => none

/-- R177, R178: a store of a word at s1 + v0 × 4 lays its lowest byte lowest; of a byte, one byte. -/
theorem test_store :
    scratchAfter (.st false 2 0 1 0 2 3) (regs [(0, 2), (2, 0x1122_3344)] [(1, 0x100)]) 0x108 = some 0x44 ∧
    scratchAfter (.st false 2 0 1 0 2 3) (regs [(0, 2), (2, 0x1122_3344)] [(1, 0x100)]) 0x10B = some 0x11 ∧
    scratchAfter (.st false 2 0 1 0 0 3) (regs [(0, 2), (2, 0x1122_3344)] [(1, 0x100)]) 0x103 = some 0 := by decide
/-- R178, R77, R80: a signed byte; the destination is outstanding until the load completes. -/
theorem test_load :
    (match exec (.ld false 2 0 1 0 5 3) { on (regs [] [(1, 0x100)]) c0 with mem := [((Loc.scratch 0 0x100).cell, 0x80)] } with
    | .next z => ((z.thread 0).map (fun t => (t.lane 2, t.outst.map (fun o => (o.regs, o.vals))))) ==
        some (0, [([2], [0xFFFF_FF80])])
    | _ => false) = true := by decide
/-- R182, R183: AADD stores the sum and leaves the operand register for the old value. -/
theorem test_atomic :
    scratchAfter (.aadd false 2 0 1 0 0 1) (regs [(2, 7)] [(1, 0x100)]) 0x100 = some 7 ∧
    scratchAfter (.acas false 2 0 1 0 0 1) (regs [(2, 0), (3, 9)] [(1, 0x100)]) 0x100 = some 9 := by decide
/-- R175, R193: a misaligned word takes ALIGN with its address. -/
theorem test_align :
    (match exec (.ld false 2 0 1 0 2 3) (on (regs [] [(1, 0x102)]) { c0 with tvec := 0x5001 }) with
    | .next z => (z.thread 0).map (fun t => (t.tcause, t.tval, t.tepc, t.pc, t.priv, t.run))
    | _ => none) = some (0x20, 0x102, 0x1004, 0x5000, .supervisor, .filed) := by decide
/-- R174: beyond the scratchpad. -/
theorem test_range :
    (after (.ld false 2 0 1 0 2 3) (regs [] [(1, 0x1000)])).map (·.tcause) = some 0x100 := by decide

/-- R139, R145: a branch not taken, and taken on a uniform register; the offset is in words. -/
theorem test_branch_not_taken : (after (.bra 1 0 5) t0).map (·.pc) = some 0x1008 := by decide
/-- R198: TRAP resumes past itself. -/
theorem test_trap :
    (match exec (.trap false 0x12) (on t0 { c0 with tvec := 0x5001 }) with
    | .next z => (z.thread 0).map (fun t => (t.tcause, t.tval, t.tepc))
    | _ => none) = some (0x1_0000, 0x12, 0x1008) := by decide
/-- R197: with TVEC not enabled the thread ends. -/
theorem test_unhandled : (after (.trap false 0) t0).map (·.run) = some .exited := by decide
/-- R196: RETT goes to TEPC at the privilege before. -/
theorem test_rett :
    (after .rett { t0 with priv := .supervisor, tepc := 0x2008, tstat := { TStat.zero with dist := 2 } }).map
      (fun t => (t.pc, t.hdr, t.priv)) = some (0x2008, 0x2000, .program) := by decide
/-- R4, R44: a program may not read TCAUSE, and nobody writes TID. -/
theorem test_csr_access :
    (after (.csrr false 0x400 4) t0).map (fun t => (t.tcause, t.tval)) = some (2, 0x400) ∧
    (after (.csrw false 0x200 4) t0).map (fun t => (t.tcause, t.tval)) = some (1, 0x200) ∧
    uniAfter (.csrr false 0x201 4) t0 4 = some 32 := by decide
/-- R69: WINGAGE is clamped. -/
theorem test_wingage :
    (match exec (.wingageWrite 5) (on t0 c0) with
    | .next z => some (z.core 0).wingage
    | _ => none) = some 16 := by decide
/-- R85, R84. -/
theorem test_exit_and_reform :
    (after .exit t0).map (·.run) = some .exited ∧ (after .reform t0).map (fun t => (t.run, t.pc)) = some (.filed, 0x1008) := by
  decide
/-- R79, R83: the header binds its cues; a landing header has a descriptor after it. -/
theorem test_scene :
    (after (.scene 0 1 2 1) { t0 with pc := 0x1000, inScene := false }).map (fun t => (t.pc, t.cueA, t.cueB)) =
      some (0x1008, 1, 2) ∧
    (after (.scene 2 1 2 0) { t0 with pc := 0x1000, k := [(1, 1)] }).map (·.pc) = some 0x1000 := by decide
/-- R219: SHFL among two members of a window. -/
theorem test_shuffle :
    (match exec (.shflXor false 5 3 4 1) { on t0 c0 with focus := 1, threads :=
        [(0, { regs [(3, 10)] [(4, 3)] with held := some (.rdv 3 0) }), (1, regs [(3, 11)] [(4, 3)])] } with
    | .next z => ((z.thread 0).map (·.lane 5), (z.thread 1).map (·.lane 5))
    | _ => (none, none)) = (some 11, some 10) := by decide
/-- R229, R230: BINIT expects 2; the first arrival waits, the second moves the phase. -/
theorem test_barrier :
    (BarRec.of 2).arrive false = ⟨2, 1, 0, 0⟩ ∧ (⟨2, 1, 0, 0⟩ : BarRec).arrive false = ⟨2, 0, 1, 0⟩ := by decide
/-- R390: RECV with no message answers 0 and zeroes. -/
theorem test_recv_empty :
    (after (.recv false 7 8 9) (regs [] [(7, 5), (9, 5)])).map (fun t => (t.uni 7, t.uni 9)) = some (0, 0) := by decide
/-- R354: the worked charge of a cast of BW 250 that moves its vault to band 1. -/
theorem test_charge_band1 : shareOf 1 - shareOf 0 + 250 = (266 : Int) ∧ shareOf 2 = 64 := by decide
/-- R372: the last of two arrivals of the only company moves the phase. -/
theorem test_grid_barrier :
    ((Grid.initial 1).arriveAt 0 2).phase = 0 ∧ (((Grid.initial 1).arriveAt 0 2).arriveAt 0 2).phase = 1 := by decide
/-- R319, R320: ON is inverted, GEN rises by one and wraps. -/
theorem test_stage_word : stageNext 0x0003_0001 = 0x0004_0000 ∧ stageNext 0xFFFF_0000 = 1 := by decide
/-- R360: a step up by the ramp, under the cap. -/
theorem test_slew :
    ((⟨0, 0, 0, [1, 2], [1]⟩ : Slew).step 8 16).a = 1 ∧ ((⟨8, 0, 3, [1], [4]⟩ : Slew).step 8 4).a = 4 := by decide
/-- R384: GSEL. -/
theorem test_gsel :
    (match exec (.csrPlainWrite 0xC00 0x1FE) State.reset with
    | .next z => some z.dev.gsel
    | _ => none) = some 0xFE := by decide
/-- R379: a gallery on tiles 0 and 1 takes tag 1. -/
theorem test_free_tag : State.reset.freeTag = some 1 ∧ connected [0, 1] = true ∧ connected [0, 2] = false ∧
    connected [6, 7] = false := by decide
/-- Log 2: the instruction placed is the next that a step runs. -/
theorem test_step_runs_placed_word :
    (match step (State.reset.withFetchWord 32 0x071C_5678) with
    | .next z => (z.thread 0).map (·.lane 7)
    | _ => none) = some 0x5678 := by decide

/-- A thread in focus with nothing outstanding and no breakpoint set may execute a word of any registers. -/
theorem ready_in {s : State} {t : Thread} {c : Cast} {rs : List Nat} (hf : s.focus = 0 := by rfl)
    (ht : s.thread 0 = some t := by rfl) (hc : s.cast 0 = some c := by rfl) (ho : t.outst = [] := by rfl)
    (hs : Unstepped t := by exact .inl rfl) (hv : c.vbud = 64 := by rfl) (hu : c.sbud = 32 := by rfl)
    (hb : c.bpctl = [] := by rfl) (h : ∀ r ∈ rs, r < 96 := by decide) : Ready s t c rs where
  thread := by rw [hf]; exact ht
  cast := by rw [hf]; exact hc
  budget r hr := by have := h r hr; rw [hv, hu]; split <;> omega
  hazard r _ o hm := by rw [ho] at hm; cases hm
  noBreak := by
    unfold breakpointAt
    rw [hb]
    have : ∀ n, filterMatches (tget [] n 0#64) t (tidOf s.focus) = false := fun n => by simp [filterMatches, tget, tfind]
    split
    · rfl
    · simp only [List.find?_eq_none]
      intro n _
      erw [this n]
      simp
  noStep := hs
/-- Page tables that map the lowest 2^36 addresses of gallery 1 to the same addresses of its memory, all that a program may
do permitted (R185, R186). -/
def mapped : List Host.Cell := [((Loc.dram 1 0).cell, 1), ((Loc.dram 1 2).cell, 1), ((Loc.dram 1 0x10000).cell, 0x1F)]
/-- The small machine with these tables. -/
def onMapped (t : Thread) (c : Cast) : State := { on t c with mem := mapped }
theorem mapped_wf : Memory.wf mapped = true := by decide
/-- The gallery of the small machine. -/
def g1 : Gallery := Gallery.fresh [0] false false 0
/-- The same tables, their leaf accessed and written already (R187). -/
def mappedAD : List Host.Cell := mapped.take 2 ++ [((Loc.dram 1 0x10000).cell, 0x9F), ((Loc.dram 1 0x10001).cell, 1)]
def onAD (t : Thread) (c : Cast) : State := { on t c with mem := mappedAD }
/-- What the walk finds through these tables: every low address is its own translation. -/
def lowPlace (a : Nat) : Xlat := ⟨.dram 1 a, 0x19F, 0x10000, 36, [0, 0x10000]⟩
/-- A memory that holds these tables. -/
structure LowTables (m : List Host.Cell) : Prop where
  root : numAt m (Loc.dram 1 0).cell 8 = 0x10001
  leaf : numAt m (Loc.dram 1 0x10000).cell 8 = 0x19F
theorem lowTables_mappedAD : LowTables mappedAD := ⟨by decide, by decide⟩
theorem translate_snap {m : List Host.Cell} {a : DWord} {pr : Priv} {k : Acc} (x : Option Snap) (h : LowTables m)
    (ha : a.toNat < 2 ^ 20) : translate m 1 { g1 with snap := x } a pr k = .ok (lowPlace a.toNat) := by
  have h1 : a.toNat / 2 ^ pageBits 1 % 1024 = 0 := by
    rw [Nat.div_eq_of_lt (Nat.lt_trans ha (by decide)), Nat.zero_mod]
  have h2 : a.toNat / 2 ^ pageBits 2 % 1024 = 0 := by
    rw [Nat.div_eq_of_lt (Nat.lt_trans ha (by decide)), Nat.zero_mod]
  have w : walk m 1 g1 a.toNat = .leaf 0x19F 0x10000 36 [0, 0x10000] := by
    have e1 : numAt m (Loc.dram 1 (g1.groot.toNat + 8 * 0)).cell 8 = 0x10001 := h.root
    have e2 : numAt m (Loc.dram 1 (fld 0x10001 16 40 * 2 ^ 16 + 8 * 0)).cell 8 = 0x19F := h.leaf
    have b1 : ¬ g1.memSize < g1.groot.toNat + 8 * 0 + 8 := by decide
    have b2 : ¬ g1.memSize < fld 0x10001 16 40 * 2 ^ 16 + 8 * 0 + 8 := by decide
    rw [walk, walkFrom, h1]
    simp only [e1, if_neg b1]
    rw [if_neg (by decide), if_neg (by decide), walkFrom, h2]
    simp only [e2, if_neg b2]
    rfl
  have w' : walk m 1 { g1 with snap := x } a.toNat = .leaf 0x19F 0x10000 36 [0, 0x10000] := w
  have h56 : a.toNat / 2 ^ 56 = 0 := Nat.div_eq_of_lt (Nat.lt_trans ha (by decide))
  have hm : a.toNat % 2 ^ 36 = a.toNat := Nat.mod_eq_of_lt (Nat.lt_trans ha (by decide))
  have hp : permitted 0x19F k = true := by cases k <;> decide
  have hs : ¬ ({ g1 with snap := x } : Gallery).memSize ≤ a.toNat :=
    show ¬ g1.memSize ≤ a.toNat from Nat.not_le.2 (Nat.lt_trans ha (by decide))
  simp only [Sys2Proof.Machine.translate, w', h56, hm, hp, lowPlace]
  simp [bit, fld, hs, placeOf]
theorem translate_low {m : List Host.Cell} {a : DWord} {pr : Priv} {k : Acc} (h : LowTables m) (ha : a.toNat < 2 ^ 20) :
    translate m 1 g1 a pr k = .ok (lowPlace a.toNat) := translate_snap none h ha
/-- A machine on these tables, and a program's cast of its gallery. -/
structure OnLow (s : State) (t : Thread) (c : Cast) : Prop where
  mem : LowTables s.mem
  gal : s.gal 1 = some g1
  gallery : c.gallery = 1
  priv : t.priv = .program
  bad : s.bad = []
theorem readable_clean {s : State} (h : s.bad = []) : s.readable = s.mem := by simp [State.readable, h]
/-- A walk through them leaves memory as it was: the leaf is accessed and written already. -/
theorem walked_low {s : State} (h : LowTables s.mem) {agent a : Nat} {k : Acc} :
    (s.walked agent 1 (lowPlace a) k).mem = s.mem := by
  have m : (s.walkReads agent 1 [0, 0x10000]).mem = s.mem := (walkReads_keeps _ _ _ _).mem
  have w : ((s.walkReads agent 1 (lowPlace a).trail).markLeaf agent 1 (lowPlace a) k).mem = s.mem := by
    change ((s.walkReads agent 1 [0, 0x10000]).markLeaf agent 1 (lowPlace a) k).mem = s.mem
    generalize s.walkReads agent 1 [0, 0x10000] = z at m ⊢
    simp only [State.markLeaf, lowPlace, m, h.leaf]
    cases k <;> exact m
  exact (leaseWalk_keeps _ agent 1 (lowPlace a)).mem.trans w
/-- An aligned low address is found at its own place, and the tables stay as they are. -/
theorem locate_low {s : State} {t : Thread} {c : Cast} {ck n : Nat} {k : Acc} {a : DWord} (h : OnLow s t c)
    (ha : a.toNat < 2 ^ 20) (hn : a.toNat % n = 0) :
    ∃ z, s.locate t c ck .global a n k = .ok (z, .dram 1 a.toNat) ∧ OnLow z t c := by
  have hw := walked_keeps s c.agent 1 (lowPlace a.toNat) k
  refine ⟨s.walked c.agent 1 (lowPlace a.toNat) k, ?_, ?_, ?_, h.gallery, h.priv, hw.1.bad.trans h.bad⟩
  · rw [State.locate, if_neg (by omega), h.gallery, h.gal]
    simp only [h.priv, readable_clean h.bad, translate_low h.mem ha]
    rfl
  · rw [walked_low h.mem]
    exact h.mem
  · rw [State.gal, (walked_keeps _ _ _ _ _).2.1]
    exact h.gal
theorem watch_none {t : Thread} {c : Cast} {tk n : Nat} {sp : Space} {a : DWord} {k : Acc} (h : c.wpctl = []) :
    watchpointAt c t (tidOf tk) sp a n k = none := by
  unfold watchpointAt
  rw [h]
  repeat' split
  all_goals rfl
theorem checked_low {s : State} {t : Thread} {c : Cast} {tk n : Nat} {k : Acc} {a : DWord} (h : OnLow s t c)
    (hw : c.wpctl = []) (ha : a.toNat < 2 ^ 20) (hn : a.toNat % n = 0) :
    ∃ z, s.checked t c tk .global a n k = .ok (z, .dram 1 a.toNat) ∧ OnLow z t c := by
  obtain ⟨z, e, hz⟩ := locate_low (ck := castOf tk) (k := k) h ha hn
  exact ⟨z, by rw [State.checked, e]; simp only [Res.bind, watch_none hw], hz⟩
theorem owePoison_priv (t : Thread) (b : Bool) (op : Nat) (a : DWord) : (t.owePoison b op a).priv = t.priv := by
  unfold Thread.owePoison
  repeat' split
  all_goals rfl
theorem see_priv (t : Thread) (l : Loc) (n : Nat) (k : Key) : (t.see l n k).priv = t.priv := by
  unfold Thread.see
  split <;> rfl
/-- Sixteen doublewords, and more, are read at low addresses. -/
theorem readDoubles_low {c : Cast} {tk : Nat} (hw : c.wpctl = []) (n : Nat) {s : State} {t : Thread} (h : OnLow s t c)
    (a : DWord) (ha : a.toNat + 8 * n ≤ 2 ^ 20) (h8 : a.toNat % 8 = 0) (acc : List DWord) :
    ∃ r, State.readDoubles c tk n a s t acc = .ok r := by
  induction n generalizing s t a acc with
  | zero => exact ⟨_, rfl⟩
  | succ n ih =>
    obtain ⟨z, e, hz⟩ := checked_low (tk := tk) (k := .read) h hw (show a.toNat < 2 ^ 20 by omega) h8
    simp only [State.readDoubles, e, Res.after, Res.bind, State.readBy]
    have hk := get_keeps z c.agent (.dram 1 a.toNat) 8
    have hadd : (a + 8).toNat = a.toNat + 8 := by
      rw [BitVec.toNat_add]
      exact Nat.mod_eq_of_lt (show a.toNat + 8 < 2 ^ 64 by omega)
    refine ih ⟨hk.1 ▸ hz.mem, ?_, h.gallery, ?_, hk.2.2.2.2.2.2.2.trans hz.bad⟩ (a + 8) (by omega) (by omega) _
    · rw [State.gal, hk.2.2.2.2.2.1]
      exact hz.gal
    · exact (owePoison_priv _ _ _ _).trans ((see_priv _ _ _ _).trans h.priv)
/-! ## Witnesses: for every statement with hypotheses, states and operands that meet them together -/

/-- The thread of the small machine may execute a word of these registers. -/
abbrev MayRun (t : Thread) (rs : List Nat) : Prop := Ready (on t c0) t c0 rs
theorem mayRun {t : Thread} {rs : List Nat} (ho : t.outst = [] := by rfl) (hs : Unstepped t := by exact .inl rfl)
    (h : ∀ r ∈ rs, r < 96 := by decide) : MayRun t rs := ready_in rfl rfl rfl ho hs rfl rfl rfl h
/-- The thread under a prefix that masks it off, with and without zeroing (R31). -/
def tMasked (zeroing : Bool) : Thread := { t0 with pfx := some ⟨0, zeroing, 0, 0, false⟩ }

/-- Lane words: the highest registers, unmasked; masked off with zeroing only the destinations are asked for, without it
none. -/
theorem witness_LaneArithmeticWords :
    MayRun t0 (laneRegs t0 [62, 63] [62, 63, 0, 1]) ∧ MayRun (tMasked true) (laneRegs (tMasked true) [63] [99]) ∧
    MayRun (tMasked false) (laneRegs (tMasked false) [99] [99]) :=
  ⟨mayRun, mayRun, mayRun⟩
theorem witness_LaneShiftsAndBitFields : MayRun t0 (laneRegs t0 [63] [63, 0]) := mayRun
theorem witness_LaneMultiplyDivideAndDot : MayRun t0 (laneRegs t0 [63] [0, 1, t0.third 63]) := mayRun
theorem witness_LanePredicatesAndMoves :
    (9#6).toNat < 10 ∧ (9#4).toNat < 10 ∧ MayRun t0 (laneRegs t0 [64 + 31] [62, 63]) := ⟨by decide, by decide, mayRun⟩
theorem witness_PrefixReformExitNop : MayRun t0 [] := mayRun
theorem witness_Fp32AndPackedWords :
    MayRun t0 (laneRegs t0 [63] [0, 1, t0.third 63]) ∧
    (rne ∈ roundings ∧ fp32 ∈ formats ∧ StandsFor 5 true 21 4 ∧ StandsFor 5 false 20 4 ∧ (2 : Int) ≤ 2 ∧ (-1 : Int) < 0) ∧
    (2 ^ (fp32.mb + 2) ≤ 2 ^ 25 ∧ (fp32.bias : Int) < max (128 + (Nat.log2 1 : Int)) (-126) ∧
      (roundAt rne false (2 ^ 25 - 1) 103 104 false).1 = 2 ^ (fp32.mb + 1) ∧ (max (0 + (Nat.log2 1 : Int)) (-126)) < fp32.bias) :=
  ⟨mayRun, ⟨by decide, by decide, ⟨by decide, by decide⟩, by simp [StandsFor], by decide, by decide⟩, by decide⟩
/-- A quiet and a signalling NaN, −∞ below −1.0 below 1.0, the zeros; 0.5, −0.25 and 2²³ are a tie, below half and whole. -/
theorem witness_OrdersValues :
    ((fp32.value 0x7FC0_0000).isNan = true ∧ (fp32.value 0x7F80_0001).isSnan = true ∧ (fp32.value 0x3F80_0000).isNan = false) ∧
    Below (fp32.value 0xFF80_0000) (fp32.value 0xBF80_0000) = true ∧ Below (fp32.value 0xBF80_0000) (fp32.value 0x3F80_0000) = true ∧
    (fp32.zero true = 0x8000_0000 ∧ fp32.zero false = 0 ∧ Below (fp32.value 0x8000_0000) (fp32.value 0) = false) ∧
    fp32.value 0x4B00_0000 = .num false (2 ^ 23) 0 ∧ fp32.value 0x3F00_0000 = .num false (2 ^ 23) (-24) ∧
    RoundsTo rne false (2 ^ 23) (2 ^ 24) 0 ∧ RoundsTo rup false (2 ^ 23) (2 ^ 24) 1 :=
  ⟨by decide, by decide, by decide, by decide, by decide, by decide, by simp [RoundsTo, rne, rna, rtz, rup, rdn],
    by simp [RoundsTo, rne, rna, rtz, rup, rdn]⟩
theorem witness_Fp64Words :
    MayRun t0 (laneRegs t0 [62, 63] [0, 1, 2, 3, t0.third 62, t0.third 62 + 1]) ∧
    Below (fp64.value 0) (fp64.value 1) = true := ⟨mayRun, by decide⟩
theorem witness_DivisionRootsAndFunctions :
    MayRun t0 (laneRegs t0 [62, 63] [0, 1, 62, 63]) ∧ ((-149 : Int) ≠ 0 ∧ (-149 : Int) ≤ 127 ∧ 149 ≤ 149) := ⟨mayRun, by decide⟩
theorem witness_NansAndFlagsOfFloatingPoint :
    ((fp32.value 0x7FC0_0000).isNan || (fp32.value 0).isNan) = true ∧
    floatWord (.fadd false 2 0 1) = true ∧ Unstepped t0 ∧
    ∃ z u, exec (.fadd false 2 0 1) (on t0 c0) = .next z ∧ z.thread (on t0 c0).focus = some u :=
  ⟨by decide, rfl, .inl rfl, _, _, rfl, rfl⟩

/-- The identity of TF6 as a table (R109), which passes the checks of CTBL; 1.5 lies on its segment 1; 5.2 is a number. -/
def identity6 : Curve :=
  ⟨(List.range 16).map fun (i : Nat) => BitVec.ofNat 64 (0x3F80_0000 * 2 ^ 32 + (fp32.roundInt rne i 0 false).1), true⟩
theorem witness_ConversionWords_curves :
    curveCheck 1 identity6.entries 16 0 = 0 ∧ (FVal.num false 3 (-1)).lt (fp32.value (curveW .tf6 (some identity6) 1)) = false ∧
    (FVal.num false 3 (-1)).lt (fp32.value (curveW .tf6 (some identity6) 2)) = true ∧
    fp32.value 0x40A6_6666 = .num false 0xA6_6666 (-22 + 1) ∧ 0xA6_6666 < 16 * (256 * 2 ^ 22) ∧
    fp32.value 0x4700_0000 = .num false 0x80_0000 (-8 + 0) ∧ 16 * (256 * 2 ^ 8) ≤ 0x80_0000 ∧
    (fp32.value 0x7FC0_0000).isNan = true ∧ (Taper.tf8.value 0x80).isNan = true ∧ Taper.tf8.value 0x55 = .num false 0x2A00 (-12) ∧
    (5 : Nat) * 2 ^ 20 ≤ Taper.tf8.units 127 * 1 ∧ Taper.tf8.units 127 * 1 < 2 ^ 25 := by decide
/-- The lowest curve is the standard one and fits both formats; curve 1 here is one of TF6; a curve's 16 values are read
through the tables (R168, R169). -/
theorem witness_ConversionWords :
    MayRun t0 [63, 62, 61] ∧ c0.curveFits 0 .tf8 = true ∧ ({ c0 with curves := [(1, ⟨[], true⟩)] } : Cast).curveFits 1 .tf6 = true ∧
    MayRun (regs [(61, 3)] []) [63, 60, 61, 61] ∧
    (∃ r, State.readDoubles c0 0 16 0x4_0000 (onAD t0 c0) t0 [] = .ok r) :=
  ⟨mayRun, by decide, by decide, mayRun, readDoubles_low rfl 16 ⟨lowTables_mappedAD, rfl, rfl, rfl, rfl⟩ _ (by decide) (by decide) _⟩

/-- Tables whose leaf allows replicas and lies in the memory of the second of two tiles, the home of its lines (R305). -/
def onReplicas (t : Thread) : State :=
  { on t c0 with
    mem := mapped.take 2 ++ [((Loc.dram 1 0x10000).cell, 0x1F), ((Loc.dram 1 0x10001).cell, 2),
      ((Loc.dram 1 0x10004).cell, 0x20)]
    gals := [(1, { g1 with tiles := [0, 1] })] }
/-- The last word of a scratchpad; a counted operation whose data are there. -/
theorem witness_LoadsCountAndComplete :
    (let t := regs [(0, 0x3FF)] []
     MayRun t (dataRegs 62 8 ++ addrRegs 0 31 false) ∧ t.cueFull t.cueA = false ∧
     (∃ s l, (on t c0).checked t c0 0 .scratch (t.address 0 31 false 4) 4 .read = .ok (s, l)) ∧
     (∃ o, t0.outst ++ [o] ≠ [] ∧ ([o].find? (fun x => x.op == 7)) = some o ∧ o.ready = true ∧
       (on t c0).refreshing o.store = false)) ∧
    (∃ z, (onReplicas t0).checked t0 c0 0 .global 0x4_0000 4 .read = .ok (z, .dram 1 (2 ^ 37 + 0x4_0000)) ∧
      MayReplicate z t0 c0 0x4_0000 (.dram 1 (2 ^ 37 + 0x4_0000))) :=
  ⟨⟨mayRun, by decide, ⟨_, _, rfl⟩, ⟨⟨7, 3, [2], [5], true, none, 0, none⟩, by decide, by decide, rfl, rfl⟩⟩, _, rfl,
    by decide, by decide, by decide⟩
/-- A load of host memory that a later access of its thread may have overtaken. -/
theorem witness_LoadsCountAndComplete_late :
    let o : Outst := ⟨7, 3, [2], [5], true, none, 0, none⟩
    let x : LateLoad := ⟨7, .host 0x40, 4, 0, ⟨1, 0, 0⟩, 0, none⟩
    let t := { t0 with outst := [o], late := [x] }
    (on t c0).thread 0 = some t ∧ t.outst.find? (fun x => x.op == 7) = some o ∧ o.ready = true ∧
      (on t c0).refreshing o.store = false ∧ t.late.find? (fun x => x.op == 7) = some x ∧ t.run ≠ .exited :=
  ⟨rfl, rfl, rfl, rfl, rfl, by decide⟩
/-- A store of eight bytes at the end of the scratchpad; a store through the tables, which sets AC and D. -/
theorem witness_StoresWriteTheirBytes :
    (let t := regs [(0, 0x1FF)] []
     MayRun t (dataRegs 62 8 ++ addrRegs 0 31 false) ∧
     ∃ s z l, (on t c0).checked t c0 0 .scratch (t.address 0 31 false 8) 8 .write = .ok (s, l) ∧ s.snapGuard l = .ok z) ∧
    (∃ s z l, (onMapped t0 c0).checked t0 c0 0 .global 0x4_0000 8 .write = .ok (s, l) ∧ s.snapGuard l = .ok z) :=
  ⟨⟨mayRun, ⟨_, _, _, rfl, rfl⟩⟩, ⟨_, _, _, rfl, rfl⟩⟩
/-- A snapshot in flight of one framed page. -/
def snap0 : Snap := ⟨0, 7, 64, 15, 0x10_0000, 0x2_0000, 0, 1, [(0, 16, 0)], 0, [], [], 0⟩
/-- Four places, all mapped; four of which one lies in no page. -/
theorem witness_MulticastStoresAllOrNothing :
    (let t := regs [(0, 1), (1, 2), (2, 3), (3, 4)] [(1, 0x4_0000)]
     MayRun t (dataRegs 62 8 ++ (vRange 0 4 ++ [64 + 1])) ∧ t.held = none ∧ NoSnapshot (onMapped t c0) ∧
     ∃ s l ls z, State.checkAll t c0 0 8 (mcstAddrs t 0 1 false 8 4) (onMapped t c0) [] = .ok (s, l :: ls) ∧
       s.snapGuard l = .ok z) ∧
    (let t := regs [(0, 1), (1, 2), (2, 3), (3, 4)] [(1, 0x10_0000_0000)]
     MayRun t (dataRegs 62 8 ++ (vRange 0 4 ++ [64 + 1])) ∧
     ∃ x, State.checkAll t c0 0 8 (mcstAddrs t 0 1 false 8 4) (onMapped t c0) [] = .trap x) ∧
    (let a : DWord := 0x40
     let t := { t0 with held := some (.mcst [a] 8 5) }
     let s (g : Gallery) : State := { onAD t c0 with gals := [(1, g)] }
     (s g1).thread 0 = some t ∧ Unstepped t ∧
     (∃ x l z, (s g1).locate t c0 0 .global a 8 .write = .ok (x, l) ∧ x.snapGuard l = .ok z) ∧
     (∃ x l, (s { g1 with snap := some snap0 }).locate t c0 0 .global a 8 .write = .ok (x, l) ∧
       x.snapGuard l = .hold .snapshot) ∧
     ∃ x, (s g1).locate t c0 0 .global (2 ^ 36) 8 .write = .trap x) := by
  refine ⟨⟨mayRun, rfl, ?_, _, _, _, _, rfl, rfl⟩, ⟨mayRun, _, rfl⟩, rfl, .inl rfl, ⟨_, _, _, rfl, rfl⟩, ⟨_, _, rfl, rfl⟩, _, rfl⟩
  intro p h
  simp only [onMapped, on, State.placeScene] at h
  revert p
  decide
/-- One place, at which nothing is translated. -/
theorem witness_MulticastStoresAllOrNothing_runs :
    let t := regs [(0, 0)] [(1, 0x4_0000)]
    ∃ s ls, State.checkAll t c0 0 8 (mcstAddrs t 0 1 false 8 1) (onMapped t c0) [] = .ok (s, ls) ∧
      Unmoved s t c0 8 (mcstAddrs t 0 1 false 8 1) ls := by
  refine ⟨_, [.dram 1 0x4_0000], rfl, fun g hg p hp => ?_⟩
  obtain rfl : g1 = g := Option.some.inj hg
  have e : mcstAddrs (regs [(0, 0)] [(1, 0x4_0000)]) 0 1 false 8 1 = [0x4_0000] := by decide
  rw [e, List.zip_cons_cons, List.zip_nil_left, List.mem_singleton] at hp
  subst hp
  refine ⟨_, rfl, rfl, ?_⟩
  unfold Outside
  decide
theorem witness_AtomicsReadAndWriteAtOnce :
    let t := regs [(0, 0x1FF)] []
    MayRun t (dataRegs 60 8 ++ [62, 63] ++ addrRegs 0 31 false) ∧ t.cueFull t.cueA = false ∧
    ∃ s z l, (on t c0).checked t c0 0 .scratch (t.address 0 31 false 8) 8 .rmw = .ok (s, l) ∧ s.poisoned l = false ∧
      s.snapGuard l = .ok z := ⟨mayRun, by decide, _, _, _, rfl, rfl, rfl⟩
/-- A copy in flight, issued by thread 0. -/
def copyUnderWay : EngOp :=
  { EngOp.make 0 .program 0 1 0 none 15 0x9C00_0000 0x4_0000 0x5_0000 0 0x100 with limit := 16 }
theorem witness_PrefetchAndFence :
    MayRun t0 (addrRegs 63 31 false) ∧ t0.held = none ∧ (2#3).getLsbD 2 = false ∧ (on t0 c0).pendingEngine 0 = [] ∧
    (6#3).getLsbD 2 = true ∧ ({ on t0 c0 with ops := [(3, copyUnderWay)] } : State).pendingEngine 0 ≠ [] ∧
    Ready { on t0 c0 with ops := [(3, copyUnderWay)] } t0 c0 [] ∧
    (let t := { t0 with held := some (.fence [9] 4 true) }
     (on t c0).thread 0 = some t ∧ (on t c0).cast (castOf 0) = some c0 ∧ Unstepped t ∧
     ∀ o ∈ [9], o ∉ (on t c0).pendingEngine 0) :=
  ⟨mayRun, rfl, rfl, rfl, rfl, by decide, ready_in, rfl, rfl, .inl rfl, by decide⟩
/-- The same tables with a leaf for supervisors that permits nothing. -/
def supervisors : List Host.Cell := mapped.take 2 ++ [((Loc.dram 1 0x10000).cell, 0x23)]
/-- A leaf for programs, a leaf for supervisors, a leaf that permits nothing; the first address above the virtual space. -/
theorem witness_AlignmentAndTranslationChecks :
    (let t := regs [] [(31, 0xFFC)]
     MayRun t (dataRegs 62 8 ++ addrRegs 63 31 false) ∧ MayRun t ([60, 61, 62, 63] ++ addrRegs 63 31 false) ∧
     (t.address 63 31 false 8).toNat % 8 ≠ 0 ∧ t.cueFull t.cueA = false) ∧
    (let t := regs [(1, 1)] [(31, 0x4_0002)]
     let t' := { t with u := [(31, 0x4_0000)] }
     MayRun t (dataRegs 62 8 ++ (vRange 0 4 ++ [64 + 31])) ∧ t.held = none ∧
     mcstAddrs t' 0 31 true 8 0 = [] ∧ (∃ x r, mcstAddrs t 0 31 false 8 4 = [] ++ x :: r ∧ x.toNat % 8 ≠ 0 ∧
       ∃ z ls, State.checkAll t c0 0 8 [] (on t c0) [] = .ok (z, ls))) ∧
    2 ^ 56 ≤ (0x0100_0000_0000_0000 : DWord).toNat ∧
    (∃ g e ea bits trail, (on t0 c0).gal 1 = some g ∧ walk mapped 1 g (0xF_FFFF_FFFF : DWord).toNat = .leaf e ea bits trail ∧
      e.testBit 5 = false) ∧
    (∃ g e ea bits trail, (on t0 c0).gal 1 = some g ∧
      walk supervisors 1 g 5 = .leaf e ea bits trail ∧
      e.testBit 5 = true ∧ e.testBit 4 = false ∧ e.testBit 2 = false ∧ e.testBit 3 = false) :=
  ⟨⟨mayRun, mayRun, by decide, by decide⟩, ⟨mayRun, rfl, rfl, ⟨_, _, rfl, by decide, _, _, rfl⟩⟩, Nat.le_of_eq rfl,
    ⟨g1, 0x1F, 0x10000, 36, [0, 0x10000], rfl, by decide, by decide⟩,
    ⟨g1, 0x23, 0x10000, 36, [0, 0x10000], rfl, by decide, by decide⟩⟩
/-- A scratchpad address out of range; tables of zeros, whose first entry is not valid; a watchpoint on the scratchpad's first
byte; a leaf at level 1. -/
theorem witness_AlignmentAndTranslationChecks_fails :
    (∀ x, FailsAt (on t0 c0) t0 c0 .scratch 0xFF_FFFC 4 .read x ↔ x = trapOf .range 0xFF_FFFC) ∧
    FailsAt (on t0 c0) t0 c0 .global 4 4 .write ⟨.page, 4, 0, 2⟩ ∧
    (let c := { c0 with wpctl := [(0, 0x29)] }
     FailsAt (on t0 c) t0 c .scratch 0 4 .read (trapOf .watch 0)) ∧
    ((4 : DWord).toNat < 2 ^ 56 ∧ (2 : Nat) < 4 ∧ (∀ i, i ≤ 0 → entryAddr [] 1 0 4 i + 8 ≤ g1.memSize) ∧
      (entryAt [] 1 0 4 0).testBit 0 = false ∧ (entryAt [((Loc.dram 1 0).cell, 3)] 1 0 4 0).testBit 1 = true ∧
      pteMalformed (entryAt [((Loc.dram 1 0).cell, 3)] 1 0 4 0) 1 = true) := by
  refine ⟨fun x => ⟨?_, ?_⟩, ⟨g1, rfl, .inr (.inl ⟨rfl, 0, by decide, rfl⟩)⟩,
    ⟨g1, rfl, .inr (.inr ⟨⟨_, rfl⟩, 0, by decide, rfl⟩)⟩, by decide, by decide, ?_, by decide, by decide, by decide⟩
  · rintro ⟨g, hg, ⟨-, h⟩ | ⟨h, -⟩ | ⟨⟨p, h⟩, -⟩⟩
    · exact h
    · cases h
    · cases hg
      cases h
  · rintro rfl
    exact ⟨g1, rfl, .inl ⟨.inl ⟨rfl, by decide⟩, rfl⟩⟩
  · intro i hi
    obtain rfl : i = 0 := by omega
    decide
theorem witness_FrameOfMemoryWords :
    memoryWord (.st false 62 0 31 0 3 0) = true ∧ (onMapped t0 c0).thread 0 = some t0 ∧
    (∀ g, (on t0 c0).gal c0.gallery = some g → g.groot.toNat % 8 = 0 ∧ g.stbase.toNat % 8 = 0) ∧
    ∃ z u, exec (.st false 62 0 31 0 3 0) (onMapped t0 c0) = .next z ∧ z.thread 0 = some u := by
  refine ⟨rfl, rfl, fun g h => ?_, _, _, rfl, rfl⟩
  cases h
  decide
theorem witness_FrameOfRegisterWords :
    registerWrites (.add false 63 62 61) = some ⟨[63], [], false, false⟩ ∧ Unstepped t0 ∧
    ∃ z, exec (.add false 63 62 61) (on t0 c0) = .next z := ⟨rfl, .inl rfl, _, rfl⟩

/-- A window of which thread 0 is the only member of mask 1; the whole window, its 31 other threads held. -/
def tMask (m : Word) : Thread := regs [] [(4, m.setWidth 64)]
def seats32 (h : Option Held) : Tab Thread :=
  (0, tMask 0xFFFF_FFFF) :: (List.range 31).map fun i => (i + 1, { tMask 0xFFFF_FFFF with held := h })
def window32 (h : Option Held) : State := { on (tMask 0xFFFF_FFFF) c0 with threads := seats32 h }
theorem witness_ShufflesExchangeLanes :
    MayRun (tMask 1) [63, 62, 64 + 4, 64 + 31] ∧ Meets (on (tMask 1) c0) (tMask 1) 4 ∧
    (([(0, tMask 1), (5, tMask 1)] : List (Nat × Thread)).map (·.1)).Nodup ∧ Unstepped (tMask 1) :=
  ⟨mayRun, ⟨by decide, by decide, by decide⟩, by decide, .inl rfl⟩
theorem witness_WindowWordsCombineMembers :
    MayRun (tMask 1) [63, 62, 64 + 4] ∧ Meets (on (tMask 1) c0) (tMask 1) 4 ∧
    (let s := window32 (some (.rdv 0xFFFF_FFFF 0))
     Ready s (tMask 0xFFFF_FFFF) c0 [63, 62, 64 + 4] ∧ Meets s (tMask 0xFFFF_FFFF) 4 ∧
     maskOf (tMask 0xFFFF_FFFF) 4 = 0xFFFF_FFFF) :=
  ⟨mayRun, ⟨by decide, by decide, by decide⟩, ready_in,
    ⟨by decide, by decide, by decide⟩, by decide⟩
/-- A stage of the tree and of the rotation: 32 places. -/
theorem witness_WindowWordsCombineMembers_stages :
    16 ∈ [1, 2, 4, 8, 16] ∧ (List.replicate 32 (none : Option Nat)).length = 32 ∧ (List.replicate 32 0).length = 32 ∧ 31 < 32 ∧
    Fl.nx ∈ [Fl.nv, Fl.dz, Fl.of, Fl.uf, Fl.nx] := ⟨by decide, rfl, rfl, by decide, by simp⟩
theorem witness_RendezvousHoldsOrFails :
    MayRun (tMask 2) [63, 62, 64 + 4] ∧ (maskOf (tMask 2) 4).getLsbD (seatOf (tidOf 0)) = false ∧
    (let s := window32 none
     Ready s (tMask 0xFFFF_FFFF) c0 [63, 62, 64 + 4] ∧
     (∀ p ∈ s.window 0 0, p.2.run = .exited → (maskOf (tMask 0xFFFF_FFFF) 4).getLsbD (seatOf (tidOf p.1)) = false) ∧
     ∃ j, j < 32 ∧ j ≠ 0 ∧ (maskOf (tMask 0xFFFF_FFFF) 4).getLsbD j = true ∧
       (seatBits (s.rdvSet 0 0 t0.pc t0.priv (maskOf (tMask 0xFFFF_FFFF) 4))).getLsbD j = false) ∧
    (let s := { (on (tMask 3) c0) with threads := [(0, tMask 3), (1, { t0 with run := .exited })] }
     Ready s (tMask 3) c0 [63, 62, 64 + 4] ∧ (maskOf (tMask 3) 4).getLsbD 0 = true ∧
     ∃ p ∈ s.window 0 0, p.2.run = .exited ∧ (maskOf (tMask 3) 4).getLsbD (seatOf (tidOf p.1)) = true) :=
  ⟨mayRun, by decide, ⟨ready_in, by decide, ⟨31, by decide⟩⟩,
    ready_in, by decide, by decide⟩
/-- The small machine, mapped, with the program's words at 0x2000: a landing header with its descriptor (R26, R28). -/
def codeAt2000 : List Host.Cell :=
  let b (i x : Nat) : Host.Cell := ((Loc.dram 1 (0x2000 + i)).cell, BitVec.ofNat 8 x)
  [b 0 0xF8, b 1 0x0F, b 3 0x80, b 4 64, b 5 32]
def onCode (t : Thread) (c : Cast) : State :=
  { onMapped t c with prods := [(0, { placedProd with code := codeAt2000 })] }
theorem ok_of {r : Res Unit} (h : (match r with
    | .ok _ => true
    | _ => false) = true) : r = .ok () := by
  cases r <;> first | rfl | cases h
theorem ex_ok {α : Type} {r : Res α} (h : (match r with
    | .ok _ => true
    | _ => false) = true) : ∃ z, r = .ok z := by
  cases r <;> first | exact ⟨_, rfl⟩ | cases h
theorem trap_of {α : Type} {r : Res α} (h : (match r with
    | .trap _ => true
    | _ => false) = true) : ∃ x, r = .trap x := by
  cases r <;> first | exact ⟨_, rfl⟩ | cases h
theorem code_header : isHeader 0x8000_0FF8 = true ∧ isLanding 0x8000_0FF8 = true := by decide
theorem witness_TransfersAndJumpTables :
    (Ready (onMapped t0 c0) t0 c0 [] ∧ (t0.pred 15 ^^ ((0 : BitVec 1) == 1)) = true ∧
      (onMapped t0 c0).checkTarget t0 c0 (t0.pc + 8) false false = .ok () ∧ (t0.pred 0 ^^ ((0 : BitVec 1) == 1)) = false) ∧
    (let t := regs [(62, 0x2000)] [(31, 0x2000)]
     Ready (onCode t c0) t c0 [60, 61, 62, 63] ∧ Ready (onCode t c0) t c0 [64 + 31] ∧
     (onCode t c0).checkTarget t c0 (t.pair 62) true true = .ok () ∧
     (onCode t c0).checkTarget t c0 (t.pair 62) true false = .ok () ∧
     (∃ x, (onCode t c0).checkTarget t c0 0x3000 true false = .trap x) ∧ (6 : BitVec 3).toNat < 7 ∧
     uniHolds 5 (t.uni 31) = true ∧ uniHolds 6 (t.uni 31) = false) ∧
    (let t := regs [(0, 64)] [(31, 0x2000)]
     MayRun t [0, 64 + 31] ∧ (63 : BitVec 6).toNat + 1 ≤ (t.lane 0).toNat) ∧
    (let t := regs [(0, 63)] [(31, 0x2000)]
     Ready (onCode t c0) t c0 [0, 64 + 31] ∧ (t.lane 0).toNat ≤ (63 : BitVec 6).toNat ∧
     ∃ s l, (onCode t c0).checked t c0 0 .global (t.uni 31 + BitVec.ofNat 64 (4 * 63)) 4 .read = .ok (s, l) ∧
       (let r := s.readBy t c0 (t.uni 31 + BitVec.ofNat 64 (4 * 63)) l 4
        r.2.2 = 0 ∧ r.1.checkTarget r.2.1 c0 0x2000 true true = .ok () ∧
        (∃ x, r.1.checkTarget r.2.1 c0 0x3000 true true = .trap x))) ∧
    (∃ x, (on (regs [(0, 63)] [(31, 0x2001)]) c0).checked (regs [(0, 63)] [(31, 0x2001)]) c0 0 .global
      (0x2001 + BitVec.ofNat 64 (4 * 63)) 4 .read = .trap x) :=
  ⟨⟨ready_in, by decide, ok_of (by decide), by decide⟩,
    ⟨ready_in, ready_in, ok_of (by decide), ok_of (by decide), trap_of (by decide), by decide, by decide, by decide⟩,
    ⟨mayRun, by decide⟩, ⟨ready_in, by decide, _, _, rfl, by decide, ok_of (by decide), trap_of (by decide)⟩, _, rfl⟩
theorem witness_TargetChecksInOrder :
    (0x2002 : DWord).toNat % 4 ≠ 0 ∧ (onCode t0 c0).fetch c0 .program 0x3000 = .ok 0 ∧ isHeader 0 = false ∧
    isHeader 0x8000_0FF0 = true ∧ isLanding 0x8000_0FF0 = false ∧
    (onCode t0 c0).fetch c0 .program 0x2000 = .ok 0x8000_0FF8 ∧ (onCode t0 c0).fetch c0 .program 0x2004 = .ok 0x2040 := by
  decide
/-- A target beyond the mapped pages; a landing scene whose header ends a page of 64 GiB that is the only one mapped. -/
theorem witness_TargetChecksInOrder_pages :
    (on t0 c0).fetch c0 .program 0x2000 = .fail 0 ∧
    (∃ g p y, (onCode t0 c0).gal c0.gallery = some g ∧ tfind (onCode t0 c0).prods c0.prod = some p ∧
      translate (onCode t0 c0).readable c0.gallery g 0x2000 .program .fetch = .ok y) ∧
    (let q := { (onCode t0 c0) with prods := [(0, { placedProd with code := [((Loc.dram 1 0xF_FFFF_FFFC).cell, 0xF8),
        ((Loc.dram 1 0xF_FFFF_FFFD).cell, 0x0F), ((Loc.dram 1 0xF_FFFF_FFFF).cell, 0x80)] })] }
     q.fetch c0 .program 0xF_FFFF_FFFC = .ok 0x8000_0FF8 ∧ isHeader 0x8000_0FF8 = true ∧ isLanding 0x8000_0FF8 = true ∧
     q.fetch c0 .program (0xF_FFFF_FFFC + 4) = .fail 0) :=
  ⟨by decide, ⟨_, _, _, rfl, rfl, rfl⟩, by decide⟩
theorem witness_UniformArithmetic : MayRun t0 [64 + 31, 64 + 30, 64 + 29] := mayRun
def tSup : Thread := { t0 with priv := .supervisor }
theorem witness_CsrReadsAndWrites :
    MayRun t0 [64 + 31] ∧ csrCheck 0x205 false t0 = none ∧ csrCheck 0x003 true t0 = none ∧ t0.v2s.getLsbD 31 = false ∧
    c0.res = .core 0 ∧ Ready (on tSup c0) tSup c0 [64 + 31] ∧ csrCheck 0x400 true tSup = none ∧
    csrCheck 0x437 true tSup = none := ⟨mayRun, by decide, by decide, by decide, rfl, ready_in, by decide, by decide⟩
theorem witness_CsrAccessRules :
    csrAssigned 0x004 = false ∧ csrAssigned 0xFFF = false ∧ csrAssigned 0xE00 = true ∧ 0xE00 / 2 ^ 10 = 3 ∧
    csrAssigned 0x437 = true ∧ 0x437 / 2 ^ 10 = 1 ∧ t0.priv = .program ∧ csrAssigned 0x205 = true ∧
    (0x205 : BitVec 12).getLsbD 9 = true ∧ csrAssigned 0x604 = true ∧ (0x604 : BitVec 12).getLsbD 9 = true ∧
    (0x413 : BitVec 12).getLsbD 9 = false ∧ tSup.priv = .supervisor := by decide
theorem witness_RegisterWritesWithRowsOfTheirOwn :
    (on t0 c0).thread (on t0 c0).focus = some t0 ∧ (on t0 c0).cast (castOf (on t0 c0).focus) = some c0 ∧ c0.res = .core 0 ∧
    ({ c0 with res := .off } : Cast).coreNo = none ∧ (2 : BitVec 64).getLsbD 1 = true ∧ (State.reset).gal State.reset.dev.gsel.toNat = none ∧
    (let s := { on t0 c0 with dev := { (on t0 c0).dev with gsel := 1 } }
     s.gal s.dev.gsel.toNat = some g1 ∧ g1.snap = none) ∧
    (∃ s : State, ∃ g, s.gal s.dev.gsel.toNat = some g ∧ g.snap ≠ none) :=
  ⟨rfl, by decide, rfl, rfl, by decide, rfl, ⟨rfl, rfl⟩,
    { on t0 c0 with dev := { (on t0 c0).dev with gsel := 1 }, gals := [(1, { g1 with snap := some snap0 })] },
    { g1 with snap := some snap0 }, rfl, by decide⟩
theorem witness_TimeIsReferenceTicks : MayRun t0 [64 + 31] := mayRun
/-- A cast whose program has enabled its trap handler, and one that has not. -/
def cTrap : Cast := { c0 with tvec := 0x5001 }
theorem witness_TrapEntrySavesAndEnters :
    cTrap.tvecEn = true ∧ t0.held = none ∧ t0.run = .member ∧ t0.dueHalt = false ∧ t0.dueSlice = false ∧
    t0.priv = .program ∧ pcBits tSup.instrPc ≠ cTrap.tvecBase := by decide
theorem witness_UnhandledTrapsEndTheThread :
    (∃ p, tfind (on t0 c0).prods c0.prod = some p ∧ p.first = []) ∧ c0.tvecEn = false ∧
    (let t := { tSup with pc := 0x5000 }
     t.priv = .supervisor ∧ pcBits t.instrPc = cTrap.tvecBase) ∧
    (let s := on t0 c0
     ([1, 2, 3, 4] : List DWord) ≠ [] ∧ (s.nowKey c0.agent).before (s.nowKey c0.agent) = false ∧
     (s.nowKey c0.agent).before ⟨9, 0, 0⟩ = true) := ⟨⟨_, rfl, rfl⟩, by decide, by decide, by decide⟩
theorem witness_SoftwareTrapsResumeAfterThemselves :
    Ready (on t0 cTrap) t0 cTrap [] ∧ cTrap.tvecEn = true ∧ t0.held = none ∧ t0.run = .member ∧ t0.dueHalt = false ∧
    t0.dueSlice = false ∧ t0.priv = .program ∧ pcBits (tSup.pc + 4) ≠ cTrap.tvecBase :=
  ⟨ready_in, by decide, rfl, rfl, by decide, by decide, rfl, by decide⟩
theorem witness_ReturnFromTraps :
    (Ready (on tSup c0) tSup c0 [] ∧ tSup.tstat.pendHalt = false ∧ tSup.tstat.pendSlice = false) ∧
    (let t := { tSup with tstat := { TStat.zero with pendHalt := true } }
     Ready (on t cTrap) t cTrap [] ∧ t.priv = .supervisor ∧ t.tstat.ppriv = .program ∧ t.tstat.pendHalt = true ∧
     t.held = none ∧ t.run = .member ∧ cTrap.tvecEn = true ∧ (on t cTrap).quiescing cTrap = false ∧
     ({ on t cTrap with gals := [(1, { g1 with state := .quiescing })] } : State).quiescing cTrap = true) ∧ t0.priv = .program :=
  ⟨⟨ready_in, rfl, rfl⟩, ⟨ready_in, rfl, rfl, rfl, rfl, rfl, by decide, by decide, by decide⟩, rfl⟩
theorem witness_SingleStepTrapsAfterOneInstruction :
    let t := { t0 with step := true }
    (on t cTrap).thread 0 = some t ∧ (on t cTrap).cast (castOf 0) = some cTrap ∧
    breakpointAt cTrap t 0 t.pc = none ∧ t.step = true ∧ t.priv = .program ∧ cTrap.tvecEn = true ∧ t.held = none ∧
    t.run = .member ∧ t.dueHalt = false ∧ t.dueSlice = false ∧ (on t cTrap).takeOwed 0 t cTrap = none ∧
    (registerWrites (.add false 2 0 1)).isSome = true ∧ isPrefix (.add false 2 0 1) = false ∧
    (∃ z, exec (.add false 2 0 1) (on t cTrap) = .next z) :=
  ⟨rfl, rfl, rfl, rfl, rfl, rfl, rfl, rfl, rfl, rfl, rfl, rfl, rfl, _, rfl⟩
/-- The highest register above the budget; an outstanding one; a breakpoint at the word. -/
theorem witness_ChecksBeforeAWordInOrder :
    [0, 63, 8].find? (fun r => decide (({ c0 with vbud := 63 } : Cast).vbud ≤ r)) = some 63 ∧
    (let t := { t0 with outst := [⟨7, 3, [2], [], false, none, 0, none⟩] }
     (∀ r ∈ [0, 1, 2], r < c0.vbud) ∧ [0, 1, 2].find? (fun r => t.outst.any (fun o => o.regs.contains r)) = some 2) ∧
    (let c := { c0 with bpaddr := [(7, 0x1004)], bpctl := [(7, 1)] }
     NoHazard t0 [0, 1, 2] ∧ breakpointAt c t0 0 t0.pc = some 7) ∧
    namedRegs (.add false 2 0 1) t0 = some [2, 0, 1] ∧ wordPriv (.add false 2 0 1) t0 = none ∧ t0.held = none ∧
    namedRegs (.ctxsave false 31) t0 = some [64 + 31] ∧ (wordPriv (.ctxsave false 31) t0).isSome = true := by
  refine ⟨by decide, by decide, ⟨?_, by decide⟩, by decide, by decide, rfl, by decide, by decide⟩
  intro r _ o h
  cases h
/-- Waits on registers of kinds 0 and 5; the third register illegal; the fourth in a place that no scratchpad has (R87, R89). -/
def tWaits (third fourth st : DWord) : Thread :=
  regs [] [(8, 0xFFF), (9, 0x5100_0000_0000_0FE0), (10, third), (11, fourth), (12, st)]
/-- A thread that waits on one register, and its evaluation at tick n: no time-out, or one of a tick. -/
def tWait (x st : DWord) : Thread :=
  { regs [] [(0, st), (1, x)] with run := .waiting, waitOn := some ⟨3, 1, 1, true, 0, none⟩, waitSince := 0 }
/-- The low tables with host memory under their leaf (R186). -/
def onHost (t : Thread) : State :=
  { on t c0 with mem := mapped.take 2 ++ [((Loc.dram 1 0x10000).cell, 0x1F), ((Loc.dram 1 0x10001).cell, 0x40)] }
theorem geu_zero (x : Word) : condCompare 5 x 0 = true := by simp [condCompare, BitVec.ult]
theorem witness_WaitsBeginAndEnd :
    (let t := tWaits 0x5100_0000_0000_0FF0 0x2000_0000_0000_000F 0x100_0000
     let ds := (⟨0, 8, 4, true, 12, none⟩ : WaitOn).descriptors t
     MayRun t ((List.range 4).map (fun i => 64 + (8 + i)) ++ [64 + 12]) ∧ (on t c0).lag t = 0 ∧
     (on t c0).gal c0.gallery = some g1 ∧
     (∀ i, i ≤ 3 → condIllegal g1 (t.uni (8 + i)).toNat = false) ∧ t.pidx.toNat / 2 ^ 60 ≠ 1 ∧
     ({ t with pidx := 0x1000_0000_0000_0000 } : Thread).pidx.toNat / 2 ^ 60 = 1 ∧
     (t.uni 12).toNat / 2 ^ 25 % 2 ^ 7 = 0 ∧ (t.uni 12).toNat % 2 ^ 25 ≤ 2 ^ 24 ∧
     ∃ s u n, State.capture 0 c0 ds 0 (on t c0) t 0 = .ok (s, u, n)) ∧
    (let t := tWaits 0 0 0x100_0001
     condIllegal g1 (t.uni 10).toNat = true ∧ (∀ i, i < 2 → condIllegal g1 (t.uni (8 + i)).toNat = false) ∧
     2 ^ 24 < (t.uni 12).toNat % 2 ^ 25) ∧
    (let t := tWaits 0x2000_0000_0000_000F 0x5100_0000_0000_1FF0 0
     let ds := (⟨0, 8, 4, true, 12, none⟩ : WaitOn).descriptors t
     (∀ i, i ≤ 3 → condIllegal g1 (t.uni (8 + i)).toNat = false) ∧
     ∃ s u x, State.capture 0 c0 ds 0 (on t c0) t 0 = .late s u x) := by
  refine ⟨⟨mayRun, rfl, rfl, by decide, by decide, by decide, by decide, by decide, _, _, _, rfl⟩, by decide, by decide,
    _, _, _, rfl⟩
theorem witness_WaitsBeginAndEnd_evaluations :
    (let t := tWait 1 1
     let w : WaitOn := ⟨3, 1, 1, true, 0, none⟩
     (on t c0).thread 0 = some t ∧ (on t c0).cast (castOf 0) = some c0 ∧ t.run = .waiting ∧ t.waitOn = some w ∧
     (w.timeout t ≠ 0 ∧ w.timeout t ≤ t.elapsed 1) ∧ ¬ w.timeout t ≤ t.elapsed 0 ∧ w.cues ≠ some (w.cuesNow t) ∧
     (∃ s u, State.conditions 0 c0 0 0 (w.descriptors t) 0 (on t c0) t [] = .ok (s, u, [true]) ∧ Unstepped u ∧
       ∀ p ∈ (w.descriptors t).zip [true], p.2 = true → s.condHost u c0 p.1 = false) ∧
     (let u := { t with k := [(0, 1)] }
      ∃ s v, State.conditions 0 c0 0 0 (w.descriptors u) 0 (on u c0) u [] = .ok (s, v, [false]))) ∧
    (let t := tWait 0x1A00_0000_0004_0000 0
     let w : WaitOn := ⟨3, 1, 1, true, 0, none⟩
     ∃ s u b, State.conditions 0 c0 0 0 (w.descriptors t) 0 (onHost t) t [] = .ok (s, u, [b]) ∧ b = true ∧ Unstepped u ∧
       s.condHost u c0 0x1A00_0000_0004_0000 = true) ∧
    (let t := tWait 0x1A00_0000_0004_0000 0
     ∃ s u x, State.conditions 0 c0 0 0 ((⟨3, 1, 1, true, 0, none⟩ : WaitOn).descriptors t) 0 (on t c0) t [] = .late s u x) := by
  refine ⟨⟨rfl, rfl, rfl, rfl, by decide, by decide, by decide, ⟨_, _, rfl, .inl rfl, by decide⟩, _, _, rfl⟩, ?_, _, _, _, rfl⟩
  refine ⟨_, _, _, rfl, ?_, ?_, ?_⟩
  · exact geu_zero _
  · exact .inl rfl
  · decide
/-- A barrier record in the scratchpad that expects two and awaits the second, or a malformed one; its descriptor to wait, to
arrive and drop; no descriptors; a thread with the tag of a BAR in PIDX. -/
def onBar (t : Thread) (expect : Byte) : State :=
  { on t c0 with mem := [((Loc.scratch 0 0x10).cell, expect), ((Loc.scratch 0 0x14).cell, 1)] }
def tBar (desc x pidx : DWord) : Thread := { regs [] [(30, desc), (31, x)] with pidx := pidx }
theorem witness_ConvergenceAndBarrierWords :
    (MayRun t0 [64 + 31, 64 + 30] ∧ (on t0 c0).lag t0 = 0 ∧ 2 ^ 57 ≤ (0x0200_0000_0000_0000 : DWord).toNat ∧
      2 ^ 59 ≤ (0x0800_0000_0000_0000 : DWord).toNat) ∧
    (let t := tBar 0x0100_0000_0000_0010 2 0
     let s := onBar t 2
     Ready s t c0 [64 + 31, 64 + 30] ∧ s.lag t = 0 ∧ (t.uni 30).toNat < 2 ^ 57 ∧ t.pidx.toNat / 2 ^ 60 ≠ 2 ∧
     0 < (t.uni 31).toNat ∧ (t.uni 31).toNat < 2 ^ 32 ∧
     (∃ s1 l s0, s.checked t c0 0 (barSpace (t.uni 30)) (barAddr (t.uni 30)) 16 .rmw = .ok (s1, l) ∧
       s1.snapGuard l = .ok s0 ∧ s1.poisoned l = false ∧ (BarRec.of (s1.value l 16)).malformed = false) ∧
     ((t.uni 30).getLsbD 57 || (t.uni 30).getLsbD 58) = false ∧
     ((0x0600_0000_0000_0010 : DWord).getLsbD 57 || (0x0600_0000_0000_0010 : DWord).getLsbD 58) = true ∧
     (∃ s1 l, s.locate t c0 (castOf 0) .scratch (0x10 + 8) 4 .read = .ok (s1, l) ∧ (s1.readBy t c0 (0x10 + 8) l 4).2.2 = 0) ∧
     Unstepped t) ∧
    (let t := tBar 0x0100_0000_0000_0010 2 0
     ∃ s1 l, (onBar t 0).checked t c0 0 .scratch 0x10 16 .rmw = .ok (s1, l) ∧
       (BarRec.of (s1.value l 16)).malformed = true) ∧
    (let t := tBar 0x0100_0000_0000_0010 2 0x2000_0000_0000_0000
     t.pidx.toNat / 2 ^ 60 = 2 ∧
     ∃ s1 l z, (onBar t 2).checked t c0 0 .scratch 0x10 16 .read = .ok (s1, l) ∧ s1.barWait 0 t c0 31 (t.uni 30) true 0 = .ok z) ∧
    (let t := tBar 0x0000_0000_0004_0000 2 0
     ∃ x, (on t c0).barWait 0 t c0 31 (t.uni 30) true 0 = .trap x) ∧
    ((⟨2, 1, 0xFFFF_FFFF, 0⟩ : BarRec).malformed = false ∧ (1 : Nat) + 1 = 2 ∧ (⟨3, 1, 0, 0⟩ : BarRec).malformed = false) := by
  refine ⟨⟨mayRun, rfl, by decide, by decide⟩,
    ⟨ready_in, rfl, by decide, by decide, by decide, by decide, ⟨_, _, _, rfl, rfl, by decide, by decide⟩, by decide, by decide,
      ⟨_, _, rfl, by decide⟩, .inl rfl⟩,
    ⟨_, _, rfl, by decide⟩, ⟨by decide, _, _, _, rfl, rfl⟩, ⟨_, rfl⟩, by decide⟩
/-- Register 15 of the cast, declared for thread 0 alone, open, issued, and of quartets. -/
def qr (st : QState) (qt : Bool) : QReg := ⟨1, 1, qt, st, 0, ⟨0, []⟩, [], 0, none, [], 0⟩
def cQ (st : QState) (qt : Bool) : Cast := { c0 with q := [(15, qr st qt)] }
theorem witness_CastLevelWordsSign :
    Ready (on t0 (cQ .opened false)) t0 (cQ .opened false) [] ∧ t0.cueFull t0.cueB = false ∧
    ((cQ .opened false).qreg 15).declares 0 = true ∧ ((cQ .opened false).qreg 15).owed = [] ∧
    (on t0 (cQ .opened false)).quartetElsewhere 0 15 = false ∧
    (on t0 (cQ .opened false)).roundKey 15 (quartetOf 0 false) = none ∧
    ((cQ .opened true).qreg 15).quartet ≠ false ∧ ((cQ .opened true).qreg 15).state ≠ .empty ∧
    (let c := cQ .opened false
     let s := { on t0 c with threads := [(0, t0), (1, { t0 with held := some (.sign 15 ⟨7, []⟩ false 0) })] }
     Ready s t0 c [] ∧ ∃ k, s.roundKey 15 (quartetOf 0 false) = some k ∧ k ≠ ⟨0x9100_0000, []⟩) :=
  ⟨ready_in, by decide, by decide, rfl, by decide, by decide, by decide, by decide, ready_in, ⟨7, []⟩, by decide, by decide⟩
/-- A quartet of which one cast has signed: its round is not complete; a signature that DIVERGE is still owed to. -/
theorem witness_CastLevelWordsSign_quartets :
    (let c := cQ .opened true
     let s := on t0 c
     Ready s t0 c [] ∧ (c.qreg 15).state ≠ .empty ∧ (c.qreg 15).declares 0 = true ∧ (c.qreg 15).quartet = true ∧
     s.roundKey 15 (quartetOf 0 true) = none ∧
     ((s.putT 0 { t0.incCue t0.cueB with held := some (.sign 15 ⟨0, []⟩ true 0) }).roundComplete (quartetOf 0 true) 15) = false) ∧
    (∃ o ∈ (⟨1, 1, false, .done, 0, ⟨0, []⟩, [], 0, none, [(0, .program)], 5⟩ : QReg).owed, o.1 = 0) :=
  ⟨⟨ready_in, by decide, by decide, by decide, by decide, by decide⟩, by decide⟩
/-- Sixteen-bit elements of a tile in rows of 128 bytes (R264). -/
def ctl1 : DWord := 0x4_0000_0080
theorem elements_low : ∀ a ∈ elementAddrs 0x4_0000 ctl1, a.toNat < 2 ^ 20 ∧ a.toNat % 2 = 0 := by
  intro a h
  simp only [elementAddrs, List.mem_map, List.mem_range] at h
  obtain ⟨i, hi, rfl⟩ := h
  have e : ctlLd ctl1.toNat = 128 := by decide
  have z : ctlSize ctl1.toNat = 2 := by decide
  rw [e, z]
  simp
  omega
theorem locateAll_mapped {k : Acc} {s : State} {t : Thread} {c : Cast} (as : List DWord) (hs : OnLow s t c)
    (h : ∀ a ∈ as, a.toNat < 2 ^ 20 ∧ a.toNat % 2 = 0) (ls : List Loc) :
    ∃ z y, State.locateAll t c 0 2 k as s ls = .ok (z, y) := by
  induction as generalizing s ls with
  | nil => exact ⟨_, _, rfl⟩
  | cons a r ih =>
    have ha := h a (List.mem_cons_self ..)
    obtain ⟨z, e, hz⟩ := locate_low (ck := castOf 0) (k := k) hs ha.1 ha.2
    simp only [State.locateAll, e, Res.bind]
    exact ih hz (fun b hb => h b (List.mem_cons_of_mem _ hb)) _
theorem firstWatch_none {t : Thread} {c : Cast} {n : Nat} {k : Acc} (h : c.wpctl = []) (as : List DWord) :
    firstWatch t c 0 n k as = none := by
  induction as with
  | nil => rfl
  | cons a r ih =>
    simp only [firstWatch, watch_none h]
    exact ih
/-- Every accumulator tile and the coefficients granted; the highest index; no tile of an ALOAD refused; reads and writes. -/
def cAll : Cast := { c0 with amask := 0xFF, cgrant := true }
theorem dests_plain {t : Thread} (as : List DWord) (h : ∀ a ∈ as, a.toNat < 2 ^ 20 ∧ a.toNat % 2 = 0) :
    (as.filterMap (fun x => (onAD t cAll).destOf cAll .program x)).any Dest.isFramed = false := by
  rw [List.any_eq_false]
  intro d hd
  obtain ⟨a, ha, e⟩ := List.mem_filterMap.1 hd
  have : (onAD t cAll).destOf cAll .program a = some (.plain (.dram 1 a.toNat)) := by
    rw [State.destOf, show (onAD t cAll).gal cAll.gallery = some g1 from rfl]
    show (match translate mappedAD 1 g1 a .program .write with
      | .ok x => some (x.dest 1 a.toNat)
      | _ => none) = _
    rw [translate_low lowTables_mappedAD (h a ha).1]
    have f : (lowPlace a.toNat).framed = false := by
      show bit 0x19F 11 = false
      decide
    simp only [Xlat.dest, f]
    rfl
  rw [this] at e
  cases e
  simp [Dest.isFramed]
theorem witness_AccumulatorAndVitrineWords :
    (let t := regs [] [(31, 0xFFF)]
     Ready (on t cAll) t cAll [64 + 31, 64 + 31] ∧ t.cueFull t.cueB = false ∧ (∀ d ∈ [7, 0], cAll.grants d = true) ∧
     (t.uni 31).toNat < 2 ^ 12 ∧ cAll.cgrant = true ∧ t.v2s = 0) ∧
    (let t := regs [] [(30, 0x4_0000), (31, ctl1)]
     let s := onAD t cAll
     Ready s t cAll [64 + 30, 64 + 31] ∧ tileMemCheck cAll 7 0x4_0000 ctl1 = none ∧
     (∃ z ls, State.locateAll t cAll 0 2 .read (elementAddrs 0x4_0000 ctl1) s [] = .ok (z, ls)) ∧
     firstWatch t cAll 0 2 .read (elementAddrs 0x4_0000 ctl1) = none ∧
     (∃ z ls, State.locateAll t cAll 0 2 .write (elementAddrs 0x4_0000 ctl1) s [] = .ok (z, ls)) ∧
     firstWatch t cAll 0 2 .write (elementAddrs 0x4_0000 ctl1) = none ∧
     ((elementAddrs 0x4_0000 ctl1).filterMap (fun x => s.destOf cAll t.priv x)).any Dest.isFramed = false) :=
  ⟨⟨ready_in, by decide, by decide, by decide, rfl, rfl⟩, ready_in, by decide,
    locateAll_mapped _ ⟨lowTables_mappedAD, rfl, rfl, rfl, rfl⟩ elements_low _, firstWatch_none rfl _,
    locateAll_mapped _ ⟨lowTables_mappedAD, rfl, rfl, rfl, rfl⟩ elements_low _, firstWatch_none rfl _, dests_plain _ elements_low⟩
/-- A cast-level operation on register 15, started or not, and its machine. -/
def matOp (w : Word) (started : Bool) (outcome : Nat) : MatOp :=
  { MatOp.thread 7 0 0 w .program ⟨5, 0, 0⟩ 15 [] [] with tk := none, q := 15, started := started, outcome := outcome }
def onOrder (c : Cast) (os : List MatOp) : State := { on t0 c with cores := [(0, { (on t0 c).core 0 with order := os, grants := 1 })] }
/-- A record of accumulator tiles (R243); a product of two of them into tile 7, K = 64. -/
def tiles : VRec := ⟨0, 0, 0x0012_0000_0000_0000, none⟩
def product (started : Bool) (groups : Nat) (z : BitVec 1) : MatOp :=
  { matOp (insWord (.mma false 15 7 0 1 z)) started 0 with groups := groups, ra := some tiles, rb := some tiles }
theorem groupLines_tiles (o : MatOp) (isA : Bool) : o.groupLines tiles isA = [] := by
  rw [MatOp.groupLines, if_pos (by decide)]
/-- Operands in accumulator tiles have no lines to fetch (R245). -/
theorem fetch_tiles : ((onOrder c0 [product true 3 0]).fetchGroup 0 (product true 3 0)).2 = product true 3 0 := by
  have e (s : State) (isA : Bool) : s.fetchOperand 0 (product true 3 0) c0 g1 isA = s := by
    cases isA <;> simp [State.fetchOperand, product, groupLines_tiles]
  simp only [State.fetchGroup, show (onOrder c0 [product true 3 0]).cast (product true 3 0).ck = some c0 from rfl,
    show (onOrder c0 [product true 3 0]).gal c0.gallery = some g1 from rfl, e]
  rfl
/-- A quartet operation whose four casts are on the cores of tile 0, and a state in which each part has computed n groups. -/
def quartetPart (n ck : Nat) : MatOp :=
  { product true n 0 with ck := ck, word := insWord (.qmma false 15 7 0 1 0) }
def onQuartet (n : Nat) : State :=
  { on t0 (cQ .issued true) with
    threads := (List.range 4).map (fun i => (thrKey i 0, t0))
    casts := (List.range 4).map (fun i => (i, cQ .issued true))
    cores := (List.range 4).map (fun i => (i, { (on t0 c0).core 0 with order := [quartetPart n i] })) }
theorem witness_MatrixOrderEvents_products :
    ((0 : Int) ≤ 0 ∧ signed (false ^^ false) (1 * 1 * 2 ^ (0 + 0 - 0)) ≠ 0) ∧
    (let o := product false 0 1
     let s := onOrder c0 [o]
     firstCastOp [] (s.core 0).order = some ([], o) ∧ s.wholeQuartet o = true ∧ isMpoly o.word = false ∧
     isMiter o.word = false ∧ wZ o.word = true ∧ o.ra.isSome = true ∧ wZ (product false 0 0).word = false ∧
     ∀ x ∈ (s.core 0).order, x.op = o.op → x = o) ∧
    (let o := product true 3 0
     let s := onOrder c0 [o]
     firstCastOp [] (s.core 0).order = some ([], o) ∧ o.finished = false ∧ (s.core 0).grants ≠ 0 ∧
     s.waitsForParts o = false ∧ (s.fetchGroup 0 o).2.ra = some tiles ∧ (s.fetchGroup 0 o).2.rb = some tiles ∧
     (s.fetchGroup 0 o).2.word = o.word ∧ (s.fetchGroup 0 o).2.started = true ∧ (s.fetchGroup 0 o).2.finished = false ∧
     dFmt tiles.desc.toNat ≠ 0) ∧
    (let s := onQuartet 8
     let ps := s.opParts (quartetPart 8 2)
     firstCastOp [] (s.core 2).order = some ([], quartetPart 8 2) ∧ isQmma (quartetPart 8 2).word = true ∧ ps.length = 4 ∧
     (∀ p ∈ ps, p.2.finished = true) ∧ (ps.map (fun p => p.2.ck)).Nodup ∧
     ∀ p ∈ ps, p.2.q = 15 ∧ s.heldSigners p.2.ck 15 = [] ∧
       ∃ x, s.cast p.2.ck = some x ∧ (x.qreg 15).next = none ∧ s.qMembers p.2.ck (x.qreg 15) ≠ []) ∧
    (∃ p ∈ (onQuartet 7).opParts (quartetPart 7 2), p.2.finished = false) := by
  refine ⟨by decide, ⟨rfl, rfl, rfl, rfl, rfl, rfl, rfl, ?_⟩,
    ⟨rfl, by decide, by decide, by decide, by rw [fetch_tiles]; rfl, by rw [fetch_tiles]; rfl, by rw [fetch_tiles],
      by rw [fetch_tiles]; rfl, by rw [fetch_tiles]; decide, by decide⟩,
    ⟨rfl, by decide, by decide, by decide, by decide, ?_⟩, by decide⟩
  · intro x h _
    simpa [onOrder, State.core, tget, tfind] using h
  · have : ∀ p ∈ (onQuartet 8).opParts (quartetPart 8 2), p.2.q = 15 ∧ (onQuartet 8).heldSigners p.2.ck 15 = [] ∧
        ((onQuartet 8).cast p.2.ck).any (fun x => (x.qreg 15).next == none && (onQuartet 8).qMembers p.2.ck (x.qreg 15) != []) := by
      decide
    intro p hp
    obtain ⟨h1, h2, h3⟩ := this p hp
    obtain ⟨x, hx, h⟩ := Option.any_eq_true .. |>.1 h3
    simp only [Bool.and_eq_true, bne_iff_ne, beq_iff_eq] at h
    exact ⟨h1, h2, x, hx, h.1, h.2⟩
/-- MPOLY of degree 1 on its first step; MITER of degree 1 in each of its phases; the completion of a MITER; accumulator words. -/
theorem witness_MatrixOrderEvents :
    (let w := insWord (.mpoly false 15 7 0 1 1 0)
     let o := matOp w true 0
     isMpoly w = true ∧ o.step < polyDeg w ∧ o.groups = 0 ∧ wD w ≠ polyX w ∧ wD w ≠ polyT w ∧ polyX w ≠ polyT w) ∧
    (let w := insWord (.miter false 15 0 1 2 1 0 63)
     let o := matOp w true 0
     isMiter w = true ∧ o.outcome = 0 ∧ o.step = 0 ∧ 0 < (1 : Nat) ∧ 1 ≤ iterDeg w ∧ iterDeg w < 2 ∧ wD w ≠ iterT1 w ∧
     wD w ≠ iterT2 w ∧ iterT1 w ≠ iterT2 w ∧ (∃ v ∈ [(0x7F80_0000 : Word)], finiteWord v = false) ∧ finiteWord 0 = true) ∧
    (let o := matOp (insWord (.miter false 15 0 1 2 0 0 63)) true 1
     let s := onOrder (cQ .issued false) [o]
     firstCastOp [] (s.core 0).order = some ([], o) ∧ isQmma o.word = false ∧ s.opParts o = [(0, o)] ∧ o.finished = true ∧
     s.cast o.ck = some (cQ .issued false) ∧ ((cQ .issued false).qreg o.q).next = none ∧
     s.qMembers o.ck ((cQ .issued false).qreg o.q) ≠ [] ∧ s.heldSigners o.ck o.q = []) ∧
    (let w := insWord (.aread false 7 0 31)
     let o := MatOp.thread 7 0 0 w .program ⟨5, 0, 0⟩ 0 [0] []
     let t := { t0 with outst := [⟨7, 0, [64 + 31], [], false, none, 0, none⟩] }
     let s := { onOrder c0 [o] with threads := [(0, t)] }
     firstReady [] (s.core 0).order = some o ∧ acFn o.word ≠ 2 ∧ o.tk = some 0 ∧ s.thread 0 = some t ∧
     t.outst.find? (fun p => p.op == o.op) = some ⟨7, 0, [64 + 31], [], false, none, 0, none⟩ ∧ t.run ≠ .exited ∧ t.held = none ∧
     (7, 0, 1) ≠ ((7 : Nat), (0 : Nat), (0 : Nat))) ∧
    (ctlFmt 0 ≠ 3 ∧ ctlFmt 0xC_0000_0000 = 3) :=
  ⟨by decide, ⟨by decide, by decide, by decide, by decide, by decide, by decide, by decide, by decide, by decide, ⟨_, .head _, rfl⟩, rfl⟩,
    ⟨rfl, rfl, rfl, rfl, rfl, rfl, by decide, rfl⟩, ⟨rfl, by decide, rfl, rfl, rfl, by decide, rfl, by decide⟩, by decide⟩
/-- COPY of 16 bytes within the scratchpad: registers that pass every check of R323; the same from an odd address. -/
def tCopy (sa : DWord) : Thread := regs [] [(29, 0x40), (30, sa), (31, 0x50_0000_0010)]
theorem witness_EngineOperationsIssueAndComplete :
    (let t := tCopy 0x80
     let s := on t c0
     let w := insWord (.copy false 29 30 31)
     let o := t.engineOp 0 c0 w
     Ready s t c0 [64 + 29, 64 + 30, 64 + 31, 64 + 31] ∧ t.cueFull t.cueB = false ∧ s.gal c0.gallery = some g1 ∧
     tfind s.prods c0.prod = some placedProd ∧ s.engineCheck c0.gallery g1 o c0.spsize placedProd.weightLoad 1 = .ok () ∧
     o.kind ≠ 3 ∧ (s.enginesOn c0.onCore).length < 32) ∧
    (let t := tCopy 0x81
     ∃ x, (on t c0).engineCheck 1 g1 (t.engineOp 0 c0 (insWord (.copy false 29 30 31))) c0.spsize false 1 = .trap x) ∧
    (let t := { tCopy 0x80 with held := some (.slot (insWord (.copy false 29 30 31))) }
     (on t c0).thread 0 = some t ∧ t.v2s = 0 ∧ Unstepped t) ∧
    (let s := { on t0 c0 with ops := (List.range 32).map (fun n => (n, copyUnderWay)) }
     32 ≤ (s.enginesOn c0.onCore).length) ∧
    (let s (o : EngOp) := { on t0 c0 with ops := [(3, o)] }
     copyUnderWay.finished = false ∧ ({ copyUnderWay with limit := 0 } : EngOp).finished = true ∧ copyUnderWay.owed = false ∧
     copyUnderWay.stopped = false ∧ copyUnderWay.node = none ∧ (s copyUnderWay).thread copyUnderWay.tk = some t0 ∧
     t0.run ≠ .exited ∧ copyUnderWay.err = none) :=
  ⟨⟨ready_in, by decide, rfl, rfl, ok_of (by decide), by decide, by decide⟩, trap_of (by decide), ⟨rfl, rfl, .inl rfl⟩,
    by decide, by decide, by decide, rfl, rfl, rfl, rfl, by decide, rfl⟩
/-- A name table with one name, of core 0, at 0x100, and a communicator of that one member. -/
def gNamed : Gallery := { g1 with names := 1, ntbase := 0x100 }
def gColl : Gallery := { gNamed with comms := [(0, ⟨[0x1_0000]⟩)] }
/-- COLL: an all-reduce of four FP32 numbers on it. -/
theorem witness_EngineOperationsIssueAndComplete_collectives :
    let w := insWord (.coll false 29 30 31)
    let t := regs [] [(29, 0x5_0000), (30, 0x6_0000), (31, 4)]
    let s := { onMapped t c0 with gals := [(1, gColl)], mem := mapped ++ [((Loc.dram 1 0x107).cell, 0x80)] }
    let o := t.engineOp 0 c0 w
    Ready s t c0 [64 + 29, 64 + 30, 64 + 31] ∧ o.kind = 3 ∧ Nat.max (s.members o).length 1 = 1 ∧
    s.engineCheck 1 gColl o c0.spsize placedProd.weightLoad 1 = .ok () ∧ s.collCheck o c0.onCore = .ok { o with rank := 0 } ∧
    (s.enginesOn c0.onCore).length < 32 ∧
    (s.putT 0 { t with held := some (.slot w) }).thread 0 = some { t with held := some (.slot w) } :=
  ⟨ready_in, by decide, by decide, ok_of (by decide), rfl, by decide, rfl⟩
/-- A framed page of 64 KiB at 0x20_0000, mapped through four levels; its stage word reads 0. -/
def framed : List Host.Cell :=
  let b (a x : Nat) : Host.Cell := ((Loc.dram 1 a).cell, BitVec.ofNat 8 x)
  [b 0 1, b 2 1, b 0x10000 1, b 0x10002 2, b 0x20000 1, b 0x20002 3, b 0x30100 0x9F, b 0x30101 0x09, b 0x30102 0x20,
    b 0x30108 0x9F, b 0x30109 0x01, b 0x3010A 0x30]
def onFramed (t : Thread) (c : Cast) : State := { on t c with mem := framed }
/-- A COPY of eight elements within the scratchpad, its source line unread and read; a SCATTER of two elements to one place; a
box with the one rank's contribution of one number. -/
def copyInScratch : EngOp := { copyUnderWay with sb := 0x50_0000_0080, sd := 0x80, sa := 0x100, limit := 8 }
def copyRead : EngOp := { copyInScratch with reads := [(lineKey 1 0x100, (List.replicate 128 7, false))] }
def scatterRead : EngOp :=
  { copyInScratch with
    word := 0x9C00_0002, sb := 0x10_0000_0002 + 2 ^ 38, sa1 := 0x5_0000, limit := 2
    reads := [(lineKey 0 0x5_0000, (List.replicate 128 0, false)), (lineKey 1 0x100, (List.replicate 128 7, false))] }
theorem witness_EngineOperationsIssueAndComplete_units :
    (let s := { on t0 c0 with ops := [(3, copyInScratch)] }
     tfind s.ops 3 = some copyInScratch ∧ copyInScratch.base < copyInScratch.limit ∧ copyInScratch.kind ≠ 3 ∧
     tfind copyInScratch.reads (lineKey 1 0x100) = none ∧ copyInScratch.srcIn 1 0x100 ≠ [] ∧
     s.engineLocate copyInScratch 1 0x100 128 .read = .ok (s, .scratch 0 0x100, .plain (.scratch 0 0x100)) ∧
     s.poisoned (.scratch 0 0x100) = false ∧ copyInScratch.lost = false) ∧
    (∀ o ∈ [copyRead, scatterRead],
     let s := { on t0 c0 with ops := [(3, o)] }
     o.seal = 0 ∧ o.sd.toNat % o.size = 0 ∧ o.sa.toNat % o.size = 0 ∧ o.writes.contains (lineKey 1 0x80) = false ∧
     o.dstIn 1 0x80 ≠ [] ∧ o.indexed? = true ∧
     (∀ i ∈ o.dstIn 1 0x80, (s.elemBytes o i).map (fun x => x.1.length) = some o.size) ∧
     s.engineLocate o 1 0x80 128 .write = .ok (s, .scratch 0 0x80, .plain (.scratch 0 0x80)) ∧
     s.destPlace (.plain (.scratch 0 0x80)) = some (.scratch 0 0x80) ∧ s.gal o.gallery = some g1 ∧ g1.snap = none) ∧
    (scatterRead.kind = 2 ∧ scatterRead.dstOf 0 = scatterRead.dstOf 1 ∧ 1 ∈ scatterRead.dstIn 1 0x80) ∧
    (∃ s1 r, (onFramed t0 c0).engineLocate { copyRead with sd := 0x20_0000, sb := 0x10_0000_0080 } 0 0x20_0000 128 .write =
        .ok (s1, r, .understudy 1 0x20_0000 16 0) ∧ s1.destPlace (.understudy 1 0x20_0000 16 0) = some (.dram 1 0x21_0000) ∧
      ∀ j < 8, Outside ((Loc.dram 1 (stageAddr g1 0x20_0000)).cell + j) (Loc.dram 1 0x21_0000).cell 128) ∧
    (let o := { copyInScratch with word := 0x9E00_0000, sb := 1 }
     let s : State := { on t0 c0 with gals := [(1, { gColl with inbox := [(0, ⟨[(0, 1)], [(0, leBytes 4 5, false)], []⟩)] })] }
     o.kind = 3 ∧ 0 < o.count ∧ (s.members o).length = 1 ∧ o.collOp = 0 ∧
     ∃ g, s.gal o.gallery = some g ∧ (g.box o.boxKey).bytes o.size ((0 * o.count + 0) * o.size) o.size = some (leBytes 4 5, false)) :=
  ⟨⟨rfl, by decide, by decide, rfl, by decide, rfl, rfl, rfl⟩, by
    intro o h
    simp only [List.mem_cons, List.not_mem_nil, or_false] at h
    rcases h with rfl | rfl <;>
      exact ⟨by decide, by decide, by decide, rfl, by decide, by decide, by decide, rfl, rfl, rfl, rfl⟩,
    by decide, ⟨_, _, rfl, rfl, fun j hj => .inl (Nat.lt_of_lt_of_le (Nat.add_lt_add_left hj _) (by decide))⟩,
    ⟨by decide, by decide, by decide, by decide, _, rfl, by decide⟩⟩
theorem witness_PublishMergesAndSwaps :
    (let t := regs [] [(30, 0x20_0000), (31, 0x1_0000)]
     let s := onFramed t c0
     s.lag t = 0 ∧ t.cueFull t.cueB = false ∧ s.gal c0.gallery = some g1 ∧ Ready s t c0 [64 + 30, 64 + 31] ∧
     s.notPages 1 g1 0x20_0000 0x1_0000 = false ∧ s.notPages 1 g1 0x20_0000 0x8000 = true ∧
     (∃ ps, s.pages 1 g1 t.priv .write 0x20_0000 0x1_0000 = .ok ps ∧ (∀ p ∈ ps, p.2.framed = true) ∧
       (let pairs := ps.map (fun p => (p.2.page, p.2.bits))
        s.writesRange 0 0x20_0000 0x1_0000 pairs = false ∧ (∃ z, s.guardPairs 1 g1 pairs = .ok z) ∧
        (let o := { copyUnderWay with sd := 0x20_FFF0, limit := 1 }
         ({ s with ops := [(3, o)] } : State).writesRange 0 0x20_0000 0x1_0000 pairs = true))) ∧
     (∃ ps, s.pages 1 g1 t.priv .write 0x21_0000 0x1_0000 = .ok ps ∧ (ps.find? (fun p => !p.2.framed)).isSome = true) ∧
     (let u := { t with held := some (.publish (insWord (.publish false 30 31))) }
      (onFramed u c0).thread 0 = some u ∧ (onFramed u c0).cast (castOf 0) = some c0 ∧ Unstepped u)) ∧
    ((onFramed t0 c0).gal 1 = some g1 ∧ tsorted g1.under = true ∧
     stageAddr g1 0x20_0000 + 8 ≤ 0x20_0000) := by
  refine ⟨⟨rfl, by decide, rfl, ready_in, by decide, by decide, ⟨_, rfl, by decide, ?_⟩, ⟨_, rfl, by decide⟩,
    rfl, by decide, .inl rfl⟩, rfl, rfl, by decide⟩
  exact ⟨by decide, ⟨_, rfl⟩, by decide⟩
/-- Bytes at an address of gallery 1, through the low tables. -/
def cellsAt (a : Nat) (bs : List Byte) : List Host.Cell :=
  (bs.zipIdx.filter (fun p => p.1 != 0)).map (fun p => ((Loc.dram 1 (a + p.2)).cell, p.1))
def onRecord (t : Thread) (bs : List Byte) : State := { on t c0 with mem := mappedAD ++ cellsAt 0x4_0000 bs }
/-- The record of a copy of 16 bytes from 0x6_0000 to 0x5_0000 (R342), ready, and one to an odd address. -/
def copyRecord (dst : Nat) : List Byte :=
  List.replicate 13 0 ++ [0x10] ++ List.replicate 18 0 ++ leBytes 8 dst ++ leBytes 8 0x6_0000 ++ leBytes 8 16 ++
    List.replicate 48 0 ++ leBytes 8 0x10000 ++ List.replicate 14 0 ++ [3, 0]
def copyProd (dst : Nat) : Prod := { placedProd with recAddr := 0x4_0000, bytes := copyRecord dst, started := false }
def onCopy (dst : Nat) : State := { onRecord t0 (copyRecord dst) with prods := [(0, copyProd dst)] }
/-- The end of a record: the list of its successors, how many it may hold, how many it holds, PRED and STATE (R342). -/
def recordTail (cap nsucc pred st : Nat) : List Byte :=
  leBytes 8 0x4_2000 ++ leBytes 2 cap ++ leBytes 2 nsucc ++ leBytes 2 pred ++ [BitVec.ofNat 8 st, 0]
/-- Two records at 0x4_0000 and 0x4_1000. -/
def onRecords (x y : List Byte) : State :=
  { on t0 c0 with mem := mappedAD ++ cellsAt 0x4_0070 x ++ cellsAt 0x4_1070 y }
theorem witness_NodesAreCreatedAndReleased :
    MayRun t0 [64 + 31, 64 + 30] ∧
    (let s := onRecord t0 (placedRecord.take 0x74 ++ List.replicate 12 0)
     ∃ z, s.reach 0 1 .program 0x4_0000 128 .rmw = .ok (z, .dram 1 0x4_0000) ∧ z.gal 1 = some g1 ∧
       z.recordCode 1 g1 .program (z.recordBytes (.dram 1 0x4_0000)) = none) ∧
    (let s := onRecord t0 []
     ∃ z, s.reach 0 1 .program 0x4_0000 128 .rmw = .ok (z, .dram 1 0x4_0000) ∧
       (z.recordCode 1 g1 .program (z.recordBytes (.dram 1 0x4_0000))).isSome = true) ∧
    (let x : DWord := 0x8000_0000_0004_0000
     x.msb = true ∧ handleRec x = some 0x4_0000 ∧ (0x4_0000 : DWord).msb = false ∧ handleRec 0x8000_0000_0004_0001 = none ∧
     (∃ z, (onRecords (recordTail 1 0 1 1) []).reach 0 1 .program 0x4_0000 128 .rmw = .ok (z, .dram 1 0x4_0000) ∧
       z.gal 1 = some g1 ∧ z.value (.dram 1 0x4_007E) 1 = 1) ∧
     (∃ z, (onRecords (recordTail 1 0 0 2) []).reach 0 1 .program 0x4_0000 128 .rmw = .ok (z, .dram 1 0x4_0000) ∧
       z.value (.dram 1 0x4_007E) 1 ≠ 1) ∧
     (let p := { placedProd with recAddr := 0x4_0000 }
      let s := { onRecords (recordTail 1 0 1 1) [] with prods := [(0, p)] }
      ∃ z, s.reach 0 1 .program 0x4_0000 128 .rmw = .ok (z, .dram 1 0x4_0000) ∧ z.nodeAt 1 0x4_0000 = some (0, p) ∧
        tfind z.prods 0 = some p ∧ p.isCopy = false ∧ (z.value (.dram 1 0x4_007C) 2 + 2 ^ 16 - 1) % 2 ^ 16 = 0)) := by
  refine ⟨mayRun, ⟨_, rfl, rfl, rfl⟩, ⟨_, rfl, by decide⟩,
    by decide, by decide, by decide, by decide, ⟨_, rfl, rfl, by decide⟩,
    ⟨_, rfl, by decide⟩, ⟨_, rfl, rfl, rfl, by decide, by decide⟩⟩
/-- A GDEP on the two records: predecessor n of a state, with room for one successor or none, and a successor of a state. -/
def reached (cap st succ : Nat) (P : State → Prop) : Prop :=
  ∃ s1 s2, (onRecords (recordTail cap 0 0 st) (recordTail 0 0 0 succ)).reach 0 1 .program 0x4_0000 128 .rmw =
      .ok (s1, .dram 1 0x4_0000) ∧
    s1.reach 0 1 .program 0x4_1000 128 .rmw = .ok (s2, .dram 1 0x4_1000) ∧ s2.value (.dram 1 0x4_007E) 1 = st ∧
    s2.value (.dram 1 0x4_107E) 1 = succ ∧ P s2
theorem witness_NodesAreCreatedAndReleased_dependences :
    reached 1 3 0 (fun _ => True) ∧ reached 1 0 1 (fun _ => True) ∧ reached 1 5 1 (fun _ => True) ∧
    reached 0 3 1 (fun z => z.value (.dram 1 0x4_007A) 2 = z.value (.dram 1 0x4_0078) 2) ∧
    reached 1 3 1 (fun z => z.value (.dram 1 0x4_007A) 2 ≠ z.value (.dram 1 0x4_0078) 2 ∧
      z.value (.dram 1 0x4_0070) 8 = 0x4_2000 ∧
      ∃ s3, z.reach 0 1 .program 0x4_2000 8 .write = .ok (s3, .dram 1 0x4_2000)) ∧
    ((Loc.dram 1 0x4_0000).cell + 0x7C ≤ (Loc.dram 1 0x4_2000).cell ∧
      (Loc.dram 1 0x4_1000).cell + 0x7E ≤ (Loc.dram 1 0x4_2000).cell ∧
      (Loc.dram 1 0x4_0000).cell ≤ (Loc.dram 1 0x4_1000).cell) :=
  ⟨⟨_, _, rfl, rfl, by decide, by decide, trivial⟩, ⟨_, _, rfl, rfl, by decide, by decide, trivial⟩,
    ⟨_, _, rfl, rfl, by decide, by decide, trivial⟩, ⟨_, _, rfl, rfl, by decide, by decide, by decide⟩,
    ⟨_, _, rfl, rfl, by decide, by decide, by decide, by decide, _, rfl⟩, by decide⟩
theorem witness_NodesAreCreatedAndReleased_hardware :
    (g1.stub.go = 0 ∧ g1.hostOpen none = true ∧ g1.state = .opened ∧ ({ g1 with protect := true } : Gallery).hostOpen none = false) ∧
    (let s := onCopy 0x5_0000
     tfind s.prods 0 = some (copyProd 0x5_0000) ∧ s.gal 1 = some g1 ∧ (copyProd 0x5_0000).isCopy = true ∧
     s.mayRun 0 (copyProd 0x5_0000) = true ∧
     (let q := { placedProd with bytes := List.replicate 13 0 ++ [8] ++ List.replicate 114 0 }
      ({ s with prods := [(0, copyProd 0x5_0000), (1, q)] } : State).mayRun 0 (copyProd 0x5_0000) = false) ∧
     ∃ z, s.reachHw 1 0x4_0000 128 .rmw = some (z, .dram 1 0x4_0000) ∧ z.value (.dram 1 0x4_007E) 1 = 3 ∧
       z.engineCheck 1 g1 { EngOp.make 0 .program 0 1 0 (some 0) 15 0x9C00_0000 0x5_0000 0x6_0000 0 16 with limit := 1 } 0
         false 1 = .ok () ∧
       ∃ x, z.engineCheck 1 g1 { EngOp.make 0 .program 0 1 0 (some 0) 15 0x9C00_0000 0x5_0001 0x6_0000 0 16 with limit := 1 } 0
         false 1 = .trap x) :=
  ⟨by decide, rfl, rfl, by decide, by decide, by decide, _, rfl, by decide, ok_of (by decide), trap_of (by decide)⟩
/-- The last barrier; its phase after the arrival of 1 of 1 and of 1 of 32 threads of the company; companies 0 and 63. -/
theorem witness_GridBarriersArriveAndWait :
    (let t := regs [] [(30, 3)]
     let s := on t c0
     Ready s t c0 [64 + 31, 64 + 30] ∧ s.lag t = 0 ∧ tfind s.prods c0.prod = some placedProd ∧ t.gbarAt = none ∧
     (t.uni 30).toNat < 4 ∧ s.target 0 placedProd 0 = 1 ∧
     ((placedProd.grid 3).arriveAt 0 1).phase ≠ (placedProd.grid 3).phase ∧
     ((placedProd.grid 3).arriveAt 0 32).phase = (placedProd.grid 3).phase ∧
     (let s := { on t c0 with threads := [(0, t), (1, t0)] }
      s.target 0 placedProd 0 = 2 ∧ Ready s t c0 [64 + 31, 64 + 30])) ∧
    (7 < 8 ∧ 4 ≤ 7) ∧ 8 ≤ (8 : DWord).toNat ∧
    (let g : Grid := ⟨0x8000_0000_0000_0001, 1, 5, [(63, 31)]⟩
     tget g.locals 63 0 + 1 = 32 ∧ g.member ≠ 0 ∧
     (∀ j, j < 64 → j ≠ 63 → g.member.getLsbD j = true → g.arrive.getLsbD j = true) ∧
     tget g.locals 0 0 + 1 ≠ 32 ∧ g.member &&& ~~~g.arrive ≠ 0) :=
  ⟨⟨ready_in, rfl, rfl, rfl, by decide, by decide, by decide, by decide, by decide, ready_in⟩, by decide, by decide, by decide⟩
theorem witness_MessagesAndCalendarReads : MayRun t0 [64 + 29, 64 + 30, 64 + 31] := mayRun
/-- Supervisor code with an area at 0x10_0000: too small, and of one head; a snapshot in flight, of one framed page and of
none, whose thread is there or away. -/
def tSnap (size : DWord) : Thread := { regs [] [(30, 0x10_0000), (31, size)] with priv := .supervisor }
def snapEmpty : Snap := { snap0 with pages := [], area := 0x4_0000, size := 0x1_0000 }
def onSnap (n : Snap) : State := { onAD t0 c0 with gals := [(1, { g1 with snap := some n })] }
theorem witness_SnapshotsFreezeAndComplete :
    (let t := tSnap 0x1_0000
     let s := onMapped t c0
     Ready s t c0 [64 + 29, 64 + 30, 64 + 31] ∧ s.lag t = 0 ∧ s.gal c0.gallery = some g1 ∧ t.cueFull t.cueB = false ∧
     (t.uni 30).toNat % 65536 = 0 ∧ s.snapArea 1 g1 .supervisor 0x10_0000 0x1_0000 = .ok () ∧ g1.snap = none ∧
     s.framedPages 1 g1 = [] ∧ snapHead [] + snapData [] = 0x1_0000 ∧ Memory.wf s.mem = true) ∧
    (let t := { tSnap 0xFFFF with u := [(30, 0x10_0001)] }
     Ready (onMapped t c0) t c0 [64 + 29, 64 + 30, 64 + 31] ∧ (t.uni 30).toNat % 65536 ≠ 0) ∧
    (onMapped t0 c0).snapArea 1 g1 .supervisor 0x10_0000 0xFFFF = .ok () ∧ 0xFFFF < snapHead [] + snapData [] ∧
    (let t := tSnap 0x1_0000
     let g := { g1 with snap := some snap0 }
     let s := { onMapped t c0 with gals := [(1, g)] }
     s.gal 1 = some g ∧ s.snapArea 1 g .supervisor 0x10_0000 0x1_0000 = .ok () ∧ g.snap ≠ none ∧
     Ready s t c0 [64 + 29, 64 + 30, 64 + 31] ∧ t0.priv = .program) ∧
    (let s := onSnap snapEmpty
     s.gal 1 = some { g1 with snap := some snapEmpty } ∧ s.areaOutside 1 snapEmpty = false ∧
     (∃ z, ({ s with free := s.free + 1 } : State).streamAll 1 snapEmpty = .ok z) ∧
     ({ s with threads := [] } : State).thread snapEmpty.tk = none ∧ s.cast (castOf snapEmpty.tk) = some c0 ∧ c0.res ≠ .ended) ∧
    streamPos snap0.pages (0 * 128) 0 = some 0 :=
  ⟨⟨ready_in (hs := .inr rfl), rfl, rfl, by decide, by decide, ok_of (by decide), rfl, by decide, by decide, by decide⟩,
    ⟨ready_in (hs := .inr rfl), by decide⟩, ok_of (by decide), by decide,
    ⟨rfl, ok_of (by decide), by decide, ready_in (hs := .inr rfl), rfl⟩,
    ⟨rfl, by decide, ex_ok (by decide), rfl, rfl, by decide⟩, by decide⟩
/-! Images, written and read at low addresses. -/

/-- Gallery 1 on the low tables, no line of its memory in error. -/
structure LowState (s : State) : Prop where
  mem : LowTables s.mem
  gal : s.gal 1 = some g1
  bad : s.bad = []
theorem reach_low {s : State} (h : LowState s) {agent a : Nat} {pr : Priv} {k : Acc} (ha : a < 2 ^ 20) :
    ∃ z, s.reach agent 1 pr (BitVec.ofNat 64 a) 1 k = .ok (z, .dram 1 a) ∧ KeepsAll s z ∧ z.gals = s.gals ∧ z.mem = s.mem := by
  have e : (BitVec.ofNat 64 a).toNat = a := by
    rw [BitVec.toNat_ofNat]
    exact Nat.mod_eq_of_lt (Nat.lt_trans ha (by decide))
  have hw := walked_keeps s agent 1 (lowPlace a) k
  refine ⟨_, ?_, hw.1, hw.2.1, walked_low h.mem⟩
  rw [State.reach, if_neg (by rw [Nat.mod_one]; decide), h.gal]
  simp only [readable_clean h.bad, translate_low h.mem (show (BitVec.ofNat 64 a).toNat < 2 ^ 20 by omega), e, lowPlace]
theorem lineLen_pos {a n : Nat} (h : 0 < n) : 0 < lineLen a n ∧ lineLen a n ≤ n := by
  simp only [lineLen, Nat.min_def]
  split <;> omega
/-- Bytes are written at low addresses clear of the tables. -/
theorem writeRange_low (agent : Nat) (f : Nat) {s : State} (h : LowState s) (a : Nat) (bs : List Byte) (h0 : 0x2_0000 ≤ a)
    (ha : a + bs.length ≤ 2 ^ 20) : ∃ z, State.writeRange 1 .supervisor agent f a bs s = .ok z ∧ LowState z ∧
      z.casts = s.casts := by
  induction f generalizing s a bs with
  | zero => exact ⟨s, rfl, h, rfl⟩
  | succ f ih =>
    cases bs with
    | nil => exact ⟨s, rfl, h, rfl⟩
    | cons b t =>
      obtain ⟨z, e, k, kg, km⟩ := reach_low h (agent := agent) (pr := .supervisor) (k := .write)
        (show a < 2 ^ 20 by simp only [List.length_cons] at ha; omega)
      have hl := lineLen_pos (a := a) (n := (b :: t).length) (by simp)
      have hg : z.gal 1 = some g1 := by
        rw [State.gal, kg]
        exact h.gal
      have guard : z.snapGuard (.dram 1 a) = .ok z := by
        simp only [State.snapGuard, hg]
        rfl
      simp only [State.writeRange, List.isEmpty_cons, Bool.false_eq_true, if_false, e, Res.bind, guard]
      generalize lineLen a (b :: t).length = n at hl ⊢
      generalize (b :: t) = bs at ha hl ⊢
      have hm : ((z.put agent (.dram 1 a) (bs.take n)).1.lineState (.dram 1 a) n false).mem =
          setBytes s.mem (Loc.dram 1 a).cell (bs.take n) := by
        show (z.put agent (.dram 1 a) (bs.take n)).1.mem = _
        rw [put_mem, km]
      have hp := put_keeps z agent (.dram 1 a) (bs.take n)
      have hw : LowState ((z.put agent (.dram 1 a) (bs.take n)).1.lineState (.dram 1 a) n false) := by
        refine ⟨⟨?_, ?_⟩, ?_, ?_⟩
        · rw [hm, numAt, bytesAt_setBytes_outside _ _ _ _ _ (.inl (by simp only [Loc.cell]; omega))]
          exact h.mem.root
        · rw [hm, numAt, bytesAt_setBytes_outside _ _ _ _ _ (.inl (by simp only [Loc.cell]; omega))]
          exact h.mem.leaf
        · show tfind (z.put agent (.dram 1 a) (bs.take n)).1.gals 1 = _
          rw [put_gals]
          exact hg
        · simp [State.lineState, hp.bad, k.bad, h.bad, linesAfter]
      obtain ⟨w, ew, hw, hc⟩ := ih hw (a + n) (bs.drop n) (by omega) (by rw [List.length_drop]; omega)
      exact ⟨w, ew, hw, hc.trans (hp.casts.trans k.casts)⟩
/-- Bytes of good lines are read, as they stand, by an agent that keeps no copies. -/
theorem readRange_low (f : Nat) {s : State} (h : LowState s) (a n : Nat) (ha : a + n ≤ 2 ^ 20) (hf : n = 0 ∨ a % 128 + n ≤ 128 * f) :
    ∃ z, State.readRange 1 .supervisor curatorAgent f a n s = .ok (z, bytesAt s.mem (Loc.dram 1 a).cell n, false) ∧
      LowState z ∧ KeepsAll s z ∧ z.mem = s.mem := by
  induction f generalizing s a n with
  | zero =>
    obtain rfl : n = 0 := by omega
    exact ⟨s, rfl, h, (KeepsRun.refl s).all, rfl⟩
  | succ f ih =>
    cases n with
    | zero => exact ⟨s, rfl, h, (KeepsRun.refl s).all, rfl⟩
    | succ n =>
      obtain ⟨z, e, k, kg, km⟩ := reach_low h (agent := curatorAgent) (pr := .supervisor) (k := .read)
        (show a < 2 ^ 20 by omega)
      have hn : Nat.succ n ≠ 0 := Nat.succ_ne_zero n
      simp only [State.readRange, if_neg hn, e, Res.bind]
      have hl := lineLen_pos (a := a) (n := n + 1) (by omega)
      have hk : lineLen a (n + 1) = n + 1 ∨ (a + lineLen a (n + 1)) % 128 = 0 ∧ lineLen a (n + 1) = 128 - a % 128 := by
        simp only [lineLen, Nat.min_def]
        split <;> omega
      generalize lineLen a (n + 1) = j at hl hk ⊢
      have hb : z.bad = [] := k.bad.trans h.bad
      have hv : z.poisoned (.dram 1 a) = false := by simp [State.poisoned, hb]
      have home : z.get curatorAgent (.dram 1 a) j = ⟨(z.noteRead curatorAgent (.dram 1 a)).1.notePoison (.dram 1 a),
          numAt z.mem (Loc.dram 1 a).cell j, false, (z.noteRead curatorAgent (.dram 1 a)).2⟩ := by
        rw [State.get, show z.copyOf curatorAgent (.dram 1 a) = none from rfl]
        simp only [State.value, hv]
        rfl
      have hr := (noteRead_keeps z curatorAgent (.dram 1 a)).trans (notePoison_keeps _ (.dram 1 a))
      obtain ⟨w, ew, hw, hs, hm⟩ := ih (s := (z.noteRead curatorAgent (.dram 1 a)).1.notePoison (.dram 1 a))
        ⟨by rw [hr.mem, km]; exact h.mem, by rw [State.gal, hr.gals, kg]; exact h.gal, by rw [hr.bad, hb]⟩
        (a + j) (n + 1 - j) (by omega) (by omega)
      refine ⟨w, ?_, hw, k.trans (hr.all.trans hs), hm.trans (hr.mem.trans km)⟩
      have l := leBytes_leNat (bytesAt z.mem (Loc.dram 1 a).cell j)
      rw [bytesAt_length, km] at l
      simp only [home, ew, numAt, hr.mem, km, Bool.or_false]
      rw [l, show (Loc.dram 1 (a + j)).cell = (Loc.dram 1 a).cell + j by simp only [Loc.cell]; omega, ← bytesAt_add,
        show j + (n + 1 - j) = n + 1 by omega]
theorem padTo_length (n : Nat) (bs : List Byte) : (padTo n bs).length = n := by
  simp only [padTo, List.length_take, List.length_append, List.length_replicate]
  omega
/-- An image is written at low addresses. -/
theorem putImage_low {s : State} (h : LowState s) (k : Nat) (a : DWord) (img : List Byte) (h0 : 0x2_0000 ≤ a.toNat)
    (ha : a.toNat + img.length + 8 ≤ 2 ^ 20) : ∃ z, s.putImage 1 k a img = .ok z ∧ z.casts = s.casts := by
  have h8 : (a + 8).toNat = a.toNat + 8 := by
    rw [BitVec.toNat_add]
    exact Nat.mod_eq_of_lt (show a.toNat + 8 < 2 ^ 64 by omega)
  have hp := putPts_keeps s curatorAgent (Nat.max (s.pts curatorAgent) ((s.nowKey k).t + 1))
  have hs : LowState (s.ptsAfter curatorAgent (s.nowKey k)) :=
    ⟨by rw [State.ptsAfter, hp.mem]; exact h.mem, by rw [State.ptsAfter, State.gal, hp.gals]; exact h.gal,
      by rw [State.ptsAfter, hp.bad]; exact h.bad⟩
  obtain ⟨z, e, hz, c⟩ := writeRange_low curatorAgent (lineFuel (img.drop 8).length) hs (a + 8).toNat (img.drop 8) (by omega)
    (by rw [List.length_drop]; omega)
  obtain ⟨w, e', _, c'⟩ := writeRange_low curatorAgent (lineFuel (img.take 8).length) hz a.toNat (img.take 8) h0
    (by rw [List.length_take]; omega)
  refine ⟨_, by rw [State.putImage, State.writeBulk, e, Res.bind, State.writeBulk, e']; rfl, ?_⟩
  exact (putPts_keeps _ _ _).casts.trans (c'.trans (c.trans hp.casts))
/-- A supervisor thread that saves its cast at 0x4_0000, going on or leaving; its machine as its cast stops. -/
def tSave (x : DWord) : Thread := { regs [] [(31, x)] with priv := .supervisor }
def onSave (x : DWord) : State :=
  ((onAD (tSave x) c0).putC 0 { c0 with stop := some (.ctxsave 0) }).putT 0
    { tSave x with held := some (.ctxsave (insWord (.ctxsave false 31))) }
theorem image_written (x : DWord) (flags : Nat) :
    let s2 := (onSave x).restCast 0 0 { c0 with stop := some (.ctxsave 0) } (some 0) false
    let img := s2.imageOf 0 0 ((s2.cast 0).getD c0) placedProd flags ((onSave x).runCodes 0 (some 0))
    ∃ s3, img.1.putImage 1 0 0x4_0000 img.2 = .ok s3 ∧
      ∀ j ∈ ensembleOf placedProd 0, ∀ y, s3.cast j = some y → y.stop ≠ some .preempt := by
  intro s2 img
  have hc : s2.cast 0 = some ((s2.cast 0).getD c0) := rfl
  have hl : img.2.length = 0x3_0000 := by
    show (padTo _ _).length = _
    rw [padTo_length]
    show c0.imageSize = _
    decide
  have hs : LowState img.1 := ⟨lowTables_mappedAD, rfl, rfl⟩
  obtain ⟨z, e, c⟩ := putImage_low hs 0 0x4_0000 img.2 (by decide) (by rw [hl]; decide)
  refine ⟨z, e, fun j hj y hy => ?_⟩
  obtain rfl : j = 0 := List.mem_singleton.1 hj
  rw [State.cast, c] at hy
  cases hy.symm.trans hc
  show some (Stop.ctxsave 0) ≠ _
  decide
/-- The header of an image of cast 0 of the small machine (R367): its flags, its size, its record. -/
def headerOf (flags size rec : Nat) : List Byte :=
  leBytes 4 0x474D_4943 ++ leBytes 2 1 ++ leBytes 2 flags ++ leBytes 8 size ++ leBytes 8 rec
/-- Memory with an image at 0x4_0000, its first engine record as given, and the cast off every core or on one. -/
def onImage (flags size rec : Nat) (record : Byte) (res : Residence) : State :=
  { on t0 { c0 with res := res } with
    mem := mappedAD ++ cellsAt 0x4_0000 (headerOf flags size rec) ++ cellsAt 0x4_7400 [record] }
theorem lowState_onImage (flags size rec : Nat) (record : Byte) (res : Residence)
    (h : LowTables (onImage flags size rec record res).mem) : LowState (onImage flags size rec record res) := ⟨h, rfl, rfl⟩
/-- Its bytes, from offset a on, as they are read. -/
def imageBytes (flags size rec : Nat) (record : Byte) (a n : Nat) : List Byte :=
  bytesAt (onImage flags size rec record .off).mem (Loc.dram 1 (0x4_0000 + a)).cell n
theorem imageCast_kept {s z : State} (k : KeepsAll s z) (gi : Nat) (h : List Byte) : z.imageCast gi h = s.imageCast gi h := by
  simp only [State.imageCast, State.nodeAt, State.liveNodes, State.cast, k.prods, k.casts, k.tick]
theorem header_read {flags size rec : Nat} {record : Byte} {res : Residence}
    (h : LowTables (onImage flags size rec record res).mem) :
    ∃ z, (onImage flags size rec record res).readBulk 1 .supervisor curatorAgent 0x4_0000 256 =
        .ok (z, imageBytes flags size rec record 0 256, false) ∧
      LowState z ∧ KeepsAll (onImage flags size rec record res) z ∧ z.mem = (onImage flags size rec record res).mem :=
  readRange_low 4 (lowState_onImage _ _ _ _ _ h) 0x4_0000 256 (by decide) (by decide)
theorem extentFails_same {z s : State} {gi : Nat} {pr : Priv} {k : Machine.Acc} {a n : Nat} (hg : z.gal gi = s.gal gi)
    (hr : z.readable = s.readable) : z.extentFails gi pr k a n = s.extentFails gi pr k a n := by
  simp only [State.extentFails, State.pages, hg, hr]
/-- The whole image is read after its header. -/
theorem image_read {flags : Nat} {record : Byte} {res : Residence}
    (h : LowTables (onImage flags 0x3_0000 0x2000 record res).mem)
    (he : (onImage flags 0x3_0000 0x2000 record res).extentFails 1 .supervisor .read 0x4_0000 0x3_0000 = .ok none) :
    ∃ z w, (onImage flags 0x3_0000 0x2000 record res).readBulk 1 .supervisor curatorAgent 0x4_0000 256 =
        .ok (z, imageBytes flags 0x3_0000 0x2000 record 0 256, false) ∧
      KeepsAll (onImage flags 0x3_0000 0x2000 record res) z ∧
      z.extentFails 1 .supervisor .read 0x4_0000 0x3_0000 = .ok none ∧
      z.readBulk 1 .supervisor curatorAgent 0x4_0000 0x3_0000 =
        .ok (w, imageBytes flags 0x3_0000 0x2000 record 0 0x3_0000, false) ∧
      KeepsAll (onImage flags 0x3_0000 0x2000 record res) w := by
  obtain ⟨z, e, hz, k, m⟩ := header_read h
  obtain ⟨w, e', _, k', m'⟩ := readRange_low (lineFuel 0x3_0000) hz 0x4_0000 0x3_0000 (by decide) (.inr (by decide))
  refine ⟨z, w, e, k, ?_, ?_, k.trans k'⟩
  · have l := lowState_onImage _ _ _ _ _ h
    exact (extentFails_same (hz.gal.trans l.gal.symm)
      (by rw [readable_clean hz.bad, readable_clean l.bad, m])).trans he
  · rw [m] at e'
    exact e'
theorem bytesAt_slice (m : List Host.Cell) (a n k j : Nat) (h : k + j ≤ n) : ((bytesAt m a n).drop k).take j = bytesAt m (a + k) j := by
  rw [show n = k + (j + (n - k - j)) by omega, bytesAt_add, List.drop_left' (bytesAt_length ..), bytesAt_add,
    List.take_left' (bytesAt_length ..)]
theorem bytesAt_above (m : List Host.Cell) (n : Nat) : ∀ a, (∀ p ∈ m, p.1 < a) → bytesAt m a n = List.replicate n 0 := by
  induction n with
  | zero => exact fun _ _ => rfl
  | succ n ih =>
    intro a h
    have : byteAt m a = 0 := by
      have : tfind m a = none := by
        clear ih
        induction m with
        | nil => rfl
        | cons p t iht =>
          rw [tfind, if_neg (by have := h p (List.mem_cons_self ..); omega)]
          exact iht (fun q hq => h q (List.mem_cons_of_mem _ hq))
      simp [byteAt, tget, this]
    rw [bytesAt, this, ih (a + 1) (fun p hp => Nat.lt_succ_of_lt (h p hp)), List.replicate_succ]
/-- The block of cast registers is good where it is all zeros, and bad where an engine record that is not valid is not zero. -/
theorem block_good (z : State) (c : Cast) (b : List Byte) (h : b = List.replicate 0x8000 0) : z.blockBad c b = false := by
  subst h
  simp only [State.blockBad, List.drop_replicate, List.take_replicate]
  rfl
theorem block_bad (z : State) (c : Cast) (b : List Byte) (h : (b.drop 0x1400).take 64 = 1 :: List.replicate 63 0) :
    z.blockBad c b = true := by
  simp only [State.blockBad, Bool.or_eq_true]
  refine .inr (List.any_eq_true.2 ⟨0, by decide, ?_⟩)
  simp only [Nat.mul_zero, Nat.add_zero, h]
  rfl
theorem witness_ContextsAreSavedAndLoaded :
    (let t := tSave 0x4_0001
     let s := onAD t c0
     Ready s t c0 [64 + 31] ∧ s.lag t = 0 ∧ s.gal c0.gallery = some g1 ∧ tfind s.prods c0.prod = some placedProd ∧
     c0.res = .core 0 ∧ t0.priv = .program ∧ t.priv = .supervisor ∧ (t.uni 31).toNat / 2 % 2 ^ 11 = 0 ∧
     (t.uni 31).getLsbD 0 = true ∧ g1.protect = false ∧ placedProd.cpe = 1 ∧ c0.stop = none ∧ t.run = .member ∧
     s.extentFails 1 .supervisor .write 0x4_0000 c0.imageSize = .ok none ∧ (onSave 0x4_0001).castStill 0 0 = true ∧
     (let s2 := { s with threads := [(0, t), (1, { t0 with outst := [⟨7, 3, [2], [], false, none, 0, none⟩] })] }
      ((s2.putC 0 { c0 with stop := some (.ctxsave 0) }).putT 0
        { t with held := some (.ctxsave (insWord (.ctxsave false 31))) }).castStill 0 0 = false)) ∧
    (Ready (onAD (tSave 0x4_0000) c0) (tSave 0x4_0000) c0 [64 + 31] ∧ ((tSave 0x4_0000).uni 31).getLsbD 0 = false ∧
      (onSave 0x4_0000).castStill 0 0 = true) ∧
    (0xFFE : DWord).toNat / 2 % 2 ^ 11 ≠ 0 ∧ ({ placedProd with bytes := placedRecord.set 10 4 } : Prod).cpe ≠ 1 ∧
    ({ g1 with protect := true } : Gallery).protect = true ∧
    (let c := { c0 with res := .off }
     c.res = .off ∧ (on t0 c).cast 0 = some c ∧ (headerOf 0 0x3_0000 0x2000).length ≤ 2 ^ 24) :=
  ⟨⟨ready_in (hs := .inr rfl), rfl, rfl, rfl, rfl, rfl, rfl, by decide, by decide, rfl, by decide, rfl, rfl, rfl, by decide, by decide⟩,
    ⟨ready_in (hs := .inr rfl), by decide, by decide⟩, by decide, by decide, rfl, rfl, rfl, by decide⟩
/-- Images: of no header; of no node; of another size; of the other protection; with a bad record; of a cast on a core; good. -/
theorem witness_ContextsAreSavedAndLoaded_images :
    (∃ z h, (onImage 0 0 0 0 .off).readBulk 1 .supervisor curatorAgent 0x4_0000 256 = .ok (z, h, false) ∧ headerBad h = true) ∧
    (∃ z h, (onImage 0 0x3_0000 0x5000 0 .off).readBulk 1 .supervisor curatorAgent 0x4_0000 256 = .ok (z, h, false) ∧
      headerBad h = false ∧ z.imageCast 1 h = none) ∧
    (∃ z h, (onImage 0 0xE000 0x2000 0 .off).readBulk 1 .supervisor curatorAgent 0x4_0000 256 = .ok (z, h, false) ∧
      headerBad h = false ∧ z.imageCast 1 h = some (0, { c0 with res := .off }, placedProd) ∧ recNat h 8 8 ≠ c0.imageSize) ∧
    (∃ z, (onImage 0 0x3_0000 0x2000 0 .off).reach curatorAgent 1 .supervisor 0x4_0000 128 .read = .ok (z, .dram 1 0x4_0000)) := by
  refine ⟨?_, ?_, ?_, ⟨_, rfl⟩⟩
  · obtain ⟨z, e, -, -, -⟩ := header_read (flags := 0) (size := 0) (rec := 0) (record := 0) (res := .off) ⟨by decide, by decide⟩
    exact ⟨z, _, e, by decide⟩
  · obtain ⟨z, e, -, k, -⟩ := header_read (flags := 0) (size := 0x3_0000) (rec := 0x5000) (record := 0) (res := .off)
      ⟨by decide, by decide⟩
    exact ⟨z, _, e, by decide, (imageCast_kept k _ _).trans rfl⟩
  · obtain ⟨z, e, -, k, -⟩ := header_read (flags := 0) (size := 0xE000) (rec := 0x2000) (record := 0) (res := .off)
      ⟨by decide, by decide⟩
    exact ⟨z, _, e, by decide, (imageCast_kept k _ _).trans rfl, by decide⟩
/-- The whole of an image that is read, and what the further checks of R370 find: a protected one; one with a bad record; one
whose cast is on a core; one that passes them all. -/
def checks (flags : Nat) (record : Byte) (res : Residence) (P : State → List Byte → Prop) : Prop :=
  ∃ z h w img, (onImage flags 0x3_0000 0x2000 record res).readBulk 1 .supervisor curatorAgent 0x4_0000 256 = .ok (z, h, false) ∧
    headerBad h = false ∧ z.imageCast 1 h = some (0, { c0 with res := res }, placedProd) ∧ recNat h 8 8 = c0.imageSize ∧
    z.extentFails 1 .supervisor .read 0x4_0000 c0.imageSize = .ok none ∧
    z.readBulk 1 .supervisor curatorAgent 0x4_0000 c0.imageSize = .ok (w, img, false) ∧
    bit (recNat h 6 2) 0 = decide (flags = 1) ∧ P w img
theorem witness_ContextsAreSavedAndLoaded_checks :
    checks 1 0 .off (fun _ _ => True) ∧
    checks 0 1 .off (fun w img => w.blockBad { c0 with res := .off } ((img.drop (imageToff c0.ntid)).take 0x8000) = true) ∧
    checks 0 0 (.core 0) (fun w img => w.blockBad { c0 with res := .core 0 } ((img.drop (imageToff c0.ntid)).take 0x8000) = false ∧
      w.placedElsewhere placedProd 0 { c0 with res := .core 0 } = true) ∧
    checks 0 0 .off (fun w img => w.blockBad { c0 with res := .off } ((img.drop (imageToff c0.ntid)).take 0x8000) = false ∧
      w.placedElsewhere placedProd 0 { c0 with res := .off } = false) := by
  have size : c0.imageSize = 0x3_0000 := by decide
  have toff : imageToff c0.ntid = 0x6000 := by decide
  have good (res : Residence) (w : State) :
      w.blockBad { c0 with res := res } (((imageBytes 0 0x3_0000 0x2000 0 0 0x3_0000).drop 0x6000).take 0x8000) = false :=
    block_good _ _ _ (by
      rw [imageBytes, bytesAt_slice _ _ _ _ _ (by decide)]
      exact bytesAt_above _ _ _ (by decide))
  simp only [checks, size, toff]
  refine ⟨?_, ?_, ?_, ?_⟩
  · obtain ⟨z, w, e, k, x, e', -⟩ := image_read (flags := 1) (record := 0) (res := .off) ⟨by decide, by decide⟩ rfl
    exact ⟨z, _, w, _, e, by decide, (imageCast_kept k _ _).trans rfl, by decide, x, e', by decide, trivial⟩
  · obtain ⟨z, w, e, k, x, e', -⟩ := image_read (flags := 0) (record := 1) (res := .off) ⟨by decide, by decide⟩ rfl
    refine ⟨z, _, w, _, e, by decide, (imageCast_kept k _ _).trans rfl, by decide, x, e', by decide, block_bad _ _ _ ?_⟩
    rw [imageBytes, bytesAt_slice _ _ _ _ _ (by decide), bytesAt_slice _ _ _ _ _ (by decide)]
    decide
  · obtain ⟨z, w, e, k, x, e', -⟩ := image_read (flags := 0) (record := 0) (res := .core 0) ⟨by decide, by decide⟩ rfl
    exact ⟨z, _, w, _, e, by decide, (imageCast_kept k _ _).trans rfl, by decide, x, e', by decide, good _ _, rfl⟩
  · obtain ⟨z, w, e, k, x, e', l⟩ := image_read (flags := 0) (record := 0) (res := .off) ⟨by decide, by decide⟩ rfl
    exact ⟨z, _, w, _, e, by decide, (imageCast_kept k _ _).trans rfl, by decide, x, e', by decide, good _ _, rfl⟩
theorem block_length (t : Thread) (code : Nat) : (t.block code).length = 640 := by
  simp [Thread.block, bytes8, leBytes_length, List.length_flatMap] <;> decide
/-- Ranges at low addresses clear of the tables are reached there, whatever they hold. -/
theorem reachedAt_low {s : State} {x : Option Snap} (hm : LowTables s.mem) (hg : s.gal 1 = some { g1 with snap := x })
    (hb : s.bad = []) {a n : Nat} (h0 : 0x2_0000 ≤ a) (ha : a + n ≤ 2 ^ 20) : ReachedAt s 1 a n (Loc.dram 1 a).cell := by
  intro z g h agent i hs hz hbad hmem hi
  obtain rfl : g = { g1 with snap := x } := Option.some.inj (hs.symm.trans hg)
  have hb' : z.bad = [] := List.eq_nil_iff_forall_not_mem.2 (fun y hy => by
    have := hbad y hy
    rw [hb] at this
    exact absurd this (List.not_mem_nil))
  have same (c : Nat) (hc : c + 8 ≤ (Loc.dram 1 a).cell) : numAt z.mem c 8 = numAt s.mem c 8 := by
    rw [numAt, numAt]
    congr 1
    apply List.ext_getElem
    · rw [bytesAt_length, bytesAt_length]
    · intro j h1 h2
      rw [bytesAt_length] at h1
      rw [bytesAt_getElem _ _ _ _ h1, bytesAt_getElem _ _ _ _ h1]
      exact hmem _ (.inl (by omega))
  have low : LowTables z.mem := by
    refine ⟨(same _ ?_).trans hm.root, (same _ ?_).trans hm.leaf⟩ <;> simp only [Loc.cell] <;> omega
  have e : (BitVec.ofNat 64 (a + i)).toNat = a + i := by
    rw [BitVec.toNat_ofNat]
    exact Nat.mod_eq_of_lt (Nat.lt_of_lt_of_le (show a + i < 2 ^ 20 by omega) (by decide))
  have ht := translate_snap (pr := .supervisor) (k := .write) h.snap low (show (BitVec.ofNat 64 (a + i)).toNat < 2 ^ 20 by omega)
  rw [e] at ht
  refine ⟨z.walked agent 1 (lowPlace (a + i)) .write, .dram 1 (a + i), ?_, by simp only [Loc.cell]; omega, walked_low low⟩
  have hz' : z.gal 1 = some { g1 with snap := h.snap } := hz
  rw [State.reach, if_neg (by rw [Nat.mod_one]; decide), hz']
  simp only [readable_clean hb', ht, lowPlace]
/-- A snapshot of one small page. -/
def snapOne : Snap := { snapEmpty with pages := [(0x8_0000, 0, 0x8_0000)], size := 0x2_0000 }
theorem witness_SnapshotsFreezeAndComplete_stream :
    let s := onSnap snapOne
    s.gal 1 = some { g1 with snap := some snapOne } ∧ (∃ z, s.streamSnap 1 snapOne = (z, 0)) ∧
    snapOne.area.toNat + snapOne.size ≤ 2 ^ 64 ∧ snapHead snapOne.pages + snapData snapOne.pages ≤ snapOne.size ∧
    ReachedAt s 1 snapOne.area.toNat snapOne.size (Loc.dram 1 0x4_0000).cell ∧
    snapOne.pages = [] ++ (0x8_0000, 0, 0x8_0000) :: [] := by
  refine ⟨rfl, ?_, by decide, by decide, reachedAt_low lowTables_mappedAD rfl rfl (by decide) (by decide), rfl⟩
  obtain ⟨z, e⟩ : ∃ z, ({ onSnap snapOne with free := (onSnap snapOne).free + 1 } : State).streamAll 1 snapOne = .ok z :=
    ex_ok (by decide +kernel)
  have o : (onSnap snapOne).areaOutside 1 snapOne = false := by decide
  exact ⟨z, by simp only [State.streamSnap, e, o, Bool.false_and]; rfl⟩
/-- An image that is written, what is put into it, and one that a cast takes up. -/
theorem witness_ContextsAreSavedAndLoaded_bytes :
    (∃ (s z : State) (img : List Byte), s.putImage 1 0 0x4_0000 img = .ok z ∧ s.gal 1 = some g1 ∧ 8 ≤ img.length ∧
      (0x4_0000 : DWord).toNat + img.length ≤ 2 ^ 64 ∧
      ReachedAt s 1 (0x4_0000 : DWord).toNat img.length (Loc.dram 1 0x4_0000).cell) ∧
    ((on t0 c0).gal c0.gallery = some g1 ∧ g1.protect = false ∧ 0 < c0.ntid ∧ c0.ntid ≤ 2048 ∧
      (on t0 c0).thread (thrKey 0 0) = some t0 ∧ AtRest t0 ∧ (maskTiles 5)[1]? = some 2) ∧
    (∃ img : List Byte, img.length = c0.imageSize ∧ SavedThread t0 ((img.drop (0x100 + 640 * 0)).take 640) ∧ c0.haltReq = false ∧
      g1.snapOwed = []) := by
  refine ⟨?_, ⟨rfl, rfl, by decide, by decide, rfl, ⟨by decide, by decide, by decide, by decide, by decide, by decide⟩,
    by decide⟩, ?_⟩
  · have hl := lowState_onImage 0 0 0 0 .off ⟨by decide, by decide⟩
    obtain ⟨z, e, _⟩ := putImage_low hl 0 0x4_0000 (leBytes 8 7) (by decide) (by decide)
    exact ⟨_, z, _, e, rfl, by decide, by decide, reachedAt_low hl.mem rfl rfl (by decide) (by decide)⟩
  · have l := block_length t0 0
    refine ⟨List.replicate 0x100 0 ++ (t0.block 0 ++ List.replicate 0x2_FC80 0), ?_, ?_, rfl, rfl⟩
    · rw [List.length_append, List.length_append, l, List.length_replicate, List.length_replicate]
      decide
    · rw [List.drop_left' (List.length_replicate), List.take_left' l]
      unfold SavedThread
      decide +kernel
/-- A scene of a header and EXIT. -/
def sceneAt2000 : List Host.Cell :=
  let b (i x : Nat) : Host.Cell := ((Loc.dram 1 (0x2000 + i)).cell, BitVec.ofNat 8 x)
  [b 0 0xF0, b 1 0x0F, b 3 0x80, b 7 0xCD]
/-- Core 0 of the small machine with one slot or one chorus. -/
def onCore (t : Thread) (f : Core → Core) : State := { onMapped t c0 with cores := [(0, f ((on t c0).core 0))] }
def tFiled : Thread := { t0 with run := .filed, pc := 0x1000, inScene := false }
def slot0 (since : Option Nat) : Slot := ⟨0, 0x1000, .program, [0], 0, false, since⟩
def ch (ph : Phase) : Chorus := ⟨0, .program, [0], 0x1000, [], 0x1000, [0], ph, none, 0, 0, 0, false, 0, 0⟩
theorem freeLane_of {c : Core} (h : c.freeLane.isSome = true) : ∃ n, c.freeLane = some n := Option.isSome_iff_exists.1 h
theorem witness_ScenesAreDrawnFetchedAndStarted :
    (MayRun t0 [] ∧ (∀ k, k < 12 → (0xFFF : BitVec 12).getLsbD k = true → t0.cue k = 0) ∧
     (let t := { t0 with k := [(11, 1)] }
      MayRun t [] ∧ ∃ k, k < 12 ∧ (0xFFF : BitVec 12).getLsbD k = true ∧ t.cue k ≠ 0)) ∧
    (let s := onCore tFiled (fun k => { k with slots := [(7, slot0 none)] })
     tfind (s.core 0).slots 7 = some (slot0 none) ∧
     s.thread (thrKey 0 0) = some tFiled ∧ (slot0 none).since = none ∧
     (let s1 := { s with tick := 1000 }
      tFiled.filedAt + (s1.core 0).wingage.toNat ≤ s1.clock (tileOf 0)) ∧
     0 < (s.core 0).wingage.toNat ∧ s.clock (tileOf 0) < tFiled.filedAt + (s.core 0).wingage.toNat) ∧
    (let s := onCore tFiled (fun k => { k with slots := [(7, slot0 (some 0))] })
     s.bestSlot 0 = some 7 ∧ s.deliver (thrKey 0 0) = s ∧ s.thread (thrKey 0 0) = some tFiled ∧ (slot0 (some 0)).keeps tFiled = true ∧
     s.bestSlot 0 ≠ some 8) ∧
    (let s := onCore { t0 with pc := 0x1000 } (fun k => { k with chorus := [(5, ch .lane)] })
     (s.core 0).chorusNo 5 = some (ch .lane) ∧ s.cast 0 = some c0 ∧ s.bestChorus 0 = some 5 ∧
     ∃ n, (s.core 0).freeLane = some n) ∧
    (let s := onCore t0 (fun k => { k with chorus := [(5, { ch .header with words := [0x80FF_FFF0] })] })
     (∃ x, (s.core 0).chorusNo 5 = some x ∧ x.phase = .header) ∧ ∀ j, j < 12 → bit 0xFFF j = true → t0.cue j = 0) ∧
    ((ch .fetch).phase = .fetch ∧ c0.stop = none ∧ (ch .fetch).pc = (ch .fetch).hdr ∧ (ch .fetch).members = [0] ∧
     (onMapped t0 c0).fetchScene c0 .program 0x1000 = .noHeader ∧ (on t0 c0).fetchScene c0 .program 0x1000 = .page 0 ∧
     (let s (code : List Host.Cell) : State := { onMapped t0 c0 with prods := [(0, { placedProd with code := code })] }
      (s (sceneAt2000.take 3 ++ [((Loc.dram 1 0x2007).cell, 0xCC), ((Loc.dram 1 0x2004).cell, 1)])).fetchScene c0 .program 0x2000 =
        .illegal 1 ∧
      ∃ ws st, (s sceneAt2000).fetchScene c0 .program 0x2000 = .ok ws st)) ∧
    (onMapped t0 c0).fetch c0 .program 0x1000 = .ok 0 ∧ isHeader 0 = false ∧
    (∃ p, (onMapped t0 c0).casts.find? (fun p => p.2.coreNo == some 0) = some p ∧ (onMapped t0 c0).gal p.2.gallery = some g1 ∧
      walk mapped p.2.gallery g1 0xF_FFFF_FFFF = .leaf 0x1F 0x10000 36 [0, 0x10000]) :=
  ⟨⟨mayRun, by decide, mayRun, by decide⟩, by decide,
    ⟨by decide, rfl, rfl, by decide, by decide⟩, ⟨rfl, rfl, by decide, freeLane_of (by decide)⟩,
    ⟨⟨_, rfl, rfl⟩, by decide⟩,
    ⟨rfl, rfl, rfl, rfl, by decide, by decide, by decide, [0x8000_0FF0, 0xCD00_0000], [0, 1], by decide⟩, by decide, by decide,
    ⟨_, rfl, rfl, by decide⟩⟩
/-- A scene of a header and EXIT, at any address of the low page. -/
def onScene (code : List Host.Cell) : State := { onMapped t0 c0 with prods := [(0, { placedProd with code := code })] }
def wScene (i : Nat) : Word := if i = 0 then 0x8000_0FF0 else if i = 1 then 0xCD00_0000 else 0
theorem witness_ScenesAreDrawnFetchedAndStarted_scenes :
    (let s := onScene sceneAt2000
     s.fetch c0 .program 0x2000 = .ok (wScene 0) ∧ isHeader (wScene 0) = true ∧ (∃ i, decodeWord (wScene 0).toNat 0 = .ok i) ∧
     ¬(wScene 0).getLsbD 3 = true ∧ Runs wScene none 1 [] 1 none ∧ s.fetch c0 .program 0x2004 = .ok (wScene 1) ∧
     s.fetch c0 .program 0x2008 = .ok (wScene 2) ∧ (∃ i, decodeWord (wScene 1).toNat 0 = .ok i ∧ endsItsScene i = true)) ∧
    (let s := onScene ((sceneAt2000.take 3).map (fun x => (x.1 - 0x2000 + 0xF_FFFF_FFFC, x.2)))
     s.fetch c0 .program 0xF_FFFF_FFFC = .ok (wScene 0) ∧ s.fetch c0 .program 0x10_0000_0000 = .fail 0) ∧
    (onMapped t0 c0).fetch c0 .program 0x10_0000_0000 = .fail 0 ∧
    (isHeader 0x8100_0000 = false ∧ isHeader 0x8000_0001 = true ∧ ¬∃ i, decodeWord (0x8000_0001 : Word).toNat 0 = .ok i) ∧
    (isHeader 0x8000_0FF8 = true ∧ fld (0x80 : Word).toNat 14 18 = 0 ∧ (0x80 : Word).getLsbD 7 = true) ∧
    ({ ch .fetch with members := [0, 1] } : Chorus).members.Nodup ∧
    (let s := onCore tFiled (fun k => { k with slots := [(7, slot0 (some 0))] })
     MayDraw s 0 7 (slot0 (some 0)) ⟨0, 0, 0, false, 7⟩) ∧
    (let s := onCore { t0 with pc := 0x1000 } (fun k => { k with chorus := [(5, ch .lane)] })
     WaitsForLane s 0 (ch .lane) ⟨0, 0, 0, false, 0⟩) ∧
    (let q := { placedProd with key := (⟨1, 0, 0⟩ : Key) }
     tfind ({ onMapped t0 c0 with prods := [(0, placedProd), (1, q)] } : State).prods 1 = some q ∧
       placedProd.key.before q.key = true) := by
  refine ⟨⟨by decide, by decide, ⟨.scene 0 15 15 0, rfl⟩, by decide, ⟨rfl, rfl⟩, by decide, by decide, ⟨.exit, rfl, rfl⟩⟩,
    ⟨by decide +kernel, by decide +kernel⟩, by decide +kernel, ⟨by decide, by decide, ?_⟩, by decide, by decide,
    ⟨0, c0, rfl, rfl, rfl, by decide, c0, rfl, by decide⟩,
    ⟨rfl, rfl, ⟨0, by decide, { t0 with pc := 0x1000 }, by decide, rfl, by decide⟩, ⟨c0, rfl, .inl rfl⟩, by decide, c0, rfl, by decide⟩, rfl, by decide⟩
  rintro ⟨i, h⟩
  cases h
/-- Two threads of a window held at one rendezvous, under a cast that handles traps; seat 5 of the set is missing. -/
theorem witness_EachTraps :
    (let t := { tMask 0x23 with held := some (.rdv 0x23 0) }
     let s := { on t cTrap with threads := [(0, t), (1, t)] }
     (((s.rdvSet 0 0 t.pc t.priv 0x23).map (·.1)).Nodup ∧ (s.rdvSet 0 0 t.pc t.priv 0x23).length = 2) ∧
     (seatBits (s.rdvSet 0 0 t.pc t.priv 0x23) = 3 ∧ cTrap.tvecEn = true ∧ t.run = .member ∧ t.dueHalt = false ∧
      t.dueSlice = false ∧ t.priv = .program) ∧
     (s.failSet 0 0 cTrap t.pc t.priv 0x23 1).threads.map (fun p => (p.1, p.2.tval)) = [(0, 0x1_0000_0020), (1, 0x1_0000_0020)]) ∧
    (on t0 c0).unsigned 0 3 0 { QReg.initial with w := 1, m := 1 } = 1 := by decide
theorem witness_CausesAreDelivered :
    (let t := { tFiled with haltDue := true }
     let s := on t cTrap
     s.thread 0 = some t ∧ s.cast (castOf 0) = some cTrap ∧ t.run = .filed ∧ s.takeOwed 0 t cTrap = none ∧
     t.dueSlice = false ∧ t.dueHalt = true ∧ cTrap.tvecEn = true ∧ s.quiescing cTrap = false ∧ t.pfx = none ∧
     ({ s with gals := [(1, { g1 with state := .quiescing })] } : State).quiescing cTrap = true) ∧ tFiled.dueHalt = false ∧
    ({ c0 with rdvto := 0 } : Cast).rdvto = 0 ∧ ({ c0 with res := .available } : Cast).coreNo = none ∧ c0.coreNo ≠ none ∧
    (let t := { tMask 3 with held := some (.rdv 3 0) }
     let s := { on t c0 with tick := 100000 }
     s.thread 0 = some t ∧ s.cast (castOf 0) = some c0 ∧ c0.rdvto ≠ 0 ∧
     firstTick s.tick (s.rdvSet 0 0 t.pc t.priv 3) + c0.rdvto ≤ s.tick ∧
     (let s := { s with tick := 99999 }
      s.tick < firstTick s.tick (s.rdvSet 0 0 t.pc t.priv 3) + c0.rdvto)) ∧
    (let t := { t0 with held := some (.sign 15 ⟨7, []⟩ false 0) }
     let s := { on t c0 with tick := 100000 }
     firstTick s.tick (s.heldSigners 0 15) + c0.rdvto ≤ s.tick ∧
     (let s := { s with tick := 99999 }
      s.tick < firstTick s.tick (s.heldSigners 0 15) + c0.rdvto)) ∧
    (({ g1 with protect := true, debug := false } : Gallery).protect = true ∧ g1.protect = false ∧
     (on t0 c0).cast 0 = some c0 ∧ (on t0 c0).gal c0.gallery = some g1) := by decide
/-- The only waiting ensemble: the second of two of a node. -/
def wait0 : Wait := ⟨0, 0, 0, 200000, 0, false⟩
def gReady (ws : List Wait) : Gallery := { g1 with ready := ws }
theorem witness_TheBoxOfficeActs :
    (let t := { t0 with run := .exited }
     let s := on t c0
     s.cast 0 = some c0 ∧ c0.res = .core 0 ∧ tfind s.prods c0.prod = some placedProd ∧ s.castDone 0 0 c0 = true ∧
     placedProd.ended + 1 = placedProd.casts ∧ tsorted s.prods = true ∧ (on t0 c0).castDone 0 0 c0 = false ∧
     ({ placedProd with casts := 2 } : Prod).ended + 1 ≠ ({ placedProd with casts := 2 } : Prod).casts) ∧
    (let s := { on t0 c0 with gals := [(1, gReady [wait0])] }
     s.gal 1 = some (gReady [wait0]) ∧ (gReady [wait0]).state = .opened ∧ (gReady [wait0]).ready = [wait0] ∧
     tfind s.prods 0 = some placedProd ∧ s.positionFor 0 placedProd (gReady [wait0]) 0 = some 0 ∧ (gReady []).ready = [] ∧
     (s.tryPlace 1 (gReady [wait0]) wait0 placedProd 0).isSome = true ∧
     200000 ≤ wait0.wage + (s.tick - wait0.since) ∧ ({ wait0 with wage := 199999 } : Wait).wage + (s.tick - 0) < 200000) ∧
    (({ State.reset with tick := 2000 } : State).castsOn 0 = [] ∧ (State.reset.core 0).gated = true ∧
     (let s := { State.reset with tick := 2000, cores := [(0, { State.reset.core 0 with gated := false })] }
      (s.core 0).gated = false ∧ s.castsOn 0 = [] ∧ (s.core 0).hold + 2000 ≤ s.tick) ∧
     (let s := { State.reset with cores := [(0, { State.reset.core 0 with waking := some 3 })] }
      (s.core 0).waking = some 3 ∧ s.wakesFirst 0 3 = true) ∧ (State.reset.core 0).waking = none) ∧
    (let s := { on t0 c0 with tick := 200000 }
     s.cast 0 = some c0 ∧ c0.stop = none ∧ s.gal c0.gallery = some g1 ∧ g1.state = .opened ∧ c0.notified = none ∧
     s.haltedByDebugger 0 = false ∧ c0.sliceStart + c0.ticks ≤ s.tick ∧ (on t0 c0).tick < c0.sliceStart + c0.ticks ∧
     s.noticeOver 0 100000 = true ∧
     (let u := { t0 with sliceIn := true, sliceDue := true }
      ({ on u c0 with tick := 99999 } : State).noticeOver 0 0 = false) ∧
     ([wait0].any (fun w => decide (c0.prio ≤ s.waitPrio w))) = true ∧
     (([] : List Wait).any (fun w => decide (c0.prio ≤ s.waitPrio w))) = false) := by decide
/-- A company that is bound, one that is not, and none where every position is taken; a core and a cluster that take the cast of
the small machine's launch; its ensemble placed on cluster 0; a cast admitted afresh, and one from an image that it holds. -/
def onWait : State := { on t0 c0 with casts := [], threads := [], gals := [(1, gReady [wait0])] }
def cHeld : Cast := { c0 with image := some .loaded }
def onHeld : State := { on t0 cHeld with mem := setBytes [] (heldImage 0).cell (headerOf 0 0x3_0000 0x2000) }
theorem held_read : ∃ img, onHeld.readImage 0 cHeld placedProd .loaded = some (onHeld, img) := by
  have size : cHeld.imageSize = 0x3_0000 := by decide
  have head : (bytesAt onHeld.mem (heldImage 0).cell 0x3_0000).take 256 = bytesAt onHeld.mem (heldImage 0).cell 256 := by
    rw [← List.drop_zero (l := bytesAt onHeld.mem (heldImage 0).cell 0x3_0000), bytesAt_slice _ _ _ _ _ (by decide)]
    rfl
  have good : headerBad (bytesAt onHeld.mem (heldImage 0).cell 256) = false := by decide +kernel
  have len : recNat (bytesAt onHeld.mem (heldImage 0).cell 0x3_0000) 8 8 = 0x3_0000 := by
    rw [recNat, bytesAt_slice _ _ _ _ _ (by decide)]
    decide +kernel
  have gal : onHeld.gal cHeld.gallery = some g1 := rfl
  refine ⟨bytesAt onHeld.mem (heldImage 0).cell 0x3_0000, ?_⟩
  simp only [State.readImage, size, gal, head, good, len]
  rfl
theorem witness_TheBoxOfficeActs_placement :
    (tfind ({ placedProd with bind := [(3, 0)] } : Prod).bind 3 = some 0 ∧
     tfind ({ placedProd with bind := [(3, 0)] } : Prod).bind 4 = none ∧
     ∀ t, t < g1.tiles.length → ∃ b ∈ [(3, 0)], b.2 = t ∧ (on t0 c0).companyEnded 0 placedProd b.1 = false) ∧
    (onWait.mayRun 0 placedProd = true ∧ onWait.imagesReadable placedProd [(0, 0)] = true ∧
     (List.range placedProd.cpe).map (fun i => (castKey 0 ((0 * placedProd.epc + 0) * placedProd.cpe + i),
       (0 * placedProd.epc + 0) * placedProd.cpe + i)) = [(0, 0)] ∧
     ((onWait.tile 0).cursor + 1 + 0) % 40 = 0 ∧ CoreTakes onWait 0 0 placedProd ∧ ClusterTakes onWait 0 0 placedProd ∧
     Placed 0 0 placedProd 0 [(0, 0)] onWait (onWait.placeCast 0 0 0 0 placedProd 0)) ∧
    (onWait.castsOn 0 = [] ∧ (on t0 c0).castsOn 0 ≠ [] ∧ (State.reset.core 0).gated = true) ∧
    (∃ img, onHeld.cast 0 = some cHeld ∧ cHeld.image = some .loaded ∧
      onHeld.readImage 0 cHeld placedProd .loaded = some (onHeld, img)) ∧
    ((on t0 c0).cast 0 = some c0 ∧ tfind (on t0 c0).prods c0.prod = some placedProd ∧ c0.image = none ∧ c0.haltReq = false ∧
      placedProd.ntid ≤ 2048) := by
  have core : ∀ j, j / 4 = 0 → j = 0 ∨ j = 1 ∨ j = 2 ∨ j = 3 := by omega
  have ct : CoreTakes onWait 0 0 placedProd := by unfold CoreTakes; decide
  have cl : ClusterTakes onWait 0 0 placedProd := by unfold ClusterTakes; decide
  refine ⟨⟨rfl, rfl, by decide⟩, ⟨by decide, by decide, by decide, by decide, ct, cl, ?_⟩, by decide,
    ⟨held_read.choose, rfl, rfl, held_read.choose_spec⟩, ⟨rfl, rfl, rfl, rfl, by decide⟩⟩
  refine ⟨fun h => absurd h (by decide), fun _ => ⟨cl, 0, rfl, ct, fun j hj _ => ?_, rfl⟩⟩
  rcases core j hj with rfl | rfl | rfl | rfl <;> decide
/-- A tick of 20 clocks holds five steps, whatever the cluster's phase (R359). -/
theorem steps_due (s : State) (h : (s.tile 0).freq = 20) : s.stepsDue 0 = 5 := by
  have e : (0 : Nat) / 40 = 0 := rfl
  simp only [State.stepsDue, e, h]
  have := Nat.mod_lt (Config.slewPhase 0) (show 0 < 4 by decide)
  omega
/-- Steps up, down and level; an interval that is due and one that is not; two copies of a core, with their leases. -/
def onCopies : State :=
  { State.reset with
    cores := [(7, { State.reset.core 7 with copies := [(0, ⟨⟨0, 0, 0⟩, 4096, []⟩), (9, ⟨⟨0, 0, 0⟩, 2 ^ 63, []⟩)] })] }
theorem witness_PowerRefreshAndTimestamps :
    ((State.reset.cluster 0).stepsNow < State.reset.stepsDue 0 ∧
      (let s := State.reset.putCluster 0 { State.reset.cluster 0 with stepsNow := 5 }
       s.stepsDue 0 ≤ (s.cluster 0).stepsNow)) ∧
    (let s := onOrder c0 [product true 3 0]
     (s.cluster 0).slew.a < s.demand 0 ∧ 1 ∈ clusterCores 0 ∧ (s.core 1).arrayBusy = false ∧
     (let z := s.putCluster 0 { s.cluster 0 with slew := { (s.cluster 0).slew with a := 8 } }
      z.demand 0 < (z.cluster 0).slew.a) ∧ (State.reset.cluster 0).slew.a = State.reset.demand 0) ∧
    (State.reset.tick < State.reset.nextInterval ∧
      (let s := { State.reset with tick := 400 }
       s.nextInterval ≤ s.tick ∧ 2239 < 2240 ∧ 8 ≤ (s.tile 0).freq ∧ (s.tile 0).freq ≤ 22)) ∧
    (2 ≤ 2 ∧ 95 ≤ 95 ∧ 85 ≤ 85 ∧ (0 < 2 ∧ 82 < 85 ∧ 92 + 3 ≤ bandEdge 2) ∧ (84 < 85 ∧ bandEdge 1 < 83 + 3)) ∧
    (let s (n : Nat) : State := { State.reset with tick := n, calendar := [(0, [⟨0, 1000, 5000⟩])] }
     ((s 1000).windowEnd 0).isSome = true ∧ (s 999).windowEnd 0 = none) ∧
    (7 < 10000 ∧ (∀ q ∈ (onCopies.core 7).copies, q.2.rts + 1 < 2 ^ 64) ∧ (onCopies.core 7).copies ≠ [] ∧
      onCopies.tick % 200 = 0 ∧ (tfind onCopies.cores 7).isSome = true) :=
  ⟨⟨by rw [steps_due _ rfl]; decide, Nat.le_of_eq (steps_due _ rfl)⟩, by decide, by decide, by decide, ⟨rfl, rfl⟩, by decide⟩
/-- A gallery in RUN with a key for stream 3; a second gallery on tile 1; a read outstanding in a slot of store 5. -/
def gRun : Gallery := { g1 with protect := true, tdi := .run, ide := [(3, [7])] }
def readOut : Outst := ⟨7, 0, [2], [5], false, some 5, 0, none⟩
def onPackets : State :=
  { on { t0 with outst := [readOut] } c0 with gals := [(1, g1), (2, { g1 with tiles := [1] })] }
/-- Whether a staged image verifies is the part's (Config). -/
theorem witness_ResetRepairAndHostAccess :
    ((on t0 c0).gal 1 = some g1 ∧ g1.state = .opened ∧ g1.memSize - 2 + ([1, 2] : List Byte).length ≤ g1.memSize ∧
      g1.snap = none ∧ g1.hostOpen none = true ∧ ({ g1 with protect := true } : Gallery).hostOpen (some 3) = false ∧
      gRun.hostOpen (some 3) = true ∧ gRun.protect = true ∧ gRun.hostOpen (some 2) = false) ∧
    (State.reset.dev.stagedGood = true ∧ (∀ n, some 4 = some n → 3 < n) ∧
      (let d := { State.reset.dev with staged := some [1] }
       d.staged = some [1] ∧ d.stagedGood = (Config.imageVerifies [1] && decide (d.svn ≤ Config.imageSecurity [1])))) ∧
    (onPackets.gals.find? (fun p => p.2.tiles.contains 1) = some (2, { g1 with tiles := [1] }) ∧ ((1 : Nat) ≠ 0 ∧ 1 ≠ 2) ∧
      onPackets.gal 1 = some g1 ∧ g1.tiles ≠ [] ∧ onPackets.gal 3 = none ∧ onPackets.openReads 1 = [.load 0 readOut] ∧
      onPackets.thread 0 = some { t0 with outst := [readOut] } ∧ 3 / 4 = 0 ∧ onPackets.dev.good.contains 3 = true) ∧
    (State.reset.dev.good.contains 223 = true ∧ State.reset.dev.failing.contains 223 = false ∧
      State.reset.gals.any (fun p => p.2.tiles.contains (223 / 4)) = false ∧ (on t0 c0).dev.good.contains 3 = true ∧
      (on t0 c0).gals.any (fun p => p.2.tiles.contains (3 / 4)) = true) ∧
    (let s := { on t0 c0 with gals := [(1, gNamed)], mem := [((Loc.dram 1 0x107).cell, 0x80)] }
     s.gals.find? (fun p => p.2.tiles.contains (tileOf 0)) = some (1, gNamed) ∧ s.nameOf 1 0 = some 0 ∧
     s.gal 1 = some gNamed) ∧ State.reset.gals = [] :=
  ⟨⟨rfl, rfl, by decide, rfl, rfl, by decide, by decide, rfl, by decide⟩, ⟨rfl, by simp, rfl, rfl⟩,
    ⟨rfl, by decide, rfl, by decide, rfl, rfl, rfl, rfl, by decide⟩, by decide, ⟨rfl, by decide, rfl⟩, rfl⟩
/-- An atomic whose answer a router drops, with what it overwrote. -/
theorem witness_ResetRepairAndHostAccess_atomic :
    let o : Outst := ⟨7, 0, [2], [5], false, some 5, 0, some ⟨3, 0, 0⟩⟩
    let p : Past := ⟨(Loc.dram 1 0x40).cell, 8, [], ⟨3, 0, 0⟩, none⟩
    let s := { on { t0 with outst := [o] } c0 with past := [p] }
    s.thread 0 = some { t0 with outst := [o] } ∧ o.wrote = some ⟨3, 0, 0⟩ ∧ s.past.find? (fun p => p.key == ⟨3, 0, 0⟩) = some p :=
  ⟨rfl, rfl, by decide⟩
/-- A port that is up and one of 17 failed tries; a flit of 256 bytes; a gallery with communicator 0, one measured while
it is quiescing, one over a session. -/
theorem witness_FabricAndSecurityMessages :
    (let d := { (on t0 c0).dev with ports := [(31, ⟨true, 17⟩)] }
     let s := { on t0 c0 with dev := d }
     (s.dev.port 31).up = true ∧ 17 ≤ (s.dev.port 31).retries ∧ (s.dev.port 0).up = false ∧
     (List.replicate 256 (0 : Byte)).length = 256 ∧ recNat (List.replicate 256 0) 0 2 % 4096 = s.dev.number ∧
     (List.replicate 255 (0 : Byte)).length ≠ 256 ∧ ({ d with ports := [(31, ⟨true, 16⟩)] } : Module).ports ≠ []) ∧
    State.reset.gal 0 = none ∧ (on t0 c0).gal 1 = some g1 ∧ g1.state = .opened ∧ tfind g1.comms 0 = none ∧
    (tfind ({ g1 with comms := [(0, ⟨[]⟩)] } : Gallery).comms 0).isSome = true ∧
    ({ g1 with state := .quiescing } : Gallery).state ≠ .opened ∧ ({ g1 with session := true } : Gallery).session = true ∧
    g1.session = false ∧ ({ g1 with tdi := .locked } : Gallery).tdi = .locked ∧ g1.tdi ≠ .locked ∧ 3 < 4 ∧ 4 ≤ 4 ∧
    ((31 : Nat) ∈ [31] ∧ 31 < 32 ∧ (32 : Nat) ∉ [31]) :=
  ⟨⟨rfl, by decide, rfl, List.length_replicate, rfl, by rw [List.length_replicate]; decide, by decide⟩, rfl, rfl, by decide⟩
theorem witness_ManagementRequestsAreCheckedInOrder :
    (State.reset.dev.mgo = 0 ∧ ({ State.reset.dev with recovery := true } : Module).recovery = true ∧
      State.reset.dev.recovery = false ∧
      ({ State.reset.dev with mgo := 1 } : Module).mgo ≠ 0 ∧ State.reset.gal 0 = none ∧ requestBad 2 none [0, 0, 0, 0, 0] = true ∧
      (on t0 c0).gal 1 = some g1 ∧ requestBad 3 (some g1) [0, 0, 0, 0, 0] = true) ∧
    (({ g1 with state := .removing } : Gallery).state = .removing ∧
      ({ g1 with state := .quiescing } : Gallery).state = .quiescing ∧ g1.state = .opened ∧
      ({ g1 with deferred := [.request 0 []] } : Gallery).deferred = [.request 0 []]) ∧
    (State.reset.recordBad [14] = true ∧ State.reset.recordBad [13] = false ∧ (on t0 c0).recordBad [0x1_000E] = true ∧
      (0x1_000E : DWord).toNat / 2 ^ 16 % 256 = 1 ∧ 11 ≤ (14 : Nat) ∧ ¬ (14 : Nat) ≤ 13) ∧
    g1.stub.go = 0 ∧ g1.hostOpen none = true ∧ 2 < (3 : DWord).toNat ∧ ((1 : DWord).toNat ≤ 1 ∧ (5 : DWord) ≠ 0) := by decide
/-- Tile 0 is free; gallery 1 grows by tile 1; a node at 0x2000; an empty log; each request well formed. -/
theorem witness_ManagementRequestsTakeEffect :
    (State.reset.dev.mgo = 0 ∧ State.reset.dev.recovery = false ∧ State.reset.gal 0 = none ∧
      requestBad 1 none [1, 3, 0, 0, 0] = false ∧ State.reset.freeTag = some 1 ∧
      (bitmapTiles 1).all State.reset.tileFree = true ∧ connected (bitmapTiles 1) = true) ∧
    ((on t0 c0).gal 1 = some g1 ∧ g1.state = .opened ∧ requestBad 8 (some g1) [255, 0, 1, 0, 0] = false ∧ g1.protect = false ∧
      fld (0x0000_FFFF_00FF_0FFF : DWord).toNat 12 4 = 0 ∧ fld (0x0000_FFFF_00FF_0FFF : DWord).toNat 24 8 = 0 ∧
      fld (0x0000_FFFF_00FF_0FFF : DWord).toNat 48 16 = 0 ∧
      (on t0 c0).nodeAt 1 0x2000 = some (0, placedProd) ∧ 0 < placedProd.total ∧ (on t0 c0).cast (castKey 0 0) = some c0 ∧
      c0.res = .core 0 ∧ ({ g1 with protect := true } : Gallery).protect = true ∧ g1.debug = false ∧
      requestBad 10 (some g1) [0, 0, 0, 0, 0] = false ∧ (0 : DWord) ≠ 1 ∧ ({ c0 with res := .available } : Cast).coreNo = none ∧
      memberModule 5 ≠ (on t0 c0).dev.number ∧ ({ g1 with protect := true } : Gallery).covers (memberModule 5) = false) ∧
    (requestBad 3 (some g1) [2, 0, 0, 0, 0] = false ∧ (on t0 c0).newTiles 1 g1 3 [2, 0, 0, 0, 0] = some [0, 1] ∧
      (on t0 c0).newTiles 1 g1 3 [4, 0, 0, 0, 0] = none) ∧
    fld (5 : DWord).toNat 28 36 ≤ 5 ∧
    (((on t0 c0).copyNodes 1 true).newTiles 1 g1 3 [2, 0, 0, 0, 0] = some [0, 1]) := by decide
/-- Two galleries, on a tile each. -/
theorem witness_ManagementRequestsTakeEffect_tiles :
    let s := { onPackets with agenda := [.event (.boxOfficePass 9)] }
    TilesDisjoint s ∧ s.gals.length = 2 ∧ ∃ z, step s = .next z := ⟨by unfold TilesDisjoint; decide, rfl, _, rfl⟩
theorem witness_DecodingAndEncodingAgree :
    (Instr.movlHi true 31 0xFFFF_FFFF).wf = true ∧ (Instr.movlHi true 31 0xFFFF_FFFF).isWord = true ∧
    ∃ i r, decodeBytes [0x00, 0x00, 0x5C, 0xBF, 0x78, 0x56, 0x34, 0x12, 0xAA] = .ok (i, r) := ⟨rfl, rfl, _, _, rfl⟩
theorem witness_AStepRunsTheDecodedWord :
    (let s := State.reset.withFetchWord 32 0x071C_5678
     s.agenda = [.pass 0 0] ∧ ∃ x w i, (s.core 0).chorusNo 0 = some x ∧ x.phase = .running ∧ x.todo = [0] ∧
       (s.core 0).routerOnly = false ∧ x.words[(x.pc - x.hdr).toNat / 4]? = some w ∧
       decodeWord w.toNat (x.words.getD ((x.pc - x.hdr).toNat / 4 + 1) 0).toNat = .ok i) ∧
    (∃ s : State, s.agenda = [.event (.slewStep 0)] ∧ (Instr.slewStep 0).isWord = false) ∧
    (∃ s : State, s.agenda = [.ticks 5]) ∧ State.reset.agenda = [] :=
  ⟨⟨rfl, _, _, _, rfl, rfl, rfl, rfl, rfl, rfl⟩, ⟨{ State.reset with agenda := [.event (.slewStep 0)] }, rfl, rfl⟩,
    ⟨{ State.reset with agenda := [.ticks 5] }, rfl⟩, rfl⟩
theorem witness_EveryStepKeepsMemoryCanonical :
    (let s := { State.reset.withFetchWord 32 0x071C_5678 with mem := mapped }
     MemoryOk s ∧ ∃ z, step s = .next z) := ⟨mapped_wf, _, rfl⟩

end Sys2Proof.Tests
end

section
/-! SUPPORT. What leaves memory as it is: of every operation of the model that stores nothing, that the memory after it is
the memory before it (00_scope.md R5), in the order in which the model defines them. -/
namespace Sys2Proof.Machine

/-! ## Choices and loops -/

@[simp] theorem State.ite_mem {p : Prop} [Decidable p] (s z : State) :
    (if p then s else z).mem = if p then s.mem else z.mem := apply_ite _ _ _ _

theorem ite_mem_eq {p : Prop} [Decidable p] {s a b : State} (ha : a.mem = s.mem) (hb : b.mem = s.mem) :
    (if p then a else b).mem = s.mem := by
  split <;> assumption

/-- A loop whose every turn leaves memory leaves it. -/
theorem foldl_mem {α : Type} (f : State → α → State) (l : List α) (s : State)
    (hf : ∀ z a, (f z a).mem = z.mem) : (l.foldl f s).mem = s.mem := by
  induction l generalizing s with
  | nil => rfl
  | cons a r ih => exact (ih _).trans (hf s a)

/-! ## The operations -/

@[simp] theorem State.setFreq_mem (s : State) (tile freq : Nat) : (s.setFreq tile freq).mem = s.mem := rfl

@[simp] theorem State.putPts_mem (s : State) (k x : Nat) : (s.putPts k x).mem = s.mem := by
  simp [State.putPts]

@[simp] theorem State.ptsAfter_mem (s : State) (agent : Nat) (k : Key) : (s.ptsAfter agent k).mem = s.mem := by
  simp [State.ptsAfter]

@[simp] theorem State.nextKey_mem (s : State) (agent T : Nat) : (s.nextKey agent T).1.mem = s.mem := by
  simp [State.nextKey]

@[simp] theorem State.dropCopies_mem (s : State) (l : Loc) : (s.dropCopies l).mem = s.mem := by
  unfold State.dropCopies
  split <;> rfl

@[simp] theorem State.readKey_mem (s : State) (agent : Nat) (w : Key) : (s.readKey agent w).1.mem = s.mem := by
  unfold State.readKey
  dsimp only
  split <;> simp

@[simp] theorem State.noteRead_mem (s : State) (agent : Nat) (l : Loc) : (s.noteRead agent l).1.mem = s.mem := by
  unfold State.noteRead
  split <;> simp

@[simp] theorem State.homeWrite_mem (s : State) (l : Loc) (k : Key) : (s.homeWrite l k).mem = s.mem := by
  simp [State.homeWrite]

@[simp] theorem State.noteWrite_mem (s : State) (agent : Nat) (l : Loc) : (s.noteWrite agent l).1.mem = s.mem := by
  unfold State.noteWrite
  split <;> simp

@[simp] theorem State.logKinds_mem (s : State) (vault gi : Nat) (d : DWord) (l : List Nat) :
    (s.logKinds vault gi d l).mem = s.mem := by
  induction l generalizing s with
  | nil => rfl
  | cons _ _ ih => simp [State.logKinds, ih]

@[simp] theorem State.notePoison_mem (s : State) (l : Loc) : (s.notePoison l).mem = s.mem := by
  unfold State.notePoison
  repeat' split
  all_goals simp

@[simp] theorem State.keepCopy_mem (s : State) (agent : Nat) (l : Loc) : (s.keepCopy agent l).mem = s.mem := by
  unfold State.keepCopy
  split <;> simp

@[simp] theorem State.get_mem (s : State) (agent : Nat) (l : Loc) (n : Nat) : (s.get agent l n).s.mem = s.mem := by
  unfold State.get
  dsimp only
  repeat' split
  all_goals simp

@[simp] theorem State.walkReads_mem (s : State) (agent gi : Nat) (l : List Nat) :
    (s.walkReads agent gi l).mem = s.mem := by
  induction l generalizing s with
  | nil => rfl
  | cons _ _ ih => simp [State.walkReads, ih]

@[simp] theorem State.noteWalk_mem (s : State) (gi : Nat) (va : DWord) : (s.noteWalk gi va).mem = s.mem := by
  unfold State.noteWalk
  split
  · split
    · exact foldl_mem _ _ _ fun z a => z.notePoison_mem _
    · rfl
  · rfl

@[simp] theorem State.leaseWalk_mem (s : State) (agent gi : Nat) (x : Xlat) :
    (s.leaseWalk agent gi x).mem = s.mem := rfl

@[simp] theorem State.recordUnhandled_mem (s : State) (c : Cast) (tk : Nat) (causes : BitVec 23) (tepc : DWord) :
    (s.recordUnhandled c tk causes tepc).mem = s.mem := rfl

@[simp] theorem State.enterTrap_mem (s : State) (tk : Nat) (t : Thread) (c : Cast) (cs : List Cause) (tval : DWord)
    (fk acc : Nat) (pc hdr : DWord) :
    (s.enterTrap tk t c cs tval fk acc pc hdr).mem = s.mem := by
  simp [State.enterTrap]

@[simp] theorem State.trapAt_mem (s : State) (tk : Nat) (t : Thread) (c : Cast) (x : TrapInfo) :
    (s.trapAt tk t c x).mem = s.mem := by
  simp [State.trapAt]

/-- Taking an owed cause leaves memory. -/
theorem takeOwed_mem {s z : State} {tk : Nat} {t u : Thread} {c d : Cast} {k : Cause} {v : DWord}
    (h : s.takeOwed tk t c = some (k, v, z, u, d)) : z.mem = s.mem := by
  unfold State.takeOwed at h
  simp only at h
  repeat' split at h
  all_goals cases h
  all_goals rfl

@[simp] theorem State.enterAsync_mem (s : State) (tk : Nat) (t : Thread) (c0 : Cast) (cs : List Cause) :
    (s.enterAsync tk t c0 cs).mem = s.mem := by
  unfold State.enterAsync
  dsimp only
  split
  · next e => rw [State.enterTrap_mem, takeOwed_mem e]
  · exact State.enterTrap_mem _ _ _ _ _ _ _ _ _ _

@[simp] theorem State.deliver_mem (s : State) (tk : Nat) : (s.deliver tk).mem = s.mem := by
  unfold State.deliver
  split <;> simp

@[simp] theorem State.complete_mem (s : State) (tk : Nat) (t : Thread) (c : Cast) :
    (s.complete tk t c).mem = s.mem := by
  simp [State.complete]

@[simp] theorem State.finish_mem (s : State) (tk : Nat) (t : Thread) (c : Cast) (e : Bool) (n : Nat) :
    (s.finish tk t c e n).mem = s.mem := by
  simp [State.finish]

@[simp] theorem State.returnTrap_mem (s : State) (tk : Nat) (t : Thread) (c : Cast) :
    (s.returnTrap tk t c).mem = s.mem := by
  simp [State.returnTrap]

@[simp] theorem State.getHost_mem (s : State) (t : Thread) (agent : Nat) (l : Loc) (n : Nat) :
    (s.getHost t agent l n).1.s.mem = s.mem := by
  simp [State.getHost]

@[simp] theorem State.landed_mem (s : State) (t : Thread) (o : Outst) : (s.landed t o).1.mem = s.mem := by
  unfold State.landed
  dsimp only
  repeat' split
  all_goals simp

@[simp] theorem State.readBy_mem (s : State) (t : Thread) (c : Cast) (a : DWord) (l : Loc) (n : Nat) :
    (s.readBy t c a l n).1.mem = s.mem := by
  unfold State.readBy
  split <;> simp

@[simp] theorem State.putChorus_mem (s : State) (k n : Nat) (x : Chorus) : (s.putChorus k n x).mem = s.mem := rfl

@[simp] theorem State.trapMembers_mem (s : State) (c : Cast) (x : Thread → TrapInfo × DWord × DWord)
    (l : List (Nat × Thread)) :
    (s.trapMembers c x l).mem = s.mem := by
  induction l generalizing s with
  | nil => rfl
  | cons _ _ ih => simp [State.trapMembers, ih]

@[simp] theorem State.lineState_mem (s : State) (l : Loc) (n : Nat) (poisoned : Bool) :
    (s.lineState l n poisoned).mem = s.mem := rfl

@[simp] theorem State.cleanLines_mem (s : State) (cell n : Nat) : (s.cleanLines cell n).mem = s.mem := rfl

@[simp] theorem State.trapEach_mem (s : State) (c : Cast) (x : Nat → TrapInfo) (l : List (Nat × Thread)) :
    (s.trapEach c x l).mem = s.mem := by
  induction l generalizing s with
  | nil => rfl
  | cons _ _ ih => simp [State.trapEach, ih]

@[simp] theorem State.failSet_mem (s : State) (ck w : Nat) (c : Cast) (pc : DWord) (priv : Priv) (mask : Word)
    (code : Nat) :
    (s.failSet ck w c pc priv mask code).mem = s.mem := by
  simp [State.failSet]

@[simp] theorem State.release_mem (s : State) (c : Cast) (e : Bool) (l : List (Nat × Thread)) :
    (s.release c e l).mem = s.mem := by
  induction l generalizing s with
  | nil => rfl
  | cons _ _ ih => simp [State.release, ih]

@[simp] theorem State.abandon_mem (s : State) (ck q code : Nat) : (s.abandon ck q code).mem = s.mem := by
  unfold State.abandon
  split <;> simp

@[simp] theorem State.replica_mem (s : State) (t : Thread) (c : Cast) (l : Loc) (n : Nat) :
    (s.replica t c l n).1.s.mem = s.mem := by
  simp [State.replica]

@[simp] theorem State.loadBy_mem (s : State) (t : Thread) (c : Cast) (hint : Bool) (a : DWord) (l : Loc) (n : Nat) :
    (s.loadBy t c hint a l n).1.mem = s.mem := by
  unfold State.loadBy
  split <;> simp

@[simp] theorem State.leaseFirst_mem (s : State) (t : Thread) (c : Cast) (a : DWord) :
    (s.leaseFirst t c a).mem = s.mem := by
  unfold State.leaseFirst
  repeat' split
  all_goals simp

@[simp] theorem State.fenced_mem (s : State) (tk : Nat) (t : Thread) (c : Cast) (k : BitVec 3) (e : Bool) :
    (s.fenced tk t c k e).mem = s.mem := by
  simp [State.fenced]

@[simp] theorem State.completeOp_mem (s : State) (tk op : Nat) : (s.completeOp tk op).mem = s.mem := by
  unfold State.completeOp
  dsimp only
  repeat' split
  all_goals simp

@[simp] theorem State.poisonSigners_mem (s : State) (op q a : Nat) (l : List Nat) :
    (s.poisonSigners op q a l).mem = s.mem := by
  induction l generalizing s with
  | nil => rfl
  | cons ck rest ih =>
    unfold State.poisonSigners
    split
    · exact ih s
    · exact ih _

@[simp] theorem State.putOp_mem (s : State) (k : Nat) (o : MatOp) : (s.putOp k o).mem = s.mem := rfl

@[simp] theorem State.appendOp_mem (s : State) (k : Nat) (o : MatOp) : (s.appendOp k o).mem = s.mem := rfl

@[simp] theorem State.readAll_mem (c : Cast) (n : Nat) (l : List (DWord × Loc)) (s : State) (t : Thread)
    (xs : List DWord) :
    (State.readAll c n l s t xs).1.mem = s.mem := by
  induction l generalizing s t xs with
  | nil => rfl
  | cons p rest ih => exact (ih _ _ _).trans (State.readBy_mem _ _ _ _ _ _)

@[simp] theorem State.afterHold_mem (s : State) (tk : Nat) : (s.afterHold tk).mem = s.mem := by
  unfold State.afterHold
  split <;> simp

@[simp] theorem State.doneOp_mem (s : State) (tk : Nat) (o : MatOp) (vals : List DWord) :
    (s.doneOp tk o vals).mem = s.mem := by
  unfold State.doneOp
  dsimp only
  repeat' split
  all_goals simp

@[simp] theorem State.releaseSigners_mem (s : State) (c : Cast) (l : List (Nat × Thread)) :
    (s.releaseSigners c l).mem = s.mem := by
  induction l generalizing s with
  | nil => rfl
  | cons _ _ ih => simp [State.releaseSigners, ih]

@[simp] theorem State.issueFor_mem (s : State) (ck q : Nat) (key : OpKey) (o : MatOp) :
    (s.issueFor ck q key o).mem = s.mem := by
  unfold State.issueFor
  split <;> simp

@[simp] theorem State.issueAll_mem (s : State) (q : Nat) (key : OpKey) (l : List MatOp) :
    (s.issueAll q key l).mem = s.mem := by
  induction l generalizing s with
  | nil => rfl
  | cons _ _ ih => simp [State.issueAll, ih]

@[simp] theorem State.trapSigners_mem (s : State) (q : Nat) (x : TrapInfo) (l : List Nat) :
    (s.trapSigners q x l).mem = s.mem := by
  induction l generalizing s with
  | nil => rfl
  | cons ck rest ih =>
    unfold State.trapSigners
    split
    · exact ih s
    · exact (ih _).trans (State.trapEach_mem s _ _ _)

@[simp] theorem State.tryIssue_mem (s : State) (ck q : Nat) : (s.tryIssue ck q).mem = s.mem := by
  unfold State.tryIssue
  dsimp only
  repeat' split
  all_goals simp

@[simp] theorem State.startOp_mem (s : State) (k : Nat) : (s.startOp k).mem = s.mem := by
  unfold State.startOp
  split <;> simp

@[simp] theorem State.applyNext_mem (s : State) (ck q : Nat) : (s.applyNext ck q).mem = s.mem := by
  unfold State.applyNext
  dsimp only
  repeat' split
  all_goals simp

@[simp] theorem State.afterOp_mem (s0 : State) (ck q : Nat) : (s0.afterOp ck q).mem = s0.mem := by
  unfold State.afterOp
  dsimp only
  split <;> simp

@[simp] theorem State.completeCast_mem (s : State) (k : Nat) (o : MatOp) : (s.completeCast k o).mem = s.mem := by
  unfold State.completeCast
  split <;> simp

@[simp] theorem State.completeMatrix_mem (s : State) (k : Nat) : (s.completeMatrix k).mem = s.mem := by
  unfold State.completeMatrix
  split
  · rfl
  · exact ite_mem_eq ((foldl_mem _ _ _ fun z p => z.tryIssue_mem _ _).trans
      (foldl_mem _ _ _ fun z p => z.completeCast_mem _ _)) rfl

@[simp] theorem State.putSlot_mem (s : State) (k n : Nat) (x : Slot) : (s.putSlot k n x).mem = s.mem := rfl

@[simp] theorem State.fileThread_mem (s0 : State) (k ck m : Nat) (t0 : Thread) :
    (s0.fileThread k ck m t0).mem = s0.mem := by
  unfold State.fileThread
  dsimp only
  repeat' split
  all_goals simp

@[simp] theorem State.drainQueue_mem (s : State) (k ck n : Nat) : (s.drainQueue k ck n).mem = s.mem := by
  induction n generalizing s with
  | zero => rfl
  | succ n ih =>
    unfold State.drainQueue
    split
    · rfl
    · split
      · split
        · exact ih _
        · refine (ih _).trans ?_
          refine (foldl_mem _ _ _ fun z j => ?_).trans ?_ <;> rfl
      · rfl

@[simp] theorem State.noteEligible_mem (s : State) (k ck : Nat) : (s.noteEligible k ck).mem = s.mem := rfl

@[simp] theorem State.fileCast_mem (s : State) (k ck : Nat) : (s.fileCast k ck).mem = s.mem := by
  unfold State.fileCast
  rw [State.noteEligible_mem, foldl_mem _ _ _ fun z p => z.fileThread_mem _ _ _ _, State.drainQueue_mem]
  split <;> rfl

@[simp] theorem State.addChoruses_mem (s : State) (k : Nat) (x : Chorus) (inScene sub : Bool)
    (l : List (DWord × DWord × List Nat)) :
    (s.addChoruses k x inScene sub l).mem = s.mem := by
  induction l generalizing s with
  | nil => rfl
  | cons _ _ ih => simp [State.addChoruses, ih]

@[simp] theorem State.dropChorus_mem (s : State) (k n : Nat) : (s.dropChorus k n).mem = s.mem := rfl

@[simp] theorem State.splitOff_mem (s : State) (k : Nat) (x : Chorus) (held : Bool) (ms : List (Nat × Thread)) :
    (s.splitOff k x held ms).mem = s.mem := by
  simp [State.splitOff]

@[simp] theorem State.regroupOne_mem (s : State) (k n : Nat) (x : Chorus) : (s.regroupOne k n x).mem = s.mem := by
  unfold State.regroupOne
  dsimp only
  repeat' split
  all_goals simp

@[simp] theorem State.regroup_mem (s : State) (k : Nat) : (s.regroup k).mem = s.mem := by
  unfold State.regroup
  exact foldl_mem _ _ _ fun z p => z.regroupOne_mem _ _ _

@[simp] theorem State.drawThreads_mem (s : State) (k n : Nat) (x : Slot) (ms : List (Nat × Thread)) :
    (s.drawThreads k n x ms).mem = s.mem := by
  unfold State.drawThreads
  refine (foldl_mem _ _ _ fun z p => z.addChoruses_mem _ _ _ _ _).trans ((State.addChoruses_mem _ _ _ _ _ _).trans ?_)
  exact foldl_mem _ _ _ fun z p => rfl

@[simp] theorem State.timeOutSet_mem (s : State) (tk : Nat) : (s.timeOutSet tk).mem = s.mem := by
  unfold State.timeOutSet
  dsimp only
  repeat' split
  all_goals simp

@[simp] theorem State.refuseHalt_mem (s : State) (gi : Nat) (a : DWord) (gidx : Nat) :
    (s.refuseHalt gi a gidx).mem = s.mem := rfl

@[simp] theorem State.askHalt_mem (s : State) (ck : Nat) (c : Cast) : (s.askHalt ck c).mem = s.mem := by
  simp [State.askHalt]

@[simp] theorem State.enqueue_mem (s : State) (n : Nat) : (s.enqueue n).mem = s.mem := by
  unfold State.enqueue
  dsimp only
  repeat' split
  all_goals simp

@[simp] theorem State.noteRecord_mem (s : State) (t : Thread) (c : Cast) (x : DWord) :
    (s.noteRecord t c x).mem = s.mem := by
  unfold State.noteRecord
  dsimp only
  split <;> simp

@[simp] theorem State.orderRelease_mem (s : State) (n : Nat) : (s.orderRelease n).mem = s.mem := by
  unfold State.orderRelease
  exact (foldl_mem _ _ _ fun z k => z.putPts_mem _ _).trans rfl

@[simp] theorem State.putGrids_mem (s : State) (n : Nat) (p : Prod) (grids : Tab Grid) :
    (s.putGrids n p grids).mem = s.mem := by
  simp [State.putGrids]

@[simp] theorem State.gridExits_mem (s : State) (n : Nat) (p : Prod) : (s.gridExits n p).mem = s.mem := by
  unfold State.gridExits
  dsimp only
  split
  · rfl
  · exact s.putGrids_mem _ _ _

@[simp] theorem State.pollGbar_mem (s : State) (tk : Nat) : (s.pollGbar tk).mem = s.mem := by
  unfold State.pollGbar
  dsimp only
  repeat' split
  all_goals simp

@[simp] theorem State.putThreads_mem (s : State) (ck gidx : Nat) (p : Prod) (l : List Nat) :
    (s.putThreads ck gidx p l).mem = s.mem := by
  induction l generalizing s with
  | nil => rfl
  | cons _ _ ih => simp [State.putThreads, ih]

@[simp] theorem State.noteEngineWalk_mem (s : State) (o : EngOp) (sp a : Nat) :
    (s.noteEngineWalk o sp a).mem = s.mem := by
  simp [State.noteEngineWalk]

@[simp] theorem State.putEng_mem (s : State) (n : Nat) (o : EngOp) : (s.putEng n o).mem = s.mem := rfl

@[simp] theorem State.engineErr_mem (s : State) (n : Nat) (o : EngOp) (limit : Nat) (tval : DWord) :
    (s.engineErr n o limit tval).mem = s.mem := by
  simp [State.engineErr]

@[simp] theorem State.elementFault_mem (s : State) (n : Nat) (o : EngOp) (i a : Nat) (source : Bool) :
    (s.elementFault n o i a source).mem = s.mem := by
  simp [State.elementFault]

@[simp] theorem State.owe_mem (s : State) (n : Nat) (o : EngOp) (bad : Bool) (a : Nat) (k : Key) :
    (s.owe n o bad a k).mem = s.mem := by
  unfold State.owe
  repeat' split
  all_goals simp

@[simp] theorem State.contribute_mem (s : State) (o : EngOp) (f : CollBox → CollBox) :
    (s.contribute o f).mem = s.mem := by
  unfold State.contribute
  refine foldl_mem _ _ _ fun z gi => ?_
  split <;> rfl

@[simp] theorem State.engineRead_mem (s : State) (o : EngOp) (l : Loc) : (s.engineRead o l).s.mem = s.mem := by
  unfold State.engineRead
  split <;> simp

@[simp] theorem State.join_mem (s : State) (o : EngOp) : (s.join o).1.mem = s.mem := by
  unfold State.join
  split <;> simp

@[simp] theorem State.leaveBox_mem (s : State) (o : EngOp) : (s.leaveBox o).mem = s.mem := by
  unfold State.leaveBox
  dsimp only
  repeat' split
  all_goals simp

@[simp] theorem State.recordFault_mem (s : State) (prod : Nat) (x : DWord) (k : Key) :
    (s.recordFault prod x k).mem = s.mem := rfl

@[simp] theorem State.takeVersion_mem (s : State) (o : EngOp) : (s.takeVersion o).mem = s.mem := by
  simp [State.takeVersion]

@[simp] theorem State.sealed_mem (s : State) (ck : Nat) (c : Cast) (p : Prod) (img : List Byte) :
    (s.sealed ck c p img).1.mem = s.mem := by
  unfold State.sealed
  dsimp only
  repeat' split
  all_goals simp

@[simp] theorem State.resumeEngines_mem (s : State) (ck gi cluster : Nat) (b : List Byte) (l : List Nat) :
    (s.resumeEngines ck gi cluster b l).mem = s.mem := by
  induction l generalizing s with
  | nil => rfl
  | cons i rest ih =>
    unfold State.resumeEngines
    dsimp only
    split
    · exact ih s
    · refine (ih _).trans ?_
      show State.mem (ite _ _ _) = _
      split
      · exact s.contribute_mem _ _
      · rfl

@[simp] theorem State.placeCast_mem (s : State) (ck gidx k n : Nat) (p : Prod) (waited : Nat) :
    (s.placeCast ck gidx k n p waited).mem = s.mem := rfl

@[simp] theorem State.sliceEnds_mem (s : State) (ck : Nat) : (s.sliceEnds ck).mem = s.mem := by
  unfold State.sliceEnds
  split <;> simp

@[simp] theorem State.restEngines_mem (s : State) (ck : Nat) : (s.restEngines ck).mem = s.mem := rfl

@[simp] theorem State.wakeEngines_mem (s : State) (ck : Nat) : (s.wakeEngines ck).mem = s.mem := rfl

@[simp] theorem State.restThreads_mem (s : State) (ck : Nat) (self : Option Nat) (e : Bool) :
    (s.restThreads ck self e).mem = s.mem := rfl

@[simp] theorem State.restCast_mem (s : State) (ck k : Nat) (c : Cast) (self : Option Nat) (e : Bool) :
    (s.restCast ck k c self e).mem = s.mem := rfl

@[simp] theorem State.goOn_mem (s : State) (ck : Nat) (c : Cast) (newSlice : Bool) :
    (s.goOn ck c newSlice).mem = s.mem := rfl

@[simp] theorem State.imageOf_mem (s : State) (ck k : Nat) (c : Cast) (p : Prod) (flags : Nat) (run : Nat → Nat) :
    (s.imageOf ck k c p flags run).1.mem = s.mem := by
  simp [State.imageOf]

@[simp] theorem State.queueAvailable_mem (s : State) (n : Nat) : (s.queueAvailable n).mem = s.mem := by
  unfold State.queueAvailable
  split
  · rfl
  · split
    · rfl
    · refine foldl_mem _ _ _ fun z i => ?_
      dsimp only
      split
      · rfl
      · split <;> rfl

@[simp] theorem State.logImage_mem (s : State) (p : Prod) (c : Cast) : (s.logImage p c).mem = s.mem := rfl

@[simp] theorem State.restAll_mem (s : State) (l : List (Nat × Nat × Cast)) : (s.restAll l).1.mem = s.mem := by
  induction l generalizing s with
  | nil => rfl
  | cons p rest ih => exact (ih _).trans (s.restCast_mem _ _ _ _ _)

@[simp] theorem State.retireRegions_mem (s : State) (tiles : List Nat) : (s.retireRegions tiles).mem = s.mem := by
  unfold State.retireRegions
  exact foldl_mem _ _ _ fun z r => rfl

@[simp] theorem State.copyNodes_mem (s : State) (gi : Nat) (stop : Bool) : (s.copyNodes gi stop).mem = s.mem := rfl

@[simp] theorem State.shiftBinds_mem (s : State) (gi pos : Nat) : (s.shiftBinds gi pos).mem = s.mem := rfl

@[simp] theorem State.dropQueues_mem (s : State) (gi : Nat) (lost : Nat → Bool) :
    (s.dropQueues gi lost).mem = s.mem := by
  unfold State.dropQueues
  split
  · rfl
  · refine (foldl_mem _ _ _ fun z p => ?_).trans rfl
    split <;> rfl

@[simp] theorem State.raiseStamps_mem (s : State) (gi : Nat) (g : Gallery) : (s.raiseStamps gi g).mem = s.mem := by
  unfold State.raiseStamps
  exact (foldl_mem _ _ _ fun z k => z.putPts_mem _ _).trans rfl

@[simp] theorem State.resumeKept_mem (s : State) (gi : Nat) : (s.resumeKept gi).mem = s.mem := by
  unfold State.resumeKept
  refine foldl_mem _ _ _ fun z p => ?_
  split
  · dsimp only
    split
    · exact (State.haltCast_mem _ _ _).trans (z.goOn_mem _ _ _)
    · exact z.goOn_mem _ _ _
  · rfl

@[simp] theorem State.answer_mem (s : State) (st : Nat) : (s.answer st).mem = s.mem := rfl

@[simp] theorem State.dropWrite_mem (s : State) (tile : Nat) : (s.dropWrite tile).mem = s.mem := rfl

@[simp] theorem State.sendKey_mem (s : State) (agent target : Nat) : (s.sendKey agent target).mem = s.mem := by
  simp [State.sendKey]

@[simp] theorem State.freeze_mem (s : State) (agent gi : Nat) (g : Gallery) :
    (s.freeze agent gi g).mem = s.mem := by
  simp [State.freeze]

@[simp] theorem State.endSnap_mem (s : State) (gi : Nat) (n : Snap) (st : Nat) :
    (s.endSnap gi n st).mem = s.mem := by
  simp [State.endSnap]

@[simp] theorem State.retryStore_mem (s : State) (tk : Nat) : (s.retryStore tk).mem = s.mem := by
  unfold State.retryStore
  split <;> simp

@[simp] theorem State.putPort_mem (s : State) (n : Nat) (p : Port) : (s.putPort n p).mem = s.mem := rfl

@[simp] theorem State.portDown_mem (s : State) (port : Nat) : (s.portDown port).mem = s.mem := by
  simp [State.portDown]

@[simp] theorem State.dropFlit_mem (s : State) (port reason tag comm : Nat) :
    (s.dropFlit port reason tag comm).mem = s.mem := rfl

@[simp] theorem State.deliverFlit_mem (s : State) (gi : Nat) (g : Gallery) (flit payload : List Byte) :
    (s.deliverFlit gi g flit payload).mem = s.mem := by
  simp [State.deliverFlit]

@[simp] theorem State.measure_mem (s : State) (gi : Nat) (nonce : List Byte) :
    (s.measure gi nonce).mem = s.mem := by
  unfold State.measure
  split <;> rfl

@[simp] theorem State.defer_mem (s : State) (gi : Nat) (i : Deferred) : (s.defer gi i).mem = s.mem := rfl

@[simp] theorem State.setWindow_mem (s : State) (key : Nat) (b : Bool) : (s.setWindow key b).mem = s.mem := by
  simp [State.setWindow]

@[simp] theorem State.changeBand_mem (s : State) (key band : Nat) : (s.changeBand key band).mem = s.mem := by
  simp [State.changeBand]

@[simp] theorem State.slewed_mem (s : State) (cluster : Nat) : (s.slewed cluster).mem = s.mem := by
  unfold State.slewed
  exact (foldl_mem _ _ _ fun z k => State.putCore_mem z _ _).trans rfl

@[simp] theorem State.ptsPassed_mem (s : State) (core : Nat) : (s.ptsPassed core).mem = s.mem := by
  simp [State.ptsPassed]

@[simp] theorem State.vaultBand_mem (s : State) (new : Nat → Nat) (cluster : Nat) :
    (s.vaultBand new cluster).mem = s.mem := by
  unfold State.vaultBand
  dsimp only
  split <;> simp

@[simp] theorem State.weightBand_mem (s : State) (new : Nat → Nat) (tile : Nat) :
    (s.weightBand new tile).mem = s.mem := by
  simp [State.weightBand]

@[simp] theorem State.slower_mem (s : State) (tile : Nat) : (s.slower tile).mem = s.mem := rfl

@[simp] theorem State.heat_mem (s : State) (new : Nat → Nat) (tile : Nat) : (s.heat new tile).mem = s.mem := by
  simp [State.heat]

@[simp] theorem State.clusterInterval_mem (s : State) (new : Nat → Nat) (cluster : Nat) :
    (s.clusterInterval new cluster).mem = s.mem := rfl

@[simp] theorem State.powerDown_mem (s : State) (new : Nat → Nat) : (s.powerDown new).mem = s.mem := by
  unfold State.powerDown
  split <;> rfl

@[simp] theorem State.faster_mem (s : State) (tile : Nat) : (s.faster tile).mem = s.mem := by
  simp [State.faster]

@[simp] theorem State.interval_mem (s : State) (temps : List Nat) : (s.interval temps).mem = s.mem := by
  have sweeps (new : Nat → Nat) (cs ts : List Nat) : (ts.foldl (fun (z : State) t => z.heat new t)
      (ts.foldl (fun (z : State) t => z.weightBand new t)
        (cs.foldl (fun (z : State) c => z.vaultBand new c) s))).mem = s.mem :=
    (foldl_mem _ _ _ fun z t => z.heat_mem _ _).trans ((foldl_mem _ _ _ fun z t => z.weightBand_mem _ _).trans
      (foldl_mem _ _ _ fun z c => z.vaultBand_mem _ _))
  have rise (z : State) (ts : List Nat) : (ts.foldl (fun (z : State) t => z.faster t) z).mem = z.mem :=
    foldl_mem _ _ _ State.faster_mem
  have close (z : State) (new : Nat → Nat) (cs : List Nat) :
      (cs.foldl (fun (z : State) c => z.clusterInterval new c) z).mem = z.mem :=
    foldl_mem _ _ _ fun z c => z.clusterInterval_mem _ _
  simp only [State.interval, close, State.ite_mem, State.powerDown_mem, rise, sweeps, ite_self]

@[simp] theorem State.serveCommunicator_mem (s : State) (gi : Nat) (g : Gallery) (args : List DWord) :
    (s.serveCommunicator gi g args).mem = s.mem := by
  simp [State.serveCommunicator]

@[simp] theorem State.serveHalt_mem (s : State) (gi : Nat) (g : Gallery) (args : List DWord) :
    (s.serveHalt gi g args).mem = s.mem := by
  unfold State.serveHalt
  dsimp only
  repeat' split
  all_goals simp

@[simp] theorem State.serveStage_mem (s : State) (args : List DWord) : (s.serveStage args).mem = s.mem := rfl

@[simp] theorem State.stubDone_mem (s : State) (gi : Nat) (result cause status : DWord) :
    (s.stubDone gi result cause status).mem = s.mem := rfl

@[simp] theorem State.rdvExits_mem (s : State) (ck : Nat) : (s.rdvExits ck).mem = s.mem := by
  unfold State.rdvExits
  refine foldl_mem _ _ _ fun z p => ?_
  split
  · split
    · dsimp only
      split
      · exact z.failSet_mem _ _ _ _ _ _ _
      · rfl
    · rfl
  · rfl

@[simp] theorem State.qExits_mem (s : State) (ck : Nat) : (s.qExits ck).mem = s.mem := by
  unfold State.qExits
  refine foldl_mem _ _ _ fun z q => ?_
  split
  · rfl
  · split
    · rfl
    · split
      · split
        · rfl
        · exact z.tryIssue_mem _ _
      · rfl

@[simp] theorem State.dropEngines_mem (s : State) : (s.dropEngines).mem = s.mem := by
  unfold State.dropEngines
  exact foldl_mem _ _ _ fun z p => State.recordFault_mem _ _ _ _

@[simp] theorem State.dropDiverges_mem (s : State) (ck : Nat) : (s.dropDiverges ck).mem = s.mem := by
  unfold State.dropDiverges
  split <;> simp

@[simp] theorem State.deliverCast_mem (s : State) (ck : Nat) : (s.deliverCast ck).mem = s.mem := by
  unfold State.deliverCast
  refine foldl_mem _ _ _ fun z p => ?_
  split
  · exact z.deliver_mem _
  · rfl

theorem State.slewSteps_succ (s : State) (cluster n : Nat) :
    s.slewSteps cluster (n + 1) = (s.slewed cluster).slewSteps cluster n := by
  delta State.slewSteps
  rfl

@[simp] theorem State.slewSteps_mem (s : State) (cluster n : Nat) : (s.slewSteps cluster n).mem = s.mem := by
  induction n generalizing s with
  | zero => rfl
  | succ n ih => rw [State.slewSteps_succ, ih, State.slewed_mem]

@[simp] theorem State.slewTick_mem (s : State) : (s.slewTick).mem = s.mem := by
  unfold State.slewTick
  refine foldl_mem _ _ _ ?_
  intro z c
  dsimp only
  rw [State.putCluster_mem, State.slewSteps_mem]

@[simp] theorem State.advanced_mem (s : State) : (s.advanced).mem = s.mem := rfl

@[simp] theorem State.leasesPassed_mem (s : State) : (s.leasesPassed).mem = s.mem := by
  unfold State.leasesPassed
  split
  · exact foldl_mem _ _ _ State.ptsPassed_mem
  · rfl

end Sys2Proof.Machine
end

section
/-! SUPPORT. What stores, and keeps memory in its one canonical form (00_scope.md R5; log 5): every operation of the model that
writes memory, every part of an instruction, and every word and event, in the order in which the model defines them. -/
namespace Sys2Proof.Machine

/-! ## Answers that carry a state -/

/-- Every state that a part of an instruction hands on, which π takes from what it answers, or leaves to a trap, has its memory
in canonical form. -/
def Res.Wf {α : Type} (π : α → State) : Res α → Prop
  | .ok a => Memory.wf (π a).mem = true
  | .late s _ _ => Memory.wf s.mem = true
  | _ => True

/-- The state that an instruction goes on with, where it does, has its memory in canonical form. -/
def OutWf : Out → Prop
  | .next s => Memory.wf s.mem = true
  | _ => True

section
variable {α β : Type} {π : α → State} {ρ : β → State} {s : State} {t : Thread}

@[simp] theorem Res.wf_ok (a : α) : (Res.ok a).Wf π ↔ Memory.wf (π a).mem = true := Iff.rfl
@[simp] theorem Res.wf_trap (x : TrapInfo) : (Res.trap x : Res α).Wf π := trivial
@[simp] theorem Res.wf_late (x : TrapInfo) : (Res.late s t x : Res α).Wf π ↔ Memory.wf s.mem = true := Iff.rfl
@[simp] theorem Res.wf_wait : (Res.wait : Res α).Wf π := trivial
@[simp] theorem Res.wf_hold (x : Held) : (Res.hold x : Res α).Wf π := trivial
@[simp] theorem Res.wf_fault (x : Fault) : (Res.fault x : Res α).Wf π := trivial
@[simp] theorem outWf_next : OutWf (.next s) ↔ Memory.wf s.mem = true := Iff.rfl
@[simp] theorem outWf_fault (x : Fault) : OutWf (.fault x) := trivial
@[simp] theorem outWf_refused (x : Refusal) : OutWf (.refused x) := trivial

theorem Res.Wf.bind {r : Res α} {f : α → Res β} (hr : r.Wf π) (hf : ∀ a, Memory.wf (π a).mem = true → (f a).Wf ρ) :
    (r.bind f).Wf ρ := by
  cases r with
  | ok a => exact hf a hr
  | late => exact hr
  | _ => trivial

theorem Res.Wf.after {r : Res α} (hr : r.Wf π) (h : Memory.wf s.mem = true) : (r.after s t).Wf π := by
  cases r with
  | trap => exact h
  | _ => exact hr

theorem Res.Wf.of_ok {r : Res α} {a : α} (hr : r.Wf π) (e : r = .ok a) : Memory.wf (π a).mem = true := by
  subst e
  exact hr

theorem Res.wf_ite {p : Prop} [Decidable p] {a b : Res α} (ha : a.Wf π) (hb : b.Wf π) : (if p then a else b).Wf π := by
  split <;> assumption

theorem outWf_ite {p : Prop} [Decidable p] {a b : Out} (ha : OutWf a) (hb : OutWf b) : OutWf (if p then a else b) := by
  split <;> assumption

end

/-- A loop whose every turn keeps the canonical form keeps it. -/
theorem wf_foldl {α : Type} (f : State → α → State) (l : List α) (s : State) (h : Memory.wf s.mem = true)
    (hf : ∀ z a, Memory.wf z.mem = true → Memory.wf (f z a).mem = true) : Memory.wf (l.foldl f s).mem = true := by
  induction l generalizing s with
  | nil => exact h
  | cons a r ih => exact ih _ (hf s a h)

end Sys2Proof.Machine
end

section
/-! SUPPORT. Memory stays canonical: the parts of words, from stores to rendezvous, frames and choruses. -/
namespace Sys2Proof.Machine

/-! ### Places, keys and stores -/

section
variable {s : State} {t : Thread} {c : Cast} {tk ck agent gi n x : Nat} {l : Loc} {sp : Space} {a : DWord} {k : Acc}

@[simp] theorem wf_put (bs : List Byte) (h : Memory.wf s.mem = true) : Memory.wf (s.put agent l bs).1.mem = true := by
  rw [put_mem]
  exact wf_setBytes _ _ _ h

@[simp] theorem wf_writeBytes (bs : List Byte) (key : Key) (host : Option Nat) (h : Memory.wf s.mem = true) :
    Memory.wf (s.writeBytes l bs key host).mem = true := wf_setBytes _ _ _ h

@[simp] theorem wf_putAll (ws : List (Loc × List Byte)) (h : Memory.wf s.mem = true) :
    Memory.wf (s.putAll agent ws).1.mem = true := by
  unfold State.putAll
  refine wf_foldl _ _ _ (by simpa using h) fun z w hz => ?_
  exact wf_writeBytes _ _ _ (by simpa using hz)

theorem snapGuard_wf (h : Memory.wf s.mem = true) : (s.snapGuard l).Wf id := by
  rcases snapGuard_answers s l with ⟨z, e⟩ | e
  · rw [e, Res.wf_ok, id, (snapGuard_keeps e).2]
    exact h
  · simp [e]

theorem store_wf (h : Memory.wf s.mem = true) : (s.store agent l n x).Wf Prod.fst :=
  (snapGuard_wf h).bind fun _ hz => wf_put _ hz

theorem storeBy_wf (h : Memory.wf s.mem = true) : (s.storeBy t c l n x).Wf Prod.fst :=
  (store_wf h).bind fun _ hr => hr

theorem modify_wf (f : Nat → Option Nat) (h : Memory.wf s.mem = true) : (s.modify agent l n f).Wf Prod.fst := by
  unfold State.modify
  split
  · exact store_wf (by simpa using h)
  · simpa using h

theorem modifyBy_wf (f : Nat → Option Nat) (h : Memory.wf s.mem = true) : (s.modifyBy t c a l n f).Wf Prod.fst :=
  (modify_wf f h).bind fun _ hr => hr

theorem locate_wf (h : Memory.wf s.mem = true) : (s.locate t c ck sp a n k).Wf Prod.fst := by
  rcases locate_answers s t c ck sp a n k with ⟨p, e⟩ | ⟨x, e⟩ | ⟨x, e⟩ | e
  · rw [e, Res.wf_ok]
    rcases locate_ok (z := p.1) (l := p.2) e with hz | ⟨_, _, _, _, _, _, hz⟩
    · rwa [hz]
    · rw [hz]
      exact wf_walked _ _ _ _ _ h
  · simp [e]
  · simpa [e] using h
  · simp [e]

theorem checked_wf (h : Memory.wf s.mem = true) : (s.checked t c tk sp a n k).Wf Prod.fst :=
  (locate_wf h).bind fun p hp => by split <;> simp [hp]

/-! ### The entry and the end of a word -/

@[simp] theorem charge_mem (ss : List Nat) : (s.charge t ss).1.mem = s.mem := by
  unfold State.charge
  repeat' split
  all_goals rfl

theorem settle_wf {r : Res State} (h : Memory.wf s.mem = true) (hr : r.Wf id) : OutWf (s.settle tk t c r) := by
  cases r with
  | ok z => exact hr
  | late z u y => simpa [State.settle] using hr
  | fault e => trivial
  | _ => simpa [State.settle] using h

theorem issue_wf {pre : Thread → Option TrapInfo} {regs : Thread → List Nat} {body : Thread → Cast → Res State}
    (h : Memory.wf s.mem = true) (hb : ∀ t c, (body t c).Wf id) : OutWf (issue pre regs body s) := by
  unfold issue
  split
  · split
    · simpa using h
    · split
      · simpa using h
      · exact settle_wf h (hb _ _)
  · trivial

/-- A lane word whose result carries no state. -/
theorem laneWord_wf {e : Bool} {dst src : Thread → List Nat} {f : Thread → Res Thread} (h : Memory.wf s.mem = true)
    (hf : ∀ t, (f t).Wf fun _ => s) : OutWf (laneWord e dst src f s) :=
  issue_wf h fun t c => by
    split
    · simpa using h
    · exact (hf t).bind fun u hu => by simpa using hu

theorem uniWord_wf {e : Bool} {regs src : List Nat} {f : Thread → Thread} (h : Memory.wf s.mem = true) :
    OutWf (uniWord e n regs src f s) :=
  issue_wf h fun t c => by simpa using h

/-! ### Registers and transfers -/

@[simp] theorem csrPut_mem (y : DWord) : (csrPut s tk t c n y).s.mem = s.mem := by
  unfold csrPut
  cases c.coreNo <;> simp only [apply_ite CsrRes.s, State.ite_mem, State.haltCast_mem, State.putCore_mem, ite_self]

theorem csrWord_wf {op : CsrOp} {e : Bool} {m : BitVec 12} {r : BitVec 5} (h : Memory.wf s.mem = true) :
    OutWf (csrWord op e m r s) :=
  issue_wf h fun t c => by simpa [CsrRes.state] using h

theorem csrEffect_wf {y : DWord} (h : Memory.wf s.mem = true) : OutWf (csrEffect n y s) := by
  unfold csrEffect
  split
  · simpa [CsrRes.state] using h
  · trivial

theorem softTrap_wf {cause : Cause} {e : Bool} {code : BitVec 16} (h : Memory.wf s.mem = true) :
    OutWf (softTrap cause e code s) :=
  issue_wf h fun t c => by simpa using h

theorem checkTarget_wf {register landing : Bool} (h : Memory.wf s.mem = true) :
    (s.checkTarget t c a register landing).Wf fun _ => s := by
  unfold State.checkTarget
  repeat' split
  all_goals simp [h]

theorem transfer_wf {register landing : Bool} {g : Thread → Thread} (h : Memory.wf s.mem = true) :
    (s.transfer tk t c a register landing g).Wf id :=
  (checkTarget_wf h).bind fun _ hz => by simpa using hz

theorem execJtab_wf {m b : BitVec 6} {r : BitVec 5} (h : Memory.wf s.mem = true) : OutWf (execJtab m b r s) :=
  issue_wf h fun t c => by
    refine Res.wf_ite trivial ((checked_wf h).bind fun p hp => ?_)
    have hr : Memory.wf (p.1.readBy t c (t.uni r.toNat + BitVec.ofNat 64 (4 * (t.lane b.toNat).toNat)) p.2 4).1.mem =
        true := by simpa using hp
    exact (transfer_wf hr).after hr

theorem execBra_wf {p : BitVec 4} {i : BitVec 1} {o : BitVec 19} (h : Memory.wf s.mem = true) : OutWf (execBra p i o s) :=
  issue_wf h fun t c => Res.wf_ite (transfer_wf h) (by simpa using h)

theorem execUbra_wf {r : BitVec 5} {m : BitVec 3} {o : BitVec 16} (h : Memory.wf s.mem = true) : OutWf (execUbra r m o s) :=
  issue_wf h fun t c => Res.wf_ite (transfer_wf (by simpa using h)) (by simpa using h)

/-! ### Scenes -/

@[simp] theorem wf_markFetched {priv : Priv} (h : Memory.wf s.mem = true) : Memory.wf (s.markFetched c priv a).mem = true := by
  unfold State.markFetched
  split
  · exact h
  · split
    · exact wf_walked _ _ _ _ _ h
    · exact h

@[simp] theorem wf_markScene {priv : Priv} (h : Memory.wf s.mem = true) : Memory.wf (s.markScene c priv a n).mem = true := by
  unfold State.markScene
  dsimp only
  split <;> simp [h]

theorem sceneFetched_wf {m : Nat} {y : Chorus} (h : Memory.wf s.mem = true) : OutWf (s.sceneFetched m n y c) := by
  unfold State.sceneFetched
  dsimp only
  repeat' split
  all_goals simp [h]

theorem execScene_wf {w : BitVec 12} {p q : BitVec 4} {b : BitVec 1} (h : Memory.wf s.mem = true) :
    OutWf (execScene w p q b s) :=
  issue_wf h fun t c => by split <;> simp [h]

theorem execSceneFetch_wf {core ch : Nat} (h : Memory.wf s.mem = true) : OutWf (execSceneFetch core ch s) := by
  unfold execSceneFetch
  split
  · exact h
  · split
    · exact h
    · exact outWf_ite (sceneFetched_wf h) h

theorem execHeaderWaitMet_wf {core ch : Nat} (h : Memory.wf s.mem = true) : OutWf (execHeaderWaitMet core ch s) := by
  unfold execHeaderWaitMet
  repeat' split
  all_goals exact h

/-- The walk stays a name here: the kernel would unfold its four levels at each split. -/
theorem execTranslationWalk_wf {core : Nat} (h : Memory.wf s.mem = true) : OutWf (execTranslationWalk core a s) := by
  obtain ⟨w, hw⟩ : ∃ w, w = walk := ⟨_, rfl⟩
  unfold execTranslationWalk
  rw [← hw]
  repeat' split
  all_goals exact h

end

/-! ### Windows, convergence and tables -/

section
variable {s : State} {t : Thread} {c : Cast} {tk ck agent gi n x : Nat} {l : Loc} {sp : Space} {a desc : DWord} {e : Bool}

theorem rendezvous_wf {m : BitVec 5} {all : Bool} {regs : List Nat} {act : List (Nat × Thread) → List (Nat × Thread)}
    (h : Memory.wf s.mem = true) : OutWf (rendezvous e m all regs act s) :=
  issue_wf h fun t c => by
    dsimp only
    repeat' split
    all_goals simp [h]

theorem execConv_wf {q p r : BitVec 5} (h : Memory.wf s.mem = true) : OutWf (execConv e q p r s) :=
  issue_wf h fun t c => by
    dsimp only
    repeat' split
    all_goals simp [h]

theorem execBinit_wf {p r : BitVec 5} (h : Memory.wf s.mem = true) : OutWf (execBinit e p r s) :=
  issue_wf h fun t c => by
    refine Res.wf_ite trivial (Res.wf_ite trivial ?_)
    refine (checked_wf (by simpa using h)).bind fun q hq => ?_
    exact (modifyBy_wf _ hq).bind fun r hr => by simpa using hr

theorem barWait_wf {d : Nat} (h : Memory.wf s.mem = true) : (s.barWait tk t c d desc e n).Wf id :=
  (locate_wf h).bind fun p hp => by
    dsimp only
    split <;> simpa using hp

theorem execBar_wf {d p : BitVec 5} (h : Memory.wf s.mem = true) : OutWf (execBar e d p s) :=
  issue_wf h fun t c => by
    refine Res.wf_ite trivial ((checked_wf (by simpa using h)).bind fun q hq => ?_)
    refine Res.wf_ite (barWait_wf hq) ((modifyBy_wf _ hq).bind fun r hr => ?_)
    refine Res.wf_ite hr (Res.wf_ite (by simpa using hr) ?_)
    exact (barWait_wf hr).after hr

@[simp] theorem wf_pollBar (h : Memory.wf s.mem = true) : Memory.wf (s.pollBar tk).mem = true := by
  unfold State.pollBar
  split
  · split
    · next t c _ _ _ d desc e _ =>
      have hw : (s.barWait tk t c d desc e (fld t.pidx.toNat 0 32)).Wf id := barWait_wf h
      split
      · next he => rw [he] at hw; exact hw
      · simpa using h
      · exact h
    · exact h
  · exact h

theorem quantWord_wf {d p q : BitVec 6} {tp : Taper} {f : Option Curve → BitVec 3 → Int → Nat → Nat × Fl}
    (h : Memory.wf s.mem = true) : OutWf (quantWord e d p q tp f s) :=
  issue_wf h fun t c => by
    dsimp only
    split <;> simp [h]

theorem readDoubles_wf {xs : List DWord} (h : Memory.wf s.mem = true) :
    (State.readDoubles c tk n a s t xs).Wf Prod.fst := by
  induction n generalizing a s t xs with
  | zero => exact h
  | succ n ih => exact ((checked_wf h).after h).bind fun p hp => ih (by simpa using hp)

theorem execCtbl_wf {d p q : BitVec 6} (h : Memory.wf s.mem = true) : OutWf (execCtbl e d p q s) :=
  issue_wf h fun t c =>
    Res.wf_ite (by simpa using h) ((readDoubles_wf h).bind fun r hr => by simpa using hr)

end

/-! ### Memory words -/

section
variable {s : State} {t : Thread} {c : Cast} {tk n x : Nat} {l : Loc} {a : DWord} {e : Bool}
  {d p : BitVec 6} {r : BitVec 5} {m w b : BitVec 1}

theorem execLd_wf {z sp : BitVec 3} (h : Memory.wf s.mem = true) : OutWf (execLd e d p r m z sp s) := by
  unfold execLd
  exact issue_wf h fun t c => Res.wf_ite trivial ((checked_wf h).bind fun q hq => by simpa using hq)

theorem execSt_wf {z sp : BitVec 3} (h : Memory.wf s.mem = true) : OutWf (execSt e d p r m z sp s) := by
  unfold execSt
  exact issue_wf h fun t c => (checked_wf h).bind fun q hq => (storeBy_wf hq).bind fun y hy => by simpa using hy

theorem checkAll_wf {as : List DWord} {ls : List Loc} (h : Memory.wf s.mem = true) :
    (State.checkAll t c tk n as s ls).Wf Prod.fst := by
  induction as generalizing s ls with
  | nil => exact h
  | cons a rest ih => exact (checked_wf h).bind fun q hq => ih hq

theorem mcstStore_wf {rest : List DWord} (h : Memory.wf s.mem = true) : (s.mcstStore t c e n x l rest).Wf id :=
  (storeBy_wf h).bind fun y hy => by split <;> simpa using hy

theorem mcstNext_wf {as : List DWord} (h : Memory.wf s.mem = true) : (s.mcstNext t c e n x as).Wf id := by
  cases as with
  | nil => simpa [State.mcstNext] using h
  | cons a rest => exact (locate_wf h).bind fun q hq => mcstStore_wf hq

theorem mcstRest_wf {o : Out} (h : Memory.wf s.mem = true) (he : s.mcstRest e = some o) : OutWf o := by
  unfold State.mcstRest at he
  split at he
  · split at he
    · split at he
      · cases he
        exact h
      · cases he
        exact settle_wf h (mcstNext_wf h)
    · cases he
  · cases he

theorem execMcst_wf {k : BitVec 2} (h : Memory.wf s.mem = true) : OutWf (execMcst e d p r m w k s) := by
  unfold execMcst
  dsimp only
  split
  · next he => exact mcstRest_wf h he
  · refine issue_wf h fun t c => (checkAll_wf h).bind fun q hq => ?_
    split
    · exact mcstStore_wf (by simpa using hq)
    · simpa using hq

theorem execFence_wf {k : BitVec 3} (h : Memory.wf s.mem = true) : OutWf (execFence e k s) :=
  issue_wf h fun t c => Res.wf_ite (by simpa using h) trivial

theorem execFenceComplete_wf (h : Memory.wf s.mem = true) : OutWf (execFenceComplete tk s) := by
  unfold execFenceComplete
  repeat' split
  all_goals simpa using h

theorem execLoadComplete_wf {op : Nat} (h : Memory.wf s.mem = true) : OutWf (execLoadComplete tk op s) := by
  unfold execLoadComplete
  repeat' split
  all_goals simpa using h

theorem atomic_wf {regs : List Nat} {f : Nat → Thread → Nat → Option Nat} (h : Memory.wf s.mem = true) :
    OutWf (atomic e d p r m w b regs f s) := by
  unfold atomic
  exact issue_wf h fun t c => Res.wf_ite trivial
    ((checked_wf h).bind fun q hq => (modifyBy_wf _ hq).bind fun y hy => by simpa using hy)

end

/-! ### Frames -/

/-- Cells moved into a range whose old cells go keep the canonical form: below it, in it, above it. -/
theorem wf_copyCells (m : List Host.Cell) (a b n : Nat) (h : Memory.wf m = true) : Memory.wf (copyCells m a b n) = true := by
  simp only [Memory.wf, tcanon, Bool.and_eq_true, tsorted_iff, List.all_eq_true] at h ⊢
  obtain ⟨hs, hz⟩ := h
  constructor
  · simp only [copyCells, cellsIn, List.append_assoc]
    rw [List.pairwise_append, List.pairwise_append]
    refine ⟨hs.filter _, ⟨?_, hs.filter _, ?_⟩, ?_⟩
    · rw [List.pairwise_map]
      refine (hs.filter _).imp_of_mem fun {p q} hp hq hlt => ?_
      have h1 := (List.mem_filter.mp hp).2
      have h2 := (List.mem_filter.mp hq).2
      simp only [Bool.and_eq_true, decide_eq_true_eq] at h1 h2
      dsimp only
      omega
    · intro p hp q hq
      obtain ⟨r, hr, rfl⟩ := List.mem_map.mp hp
      have h1 := (List.mem_filter.mp hr).2
      have h2 := (List.mem_filter.mp hq).2
      simp only [Bool.and_eq_true, decide_eq_true_eq] at h1 h2
      dsimp only
      omega
    · intro p hp q hq
      have h1 := (List.mem_filter.mp hp).2
      simp only [decide_eq_true_eq] at h1
      rcases List.mem_append.mp hq with hq | hq
      · obtain ⟨r, hr, rfl⟩ := List.mem_map.mp hq
        have h2 := (List.mem_filter.mp hr).2
        simp only [Bool.and_eq_true, decide_eq_true_eq] at h2
        dsimp only
        omega
      · have h2 := (List.mem_filter.mp hq).2
        simp only [decide_eq_true_eq] at h2
        omega
  · intro p hp
    simp only [copyCells, cellsIn, List.mem_append, List.mem_map, List.mem_filter] at hp
    rcases hp with (⟨hp, _⟩ | ⟨q, ⟨hq, _⟩, rfl⟩) | ⟨hp, _⟩
    · exact hz p hp
    · exact hz q hq
    · exact hz p hp

/-- A loop over memory alone. -/
theorem wf_foldl_cells {α : Type} (f : List Host.Cell → α → List Host.Cell) (l : List α) (m : List Host.Cell)
    (h : Memory.wf m = true) (hf : ∀ m a, Memory.wf m = true → Memory.wf (f m a) = true) :
    Memory.wf (l.foldl f m) = true := by
  induction l generalizing m with
  | nil => exact h
  | cons a r ih => exact ih _ (hf m a h)

section
variable {s : State} {agent gi : Nat} {poisoned : Bool}

theorem enginePut_wf {d : Dest} {bs : List Byte} (h : Memory.wf s.mem = true) : (s.enginePut agent d bs poisoned).Wf id := by
  unfold State.enginePut
  split
  · exact h
  · refine (snapGuard_wf h).bind fun z hz => ?_
    split
    · simpa using wf_put _ hz
    · dsimp only
      split <;> exact wf_setBytes _ _ _ hz

theorem enginePieces_wf {ps : List (Dest × List Byte)} (h : Memory.wf s.mem = true) :
    (s.enginePieces agent poisoned ps).Wf id := by
  induction ps generalizing s with
  | nil => exact h
  | cons p rest ih => exact (enginePut_wf h).bind fun z hz => ih hz

theorem engineWrite_wf {ps : List (Dest × List Byte)} (h : Memory.wf s.mem = true) :
    (s.engineWrite agent poisoned ps).Wf id := by
  unfold State.engineWrite
  split
  · exact (snapGuard_wf h).bind fun z hz => wf_put _ hz
  · exact enginePieces_wf h

@[simp] theorem wf_publishPair {base bits : Nat} {k : Key} (h : Memory.wf s.mem = true) :
    Memory.wf (s.publishPair gi base bits k).mem = true := by
  unfold State.publishPair
  split
  · exact h
  · exact wf_setNum _ _ _ _ (wf_foldl_cells _ _ _ (wf_copyCells _ _ _ _ h) fun m c hm => wf_setByte _ _ _ hm)

@[simp] theorem wf_walkPages {pairs : List (Nat × Nat)} {ps : List (Nat × Xlat)} (h : Memory.wf s.mem = true) :
    Memory.wf (s.walkPages agent gi pairs ps).mem = true := by
  have hw := wf_foldl (fun (z : State) (p : Nat × Xlat) => z.walked agent gi p.2 .write) ps s h
    fun z p hz => wf_walked _ _ _ _ _ hz
  unfold State.walkPages
  dsimp only
  split
  · exact hw
  · exact wf_foldl _ _ _ (by simpa using hw) fun z p hz => by simpa using hz

@[simp] theorem wf_publishPairs {pairs : List (Nat × Nat)} (h : Memory.wf s.mem = true) :
    Memory.wf (s.publishPairs agent gi pairs).1.mem = true := by
  unfold State.publishPairs
  split
  · exact h
  · exact wf_foldl _ _ _ (by simpa using h) fun z p hz => wf_publishPair hz

end

/-! ### Matrix and accumulator words -/

section
variable {s : State} {t : Thread} {c : Cast} {tk ck agent gi n k core : Nat} {e : Bool} {g : Gallery} {o : MatOp}

theorem execVres_wf {r : BitVec 4} {p q : BitVec 5} (h : Memory.wf s.mem = true) : OutWf (execVres e r p q s) :=
  issue_wf h fun t c => by
    dsimp only
    split <;> simp [h]

theorem execVrel_wf {r : BitVec 4} (h : Memory.wf s.mem = true) : OutWf (execVrel e r s) :=
  issue_wf h fun t c => by simpa using h

theorem execTfetch_wf {r : BitVec 4} {q : BitVec 5} (h : Memory.wf s.mem = true) : OutWf (execTfetch e r q s) :=
  issue_wf h fun t c => by simpa using h

@[simp] theorem wf_linePlace {priv : Priv} {sp : Space} (h : Memory.wf s.mem = true) :
    Memory.wf (s.linePlace agent gi g priv sp n).1.mem = true := by
  unfold State.linePlace
  split
  · exact h
  · split
    · exact wf_walked _ _ _ _ _ h
    · simpa using h

@[simp] theorem wf_operandLine {priv : Priv} {key : Key} {hosts : Nat} {sp : Space} (h : Memory.wf s.mem = true) :
    Memory.wf (s.operandLine agent c g priv key hosts sp n).1.mem = true := by
  unfold State.operandLine
  dsimp only
  repeat' split
  all_goals simp [h]

@[simp] theorem wf_fetchLine {sp : Space} (h : Memory.wf s.mem = true) :
    Memory.wf (s.fetchLine o c g ck sp n).mem = true := by
  simp only [State.fetchLine, State.ite_mem, State.poisonSigners_mem, ite_self]
  rw [foldl_mem _ _ _ fun z p => z.putOp_mem _ _]
  exact wf_operandLine h

@[simp] theorem wf_fetchOperand {isA : Bool} (h : Memory.wf s.mem = true) :
    Memory.wf (s.fetchOperand k o c g isA).mem = true := by
  unfold State.fetchOperand
  split
  · exact h
  · refine wf_foldl _ _ _ h fun z line hz => ?_
    repeat' split
    all_goals simp [hz]

@[simp] theorem wf_fetchGroup (h : Memory.wf s.mem = true) : Memory.wf (s.fetchGroup k o).1.mem = true := by
  unfold State.fetchGroup
  repeat' split
  all_goals simp [h]

theorem accWord_wf {regs src dst : List Nat} {body : State → Thread → Cast → Nat → Res (State × Thread × MatOp)}
    (h : Memory.wf s.mem = true) (hb : ∀ z t c op, Memory.wf z.mem = true → (body z t c op).Wf Prod.fst) :
    OutWf (accWord e regs src dst body s) :=
  issue_wf h fun t c => Res.wf_ite trivial ((hb _ _ _ _ (by simpa using h)).bind fun p hp =>
    Res.wf_ite (by simpa using hp) (by simpa using hp))

theorem simpleAcc_wf {w : Word} {regs src dst tiles : List Nat} {vals : Thread → List DWord}
    {check : Thread → Option TrapInfo} (h : Memory.wf s.mem = true) :
    OutWf (simpleAcc e w regs src dst tiles vals check s) :=
  accWord_wf h fun _ _ _ _ hz => by
    repeat' split
    all_goals simp [hz]

theorem execAcoef_wf {m : BitVec 3} {r : BitVec 5} (h : Memory.wf s.mem = true) : OutWf (execAcoef e m r s) :=
  accWord_wf h fun _ _ _ _ hz => Res.wf_ite trivial hz

theorem locateAll_wf {acc : Acc} {as : List DWord} {ls : List Loc} (h : Memory.wf s.mem = true) :
    (State.locateAll t c tk n acc as s ls).Wf Prod.fst := by
  induction as generalizing s ls with
  | nil => exact h
  | cons a rest ih => exact (locate_wf h).bind fun q hq => ih hq

theorem execAload_wf {d : BitVec 3} {p q : BitVec 5} (h : Memory.wf s.mem = true) : OutWf (execAload e d p q s) :=
  accWord_wf h fun _ _ _ _ hz => by
    dsimp only
    generalize elementAddrs _ _ = as
    split
    · trivial
    · refine (locateAll_wf hz).bind fun r hr => ?_
      split
      · trivial
      · simpa using hr

theorem execAstore_wf {d : BitVec 3} {p q : BitVec 5} (h : Memory.wf s.mem = true) : OutWf (execAstore e d p q s) :=
  accWord_wf h fun _ _ _ _ hz => by
    dsimp only
    generalize elementAddrs _ _ = as
    split
    · trivial
    · refine (locateAll_wf hz).bind fun r hr => Res.wf_ite trivial ?_
      split
      · trivial
      · exact hr

theorem wf_storeTile {z : State} {ps : List (Dest × Nat)} (h : Memory.wf s.mem = true)
    (he : s.storeTile core n tk ps = some z) : Memory.wf z.mem = true := by
  induction ps generalizing s with
  | nil => cases he; exact h
  | cons p rest ih =>
    obtain ⟨d, x⟩ := p
    cases d with
    | plain l =>
      have hs := store_wf (agent := core) (l := l) (n := n) (x := x) h
      rw [State.storeTile] at he
      split at he
      · next hr => exact ih (by rw [hr] at hs; exact hs) he
      · cases he
    | understudy gi base bits off =>
      have hs := engineWrite_wf (agent := engineAgent (clusterOf core)) (poisoned := false)
        (ps := [(.understudy gi base bits off, leBytes n x)]) h
      rw [State.storeTile] at he
      split at he
      · next hr => exact ih (by rw [hr] at hs; exact hs) he
      · cases he
      · simp

@[simp] theorem wf_actOp (h : Memory.wf s.mem = true) : Memory.wf (s.actOp k o).mem = true := by
  unfold State.actOp
  dsimp only
  split
  · next z hz =>
    rw [State.doneOp_mem]
    split at hz
    · exact wf_storeTile (by exact h) hz
    · cases hz
      exact h
  · exact h

theorem execAccOpComplete_wf (h : Memory.wf s.mem = true) : OutWf (execAccOpComplete core s) := by
  unfold execAccOpComplete
  split <;> simp [h]

theorem signWord_wf {w : Word} {quartet : Bool} (h : Memory.wf s.mem = true) : OutWf (signWord e w quartet s) :=
  issue_wf h fun t c => by
    dsimp only
    repeat' split
    all_goals simp [h]

@[simp] theorem wf_matrixUnit (h : Memory.wf s.mem = true) : Memory.wf (s.matrixUnit k).mem = true := by
  unfold State.matrixUnit
  split
  · exact h
  · split
    · exact h
    · dsimp only
      rw [State.putOp_mem, State.putCore_mem]
      split <;> simp [h]

end

/-! ### Choruses -/

section
variable {s : State} {core tk : Nat}

theorem execSlotAged_wf {slot : Nat} (h : Memory.wf s.mem = true) : OutWf (execSlotAged core slot s) := by
  unfold execSlotAged
  repeat' split
  all_goals simp [h]

theorem execChorusDraw_wf {slot : Nat} (h : Memory.wf s.mem = true) : OutWf (execChorusDraw core slot s) := by
  unfold execChorusDraw
  split
  · exact h
  · refine outWf_ite h ?_
    rw [outWf_next, State.putSlot_mem, State.drawThreads_mem, foldl_mem _ _ _ fun z m => z.deliver_mem _]
    exact h

theorem execLaneGrant_wf {ch : Nat} (h : Memory.wf s.mem = true) : OutWf (execLaneGrant core ch s) := by
  unfold execLaneGrant
  split
  · refine outWf_ite h ?_
    rw [outWf_next, State.putChorus_mem]
    refine (congrArg Memory.wf (ite_mem_eq (s := s) rfl ?_)).trans h
    exact foldl_mem _ _ _ fun z p => rfl
  · exact h

theorem execHaltRequest_wf {ck : Nat} (h : Memory.wf s.mem = true) : OutWf (execHaltRequest ck s) := by
  unfold execHaltRequest
  repeat' split
  all_goals simp [h]

end

end Sys2Proof.Machine
end

section
/-! SUPPORT. Memory stays canonical: nodes, blocks of bytes, engines, images, stops and galleries. -/
namespace Sys2Proof.Machine

/-! ### Nodes of the graph -/

section
variable {s : State} {t : Thread} {c : Cast} {tk agent gi n : Nat} {priv : Priv} {a x y : DWord} {l : Loc} {k : Acc}
  {e : Bool} {bs : List Byte}

theorem reach_wf (h : Memory.wf s.mem = true) : (s.reach agent gi priv a n k).Wf Prod.fst := by
  unfold State.reach
  split
  · trivial
  · split
    · trivial
    · split
      · trivial
      · trivial
      · exact wf_walked _ _ _ _ _ h

theorem wf_reachHw {p : State × Loc} (h : Memory.wf s.mem = true) (he : s.reachHw gi a n k = some p) :
    Memory.wf p.1.mem = true := by
  unfold State.reachHw at he
  split at he
  · next hr =>
    cases he
    exact (reach_wf h).of_ok hr
  · cases he

@[simp] theorem wf_writeAt (h : Memory.wf s.mem = true) : Memory.wf (s.writeAt l bs).mem = true := wf_put _ h

@[simp] theorem wf_createNode {held : Bool} (h : Memory.wf s.mem = true) :
    Memory.wf (s.createNode agent gi priv a l bs held).mem = true := by
  unfold State.createNode
  dsimp only
  split
  · exact wf_put _ h
  · simpa using wf_put _ h

@[simp] theorem wf_dropPred {m : Nat} (h : Memory.wf s.mem = true) : Memory.wf (s.dropPred agent gi a l m).mem = true := by
  unfold State.dropPred
  dsimp only
  repeat' split
  all_goals simp [h]

theorem newNode_wf {held : Bool} (h : Memory.wf s.mem = true) : (s.newNode agent gi priv a held).Wf Prod.fst :=
  (reach_wf h).bind fun p hp => by
    dsimp only
    repeat' split
    all_goals simp [hp]

theorem releaseNode_wf (h : Memory.wf s.mem = true) : (s.releaseNode agent gi priv x a).Wf Prod.fst :=
  (reach_wf h).bind fun p hp => by
    dsimp only
    split <;> simp [hp]

theorem launchOp_wf (h : Memory.wf s.mem = true) : (s.launchOp agent gi priv x n).Wf Prod.fst := by
  unfold State.launchOp
  split
  · split
    · trivial
    · exact releaseNode_wf h
  · exact newNode_wf h

theorem gnodeOp_wf (h : Memory.wf s.mem = true) : (s.gnodeOp agent gi priv x n).Wf Prod.fst :=
  Res.wf_ite trivial (newNode_wf h)

theorem gdepOperand_wf (h : Memory.wf s.mem = true) : (gdepOperand x n).Wf fun _ => s := by
  unfold gdepOperand
  split
  · exact h
  · trivial

theorem gdepOp_wf {m : Nat} (h : Memory.wf s.mem = true) : (s.gdepOp agent gi priv x y n m).Wf id := by
  refine (gdepOperand_wf h).bind fun _ _ => (gdepOperand_wf h).bind fun _ _ => ?_
  refine (reach_wf h).bind fun p hp => (reach_wf hp).bind fun q hq => ?_
  have hz : Memory.wf ((q.1.notePoison p.2).notePoison q.2).mem = true := by simpa using hq
  refine Res.wf_ite trivial (Res.wf_ite trivial (Res.wf_ite (by simpa using hq) (Res.wf_ite trivial ?_)))
  exact (reach_wf hz).bind fun r hr => wf_putAll _ hr

theorem execLaunch_wf {d r : BitVec 5} (h : Memory.wf s.mem = true) : OutWf (execLaunch e d r s) :=
  issue_wf h fun t c => (launchOp_wf (by simpa using h)).bind fun p hp => by simpa using hp

theorem execGnode_wf {d r : BitVec 5} (h : Memory.wf s.mem = true) : OutWf (execGnode e d r s) :=
  issue_wf h fun t c => (gnodeOp_wf (by simpa using h)).bind fun p hp => by simpa using hp

theorem execGdep_wf {d r : BitVec 5} (h : Memory.wf s.mem = true) : OutWf (execGdep e d r s) :=
  issue_wf h fun t c => ((gdepOp_wf (by simpa using h)).after (by simpa using h)).bind fun z hz => by simpa using hz

@[simp] theorem wf_writeStatus {p : Prod} (h : Memory.wf s.mem = true) : Memory.wf (s.writeStatus p).mem = true := by
  unfold State.writeStatus
  split
  · next hr => exact wf_writeAt (wf_writeAt (wf_reachHw h hr))
  · exact h

@[simp] theorem wf_releaseSuccessors {m : Nat} {is : List Nat} (h : Memory.wf s.mem = true) :
    Memory.wf (s.releaseSuccessors gi m is).mem = true := by
  induction is generalizing s with
  | nil => exact h
  | cons i rest ih =>
    refine ih ?_
    split
    · exact h
    · next z l hr =>
      have hz : Memory.wf (z.get curatorAgent l 8).s.mem = true := by simpa using wf_reachHw h hr
      dsimp only
      split
      · exact hz
      · next hq => exact wf_dropPred (wf_reachHw hz hq)

@[simp] theorem wf_finishNode (h : Memory.wf s.mem = true) : Memory.wf (s.finishNode n).mem = true := by
  unfold State.finishNode
  split
  · exact h
  · next p _ =>
    have hs : Memory.wf (s.writeStatus p).mem = true := wf_writeStatus h
    dsimp only
    split
    · exact hs
    · next hr => exact wf_releaseSuccessors (wf_writeAt (wf_reachHw (by exact hs) hr))

theorem execGbar_wf {d r : BitVec 5} (h : Memory.wf s.mem = true) : OutWf (execGbar e d r s) :=
  issue_wf h fun t c => by
    dsimp only
    repeat' split
    all_goals simp [h]

end

/-! ### Blocks of bytes, names and the floor plan -/

section
variable {s : State} {agent gi : Nat} {priv : Priv} {a : DWord}

theorem readRange_wf {f b n : Nat} (h : Memory.wf s.mem = true) : (State.readRange gi priv agent f b n s).Wf Prod.fst := by
  induction f generalizing b n s with
  | zero => exact h
  | succ f ih =>
    refine Res.wf_ite h ((reach_wf h).bind fun p hp => ?_)
    exact (ih (by simpa using hp)).bind fun q hq => hq

theorem writeRange_wf {f b : Nat} {bs : List Byte} (h : Memory.wf s.mem = true) :
    (State.writeRange gi priv agent f b bs s).Wf id := by
  induction f generalizing b bs s with
  | zero => exact h
  | succ f ih =>
    refine Res.wf_ite h ((reach_wf h).bind fun p hp => ?_)
    exact (snapGuard_wf hp).bind fun z hz => ih (by simpa using wf_put _ hz)

theorem readBulk_wf {n : Nat} (h : Memory.wf s.mem = true) : (s.readBulk gi priv agent a n).Wf Prod.fst := readRange_wf h

theorem writeBulk_wf {bs : List Byte} (h : Memory.wf s.mem = true) : (s.writeBulk gi priv agent a bs).Wf id :=
  writeRange_wf h

@[simp] theorem wf_writeNames (h : Memory.wf s.mem = true) : Memory.wf (s.writeNames gi).mem = true := by
  unfold State.writeNames
  split
  · exact h
  · exact wf_foldl_cells _ _ _ (wf_clearCells _ _ _ h) fun m p hm => wf_setNum _ _ _ _ hm

@[simp] theorem wf_writePlan (h : Memory.wf s.mem = true) : Memory.wf (s.writePlan gi).mem = true := by
  unfold State.writePlan
  split
  · exact h
  · simp [wf_setBytes, h]

end

/-! ### Engines -/

section
variable {s : State} {t : Thread} {c : Cast} {tk gi n k : Nat} {g : Gallery} {o : EngOp} {w : Word} {priv : Priv}

theorem pageFails_wf {rs : List (Nat × Nat × Nat × Bool)} (h : Memory.wf s.mem = true) :
    (s.pageFails gi g priv rs).Wf fun _ => s := by
  induction rs with
  | nil => exact h
  | cons r rest ih =>
    refine Res.Wf.bind (π := fun _ => s) ?_ fun _ _ => ih.bind fun _ _ => h
    refine Res.wf_ite h ?_
    split
    · exact h
    · exact h
    · trivial

theorem passes_wf {x : Option (Nat × TrapInfo)} (h : Memory.wf s.mem = true) : (passes x).Wf fun _ => s := by
  cases x with
  | none => exact h
  | some p => trivial

theorem engineCheck_wf {b : Bool} {m : Nat} (h : Memory.wf s.mem = true) :
    (s.engineCheck gi g o n b m).Wf fun _ => s := by
  unfold State.engineCheck
  refine Res.wf_ite trivial (Res.wf_ite trivial (Res.wf_ite trivial ?_))
  split
  · trivial
  · exact (passes_wf h).bind fun _ _ => (pageFails_wf h).bind fun _ _ => passes_wf h

theorem engineLocate_wf {sp a m : Nat} {acc : Acc} (h : Memory.wf s.mem = true) :
    (s.engineLocate o sp a m acc).Wf Prod.fst := by
  unfold State.engineLocate
  split
  · trivial
  · split
    · exact Res.wf_ite trivial h
    · exact Res.wf_ite trivial h
    · split
      · trivial
      · trivial
      · exact wf_walked _ _ _ _ _ h

@[simp] theorem wf_readLine {sp a : Nat} (h : Memory.wf s.mem = true) : Memory.wf (s.readLine n o sp a).mem = true := by
  unfold State.readLine
  dsimp only
  split
  · exact h
  · split
    · next hr =>
      have hz := (engineLocate_wf h).of_ok hr
      split
      · split
        · simpa using hz
        · simpa using hz
      · simpa using hz
    · simpa using h
    · exact h

@[simp] theorem wf_writeLine {sp a : Nat} (h : Memory.wf s.mem = true) : Memory.wf (s.writeLine n o sp a).mem = true := by
  unfold State.writeLine
  dsimp only
  split
  · exact h
  · split
    · exact h
    · split
      · next hr =>
        have hz := (engineLocate_wf h).of_ok hr
        split
        · next hw => simpa using (engineWrite_wf hz).of_ok hw
        · exact h
      · simpa using h
      · exact h

@[simp] theorem wf_sealedWrite {sp a : Nat} (h : Memory.wf s.mem = true) :
    Memory.wf (s.sealedWrite n o sp a).mem = true := by
  unfold State.sealedWrite
  dsimp only
  repeat' split
  all_goals simp [h]

@[simp] theorem wf_scrambleLine {key : Nat} (h : Memory.wf s.mem = true) : Memory.wf (s.scrambleLine o key).mem = true := by
  unfold State.scrambleLine
  dsimp only
  split
  · exact h
  · split
    · next z _ _ hr =>
      have hz : Memory.wf ({ z with free := z.free + 128 } : State).mem = true := (engineLocate_wf h).of_ok hr
      split
      · next hw => exact (engineWrite_wf hz).of_ok hw
      · exact h
    · exact h

@[simp] theorem wf_disagree {tval : DWord} (h : Memory.wf s.mem = true) : Memory.wf (s.disagree n o tval).mem = true := by
  unfold State.disagree
  rw [State.engineErr_mem]
  split
  · exact wf_foldl _ _ _ h fun z l hz => wf_scrambleLine hz
  · exact h

@[simp] theorem wf_engineUnit {u : Nat} (h : Memory.wf s.mem = true) : Memory.wf (s.engineUnit n u).mem = true := by
  unfold State.engineUnit
  dsimp only
  repeat' split
  all_goals simp [h]

theorem collCheck_wf (h : Memory.wf s.mem = true) : (s.collCheck o k).Wf fun _ => s := by
  unfold State.collCheck
  dsimp only
  repeat' split
  all_goals simp [h]

theorem issueEngine_wf (h : Memory.wf s.mem = true) : (s.issueEngine tk t c w).Wf id := by
  unfold State.issueEngine
  have hc (ss : List Nat) : Memory.wf (s.charge t ss).1.mem = true := by simpa using h
  refine Res.wf_ite trivial ?_
  dsimp only
  split
  · trivial
  · refine (engineCheck_wf (hc _)).bind fun _ hz => ?_
    refine Res.Wf.bind (π := fun _ => (s.charge t _).1) (Res.wf_ite (collCheck_wf hz) hz) fun o' _ => ?_
    refine Res.wf_ite trivial ?_
    simp [apply_ite Prod.fst, h]

theorem engineWord_wf {regs : List Nat} (h : Memory.wf s.mem = true) : OutWf (engineWord w regs s) :=
  issue_wf h fun _ _ => issueEngine_wf h

theorem execEngineSlotFree_wf (h : Memory.wf s.mem = true) : OutWf (execEngineSlotFree tk s) := by
  unfold execEngineSlotFree
  split
  · split
    · exact settle_wf h (issueEngine_wf h)
    · exact h
  · exact h

@[simp] theorem wf_completeEngine (h : Memory.wf s.mem = true) : Memory.wf (s.completeEngine n o).mem = true := by
  unfold State.completeEngine
  extract_lets z gone
  have hz : z.mem = s.mem := by simp [z]
  have hg : Memory.wf gone.mem = true := by
    simp only [gone]
    split <;> simp [hz, h]
  split
  · refine wf_finishNode ?_
    split <;> simp [hz, h]
  · repeat' split
    all_goals simp [hg]

theorem execEngineOpComplete_wf (h : Memory.wf s.mem = true) : OutWf (execEngineOpComplete n s) := by
  unfold execEngineOpComplete
  split
  · exact outWf_ite (wf_completeEngine h) h
  · exact h

@[simp] theorem wf_startCopy {p : Prod} {l : Loc} (h : Memory.wf s.mem = true) :
    Memory.wf (s.startCopy n p g l).mem = true := by
  unfold State.startCopy
  dsimp only
  have hp := wf_put (agent := curatorAgent) (l := l.plus 0x7E) (leBytes 1 4) h
  split
  · exact wf_finishNode (by simpa using hp)
  · simpa using hp
  · exact h

theorem execCopyNodeStart_wf (h : Memory.wf s.mem = true) : OutWf (execCopyNodeStart n s) := by
  unfold execCopyNodeStart
  split
  · exact h
  · split
    · next hr => exact outWf_ite (wf_startCopy (wf_reachHw h hr)) h
    · exact h

theorem guardPairs_wf {pairs : List (Nat × Nat)} (h : Memory.wf s.mem = true) : (s.guardPairs gi g pairs).Wf id := by
  unfold State.guardPairs
  split
  · exact h
  · exact Res.wf_ite h trivial

theorem publishBody_wf (h : Memory.wf s.mem = true) : (s.publishBody tk t c w).Wf id := by
  unfold State.publishBody
  have hc : Memory.wf (s.charge t [engA w, engB w]).1.mem = true := by simpa using h
  refine Res.wf_ite trivial ?_
  dsimp only
  split
  · trivial
  · refine Res.wf_ite trivial ?_
    split
    · trivial
    · trivial
    · split
      · trivial
      · refine Res.wf_ite trivial ((guardPairs_wf hc).bind fun z hz => ?_)
        rw [Res.wf_ok, id, State.finish_mem, State.ptsAfter_mem]
        exact wf_publishPairs (wf_walkPages (by simpa using hz))

theorem execPublish_wf {e : Bool} {p q : BitVec 5} (h : Memory.wf s.mem = true) : OutWf (execPublish e p q s) :=
  issue_wf h fun _ _ => publishBody_wf h

theorem execPublishTake_wf (h : Memory.wf s.mem = true) : OutWf (execPublishTake tk s) := by
  unfold execPublishTake
  split
  · split
    · exact settle_wf h (publishBody_wf h)
    · exact h
  · exact h

end

/-! ### Images, and casts that come and go -/

section
variable {s : State} {agent gi n k ck : Nat} {priv : Priv} {a : DWord} {c : Cast} {p : Prod} {img : List Byte} {g : Gallery}

theorem extentFails_wf {acc : Acc} {b m : Nat} (h : Memory.wf s.mem = true) :
    (s.extentFails gi priv acc b m).Wf fun _ => s := by
  unfold State.extentFails
  split
  · trivial
  · split
    · exact h
    · exact h
    · trivial

theorem putImage_wf (h : Memory.wf s.mem = true) : (s.putImage gi k a img).Wf id :=
  (writeBulk_wf (by simpa using h)).bind fun _ hz => (writeBulk_wf hz).bind fun _ hy => by simpa using hy

@[simp] theorem wf_holdImage (h : Memory.wf s.mem = true) : Memory.wf (s.holdImage ck img).mem = true := by
  simp [State.holdImage, wf_setBytes, wf_clearCells, h]

@[simp] theorem wf_restore (h : Memory.wf s.mem = true) : Memory.wf (s.restore ck k c p img).mem = true := by
  simp [State.restore, wf_setBytes, wf_clearCells, h]

theorem checkImage_wf (h : Memory.wf s.mem = true) : (s.checkImage agent gi priv a).Wf Prod.fst := by
  unfold State.checkImage
  split
  · trivial
  · refine (reach_wf h).bind fun _ _ => (readBulk_wf h).bind fun q hq => ?_
    dsimp only
    split
    · exact hq
    · split
      · exact hq
      · refine Res.wf_ite hq ((extentFails_wf hq).bind fun bad _ => ?_)
        split
        · trivial
        · refine (readBulk_wf hq).bind fun y hy => ?_
          repeat' split
          all_goals exact hy

@[simp] theorem wf_vacate (h : Memory.wf s.mem = true) : Memory.wf (s.vacate ck k).mem = true := wf_clearCells _ _ _ h

@[simp] theorem wf_endCast (h : Memory.wf s.mem = true) : Memory.wf (s.endCast ck c).mem = true := by
  unfold State.endCast
  extract_lets s0 s1 s2
  have h0 : Memory.wf s0.mem = true := by
    simp only [s0]
    split <;> simp [h]
  have h2 : Memory.wf s2.mem = true := wf_clearCells _ _ _ h0
  repeat' split
  all_goals simp [h2]

theorem execCastEnd_wf (h : Memory.wf s.mem = true) : OutWf (execCastEnd ck s) := by
  unfold execCastEnd
  repeat' split
  all_goals simp [h]

@[simp] theorem wf_startNode (h : Memory.wf s.mem = true) : Memory.wf (s.startNode n p).mem = true := by
  unfold State.startNode
  dsimp only
  split
  · exact h
  · split
    · next hr => exact wf_put _ (wf_reachHw h hr)
    · simpa using h

@[simp] theorem wf_admitFresh (h : Memory.wf s.mem = true) : Memory.wf (s.admitFresh ck k c p).mem = true := by
  simp [State.admitFresh, wf_clearCells, h]

theorem wf_readImage {x : ImageAt} {r : State × List Byte} (h : Memory.wf s.mem = true)
    (he : s.readImage ck c p x = some r) : Memory.wf r.1.mem = true := by
  unfold State.readImage at he
  dsimp only at he
  split at he
  · next z bytes _ _ hr =>
    have hz : Memory.wf z.mem = true := by
      cases x with
      | area y => exact (readBulk_wf h).of_ok hr
      | _ => cases hr; exact h
    split at he
    · cases he
    · split at he
      · cases he
        exact hz
      · split at he
        · cases he
          exact hz
        · cases he
  · cases he

@[simp] theorem wf_letIn (h : Memory.wf s.mem = true) : Memory.wf (s.letIn ck k).mem = true := by
  unfold State.letIn
  dsimp only
  split
  · exact h
  · split
    · exact h
    · next q _ =>
      have hs (x : Nat) (y : Key) : Memory.wf ((s.startNode x q).ptsAfter k y).mem = true := by simp [h]
      split
      · exact wf_admitFresh (hs _ _)
      · split
        · next hr => exact wf_restore (wf_readImage (hs _ _) hr)
        · exact hs _ _

/-- Placing casts leaves memory. -/
theorem placeAll_mem {z : State} {cl w : Nat} {cks : List (Nat × Nat)} (he : s.placeAll cl n p w cks = some z) :
    z.mem = s.mem := by
  induction cks generalizing s with
  | nil => cases he; rfl
  | cons q rest ih =>
    unfold State.placeAll at he
    split at he
    · exact ih he
    · split at he
      · cases he
      · split at he
        · cases he
        · exact (ih he).trans (s.placeCast_mem _ _ _ _ _ _)

theorem firstCluster_mem {r : Nat × State} {w : Nat} {cks : List (Nat × Nat)} {cls : List Nat}
    (he : s.firstCluster n p w cks cls = some r) : r.2.mem = s.mem := by
  induction cls with
  | nil => cases he
  | cons cl rest ih =>
    unfold State.firstCluster at he
    split at he
    · next hp => cases he; exact placeAll_mem hp
    · exact ih he

@[simp] theorem wf_admitPlaced {cks : List (Nat × Nat)} (h : Memory.wf s.mem = true) :
    Memory.wf (s.admitPlaced cks).mem = true := by
  induction cks generalizing s with
  | nil => exact h
  | cons q rest ih =>
    unfold State.admitPlaced
    split
    · refine ih ?_
      split
      · exact h
      · exact wf_letIn h
    · exact ih h

theorem wf_tryPlace {z : State} {w : Wait} {t : Nat} (h : Memory.wf s.mem = true)
    (he : s.tryPlace gi g w p t = some z) : Memory.wf z.mem = true := by
  unfold State.tryPlace at he
  dsimp only at he
  split at he
  · cases he
  · split at he
    · cases he
    · next hf =>
      cases he
      refine wf_admitPlaced ?_
      have hm := firstCluster_mem hf
      simp only at hm
      simp [hm, h]

@[simp] theorem wf_passOver {ws : List Wait} {blocked : List Nat} (h : Memory.wf s.mem = true) :
    Memory.wf (State.passOver gi ws blocked s).mem = true := by
  induction ws generalizing blocked s with
  | nil => exact h
  | cons w rest ih =>
    unfold State.passOver
    split
    · split
      · exact ih h
      · split
        · next hp =>
          split at hp
          · cases hp
          · exact ih (wf_tryPlace h hp)
        · exact ih h
    · exact ih h

theorem execBoxOfficePass_wf (h : Memory.wf s.mem = true) : OutWf (execBoxOfficePass gi s) := by
  unfold execBoxOfficePass
  repeat' split
  all_goals simp [h]

theorem execBlockerTimeout_wf (h : Memory.wf s.mem = true) : OutWf (execBlockerTimeout gi s) := by
  unfold execBlockerTimeout
  split <;> simp [h]

theorem execCoreGate_wf (h : Memory.wf s.mem = true) : OutWf (execCoreGate k s) := by
  unfold execCoreGate
  dsimp only
  split <;> simp [h]

theorem execCoreWakeComplete_wf (h : Memory.wf s.mem = true) : OutWf (execCoreWakeComplete k s) := by
  unfold execCoreWakeComplete
  dsimp only
  repeat' split
  all_goals simp [h]

end

/-! ### Stops and saves -/

section
variable {s : State} {gi n k ck : Nat} {c : Cast} {p : Prod} {g : Gallery} {cks : List Nat} {why : Stop} {e : Bool}
  {r : BitVec 5}

@[simp] theorem wf_takeOff {res : Residence} {image : Option ImageAt} (h : Memory.wf s.mem = true) :
    Memory.wf (s.takeOff ck k c res image).mem = true := by
  simp [State.takeOff, h]

@[simp] theorem wf_dropPlaced (h : Memory.wf s.mem = true) : Memory.wf (s.dropPlaced cks).mem = true := by
  unfold State.dropPlaced
  refine wf_foldl _ _ _ h fun z ck hz => ?_
  repeat' split
  all_goals simp [hz]

@[simp] theorem wf_beginStop (h : Memory.wf s.mem = true) : Memory.wf (s.beginStop cks why).mem = true := by
  unfold State.beginStop
  dsimp only
  split
  · exact wf_dropPlaced h
  · refine wf_foldl _ _ _ h fun z ck hz => ?_
    repeat' split
    all_goals simp [hz]

theorem wf_writeImages {z : State} {xs : List (Nat × Nat × (Nat → Nat))} (h : Memory.wf s.mem = true)
    (he : s.writeImages p xs = some z) : Memory.wf z.mem = true := by
  induction xs generalizing s with
  | nil => cases he; exact h
  | cons x rest ih =>
    unfold State.writeImages at he
    split at he
    · exact ih h he
    · dsimp only at he
      split at he
      · next hp => exact ih (wf_takeOff ((putImage_wf (by simpa using h)).of_ok hp)) he
      · cases he

@[simp] theorem wf_finishStop (h : Memory.wf s.mem = true) : Memory.wf (s.finishStop n p cks why).mem = true := by
  unfold State.finishStop
  dsimp only
  have hr : Memory.wf (s.restAll (s.onCores cks)).1.mem = true := by simpa using h
  split
  · split
    · next hw =>
      have hd := wf_dropPlaced (cks := cks) (wf_writeImages hr hw)
      split <;> simp [hd]
    · exact h
  · refine wf_admitPlaced (wf_foldl _ _ _ ?_ fun z x hz => ?_)
    · rw [foldl_mem _ _ _ fun z c => z.logImage_mem _ _]
      exact hr
    · repeat' split
      all_goals simp [hz]

@[simp] theorem wf_finishStops (h : Memory.wf s.mem = true) : Memory.wf s.finishStops.mem = true := by
  unfold State.finishStops
  refine wf_foldl _ _ _ h fun z x hz => ?_
  split
  · exact hz
  · refine wf_foldl _ _ _ hz fun y i hy => ?_
    dsimp only
    repeat' split
    all_goals simp [hy]

theorem execSliceDecision_wf (h : Memory.wf s.mem = true) : OutWf (execSliceDecision ck s) := by
  unfold execSliceDecision
  repeat' split
  all_goals simp [h]

@[simp] theorem wf_joinStop (h : Memory.wf s.mem = true) : Memory.wf (s.joinStop p ck).mem = true := by
  unfold State.joinStop
  split
  · exact wf_beginStop h
  · exact h

@[simp] theorem wf_trySave (h : Memory.wf s.mem = true) : Memory.wf (s.trySave ck).mem = true := by
  unfold State.trySave
  dsimp only
  split
  · exact h
  · split
    · split
      · exact h
      · split
        · split
          · exact h
          · split
            · next hp =>
              have hz := (putImage_wf (by simpa using h)).of_ok hp
              split
              · exact wf_joinStop (by simpa using hz)
              · exact wf_takeOff hz
            · exact h
        · exact h
    · exact h

@[simp] theorem wf_finishSaves (h : Memory.wf s.mem = true) : Memory.wf s.finishSaves.mem = true :=
  wf_foldl _ _ _ h fun _ _ hz => wf_trySave hz

theorem execCtxsave_wf (h : Memory.wf s.mem = true) : OutWf (execCtxsave e r s) :=
  issue_wf h fun t c => by
    have hc : Memory.wf (s.charge t [r.toNat]).1.mem = true := by simpa using h
    dsimp only
    split
    · refine Res.wf_ite trivial (Res.wf_ite trivial (Res.wf_ite trivial ((extentFails_wf hc).bind fun f _ => ?_)))
      split
      · trivial
      · exact Res.wf_ite trivial (wf_trySave (by simpa using h))
    · trivial

@[simp] theorem wf_acceptImage {raw img : List Byte} (h : Memory.wf s.mem = true) :
    Memory.wf (s.acceptImage ck c raw img).mem = true := by
  simp [State.acceptImage, h]

theorem execCtxload_wf (h : Memory.wf s.mem = true) : OutWf (execCtxload e r s) :=
  issue_wf h fun t c => by
    refine Res.wf_ite trivial ((checkImage_wf (by simpa using h)).bind fun q hq => ?_)
    dsimp only
    rw [Res.wf_ok, id, State.finish_mem]
    split <;> simp [hq]

end

/-! ### Galleries -/

section
variable {s : State} {gi n k ck : Nat} {c : Cast} {p : Prod} {g : Gallery}

theorem wf_makeSlot {target page va m level table : Nat} {r : State × Nat} (h : Memory.wf s.mem = true)
    (he : State.makeSlot gi g target page va m level table s = some r) : Memory.wf r.1.mem = true := by
  induction m generalizing level table s with
  | zero => cases he
  | succ m ih =>
    change (if g.memSize < table + 8 * (va / 2 ^ pageBits level % 1024) + 8 then none else _) = _ at he
    split at he
    · cases he
    · split at he
      · split at he
        · cases he
        · cases he
          exact h
      · split at he
        · split at he
          · cases he
          · exact ih (wf_setNum _ _ _ _ h) he
        · split at he
          · cases he
          · exact ih h he

/-- The search of a slot stays a name here: the kernel would unfold its four levels at each split. -/
@[simp] theorem wf_setMaps {ms : List (Nat × Nat × Nat)} (h : Memory.wf s.mem = true) :
    Memory.wf (s.setMaps gi g ms).mem = true := by
  obtain ⟨slot, hs⟩ : ∃ f, f = State.makeSlot := ⟨_, rfl⟩
  unfold State.setMaps
  rw [← hs]
  refine wf_foldl _ _ _ h fun z x hz => ?_
  split
  · next hf =>
    obtain ⟨va, _, hm⟩ := List.exists_of_findSome?_eq_some hf
    rw [hs] at hm
    exact wf_setNum _ _ _ _ (wf_makeSlot hz hm)
  · exact hz

@[simp] theorem wf_dropMaps {ms : List (Nat × Nat × Nat)} (h : Memory.wf s.mem = true) :
    Memory.wf (s.dropMaps gi g ms).mem = true := by
  unfold State.dropMaps
  refine wf_foldl_cells _ _ _ h fun m x hm => ?_
  split
  · exact wf_setNum _ _ _ _ hm
  · exact hm

@[simp] theorem wf_firstTables (h : Memory.wf s.mem = true) : Memory.wf (s.firstTables gi g).mem = true := by
  unfold State.firstTables
  refine wf_setMaps ?_
  dsimp only
  exact wf_setNum _ _ _ _ (wf_setNum _ _ _ _ (wf_setNum _ _ _ _ h))

@[simp] theorem wf_forget {m : Nat} (h : Memory.wf s.mem = true) : Memory.wf (s.forget m n).mem = true :=
  wf_clearCells _ _ _ h

@[simp] theorem wf_wipe (h : Memory.wf s.mem = true) : Memory.wf (s.wipe gi).mem = true := wf_forget h

@[simp] theorem wf_makeGallery {tiles : List Nat} {flags : DWord} (h : Memory.wf s.mem = true) :
    Memory.wf (s.makeGallery gi tiles flags).mem = true :=
  wf_writePlan (wf_writeNames (wf_firstTables (wf_wipe h)))

@[simp] theorem wf_dropGallery (h : Memory.wf s.mem = true) : Memory.wf (s.dropGallery gi).mem = true := by
  unfold State.dropGallery
  extract_lets mine s1 s2
  have h1 : Memory.wf s1.mem = true := by
    refine wf_foldl _ _ _ h fun z ck hz => ?_
    split <;> simp [hz]
  have h2 : Memory.wf s2.mem = true := wf_wipe (wf_foldl _ _ _ h1 fun z ck hz => wf_clearCells _ _ _ hz)
  rw [State.retireRegions_mem]
  exact h2

@[simp] theorem wf_nextEngine (h : Memory.wf s.mem = true) : Memory.wf (s.nextEngine n).mem = true := by
  unfold State.nextEngine
  repeat' split
  all_goals simp [h]

@[simp] theorem wf_runEngine (h : Memory.wf s.mem = true) : Memory.wf (s.runEngine n).mem = true := by
  unfold State.runEngine
  split
  · exact h
  · next o _ =>
    have h1 : Memory.wf ((List.range (3 * o.limit + 8)).foldl (fun (z : State) _ => z.nextEngine n) s).mem = true :=
      wf_foldl _ _ _ h fun z i hz => wf_nextEngine hz
    dsimp only
    repeat' split
    all_goals simp [h1]

@[simp] theorem wf_runEngines (h : Memory.wf s.mem = true) : Memory.wf (s.runEngines ck).mem = true :=
  wf_foldl _ _ _ (by simpa using h) fun _ _ hz => wf_runEngine hz

@[simp] theorem wf_killCast {gidx m : Nat} (h : Memory.wf s.mem = true) :
    Memory.wf (s.killCast ck gidx n m).mem = true := by
  unfold State.killCast
  extract_lets c? s1 live key s2
  have h1 : Memory.wf s1.mem = true := by
    simp only [s1, c?]
    split
    · split <;> simp [h]
    · exact h
  have h2 : Memory.wf s2.mem = true := h1
  split
  · split
    · exact h2
    · refine wf_endCast ?_
      rw [foldl_mem _ _ _ fun z x => z.recordFault_mem _ _ _, foldl_mem _ _ _ fun z x => ?_]
      · exact h2
      · split
        · exact z.recordFault_mem _ _ _
        · rfl
  · split
    · exact h2
    · exact wf_endCast (by simpa using h2)

@[simp] theorem wf_retireCompany (h : Memory.wf s.mem = true) : Memory.wf (s.retireCompany n k).mem = true := by
  unfold State.retireCompany
  split
  · exact h
  · refine wf_foldl _ _ _ ?_ fun z i hz => wf_killCast hz
    split <;> simp [h]

@[simp] theorem wf_stopAll (h : Memory.wf s.mem = true) : Memory.wf (s.stopAll gi g).mem = true :=
  wf_foldl _ _ _ h fun _ _ hz => wf_beginStop hz

@[simp] theorem wf_beginQuiesce {code : Nat} {args : List DWord} (h : Memory.wf s.mem = true) :
    Memory.wf (s.beginQuiesce gi g code args).mem = true := wf_stopAll (by simpa using h)

@[simp] theorem wf_finishRetire (h : Memory.wf s.mem = true) : Memory.wf (s.finishRetire gi g).mem = true := by
  unfold State.finishRetire
  refine wf_foldl _ _ _ h fun z x hz => ?_
  dsimp only
  repeat' split
  all_goals simp [hz]

@[simp] theorem wf_cutMemory (h : Memory.wf s.mem = true) : Memory.wf (s.cutMemory gi g).mem = true := by
  simp [State.cutMemory, h]

@[simp] theorem wf_moveOne (h : Memory.wf s.mem = true) : Memory.wf (s.moveOne gi ck k c p).mem = true := by
  unfold State.moveOne
  split
  · exact h
  · split
    · exact wf_takeOff (wf_holdImage (by simpa using h))
    · exact wf_killCast h

@[simp] theorem wf_moveKept (h : Memory.wf s.mem = true) : Memory.wf (s.moveKept gi g).mem = true := by
  unfold State.moveKept
  refine wf_foldl _ _ _ h fun z x hz => ?_
  split <;> simp [hz]

@[simp] theorem wf_takeBases {old : Gallery} (h : Memory.wf s.mem = true) :
    Memory.wf (s.takeBases gi old g).mem = true := by
  unfold State.takeBases
  have hm := wf_clearCells _ ((Loc.dram gi old.stbase.toNat).cell + old.stageSize)
    (({ g with groot := g.grootW, ntbase := g.ntbaseW, stbase := g.stbaseW, fpbase := g.fpbaseW, pend := false } :
      Gallery).stageSize - old.stageSize) (wf_dropMaps (s := s) (gi := gi) (g := old) (ms := old.tableMaps) h)
  exact wf_setMaps (wf_ite _ hm (wf_copyCells _ _ _ _ hm))

@[simp] theorem wf_reopen (h : Memory.wf s.mem = true) : Memory.wf (s.reopen gi).mem = true := by
  unfold State.reopen
  split
  · exact h
  · dsimp only
    rw [State.log_mem, State.copyNodes_mem, foldl_mem _ _ _ fun z x => z.queueAvailable_mem _]
    exact wf_admitPlaced (by simpa using h)

@[simp] theorem wf_completeQuiesce {code : Nat} {args : List DWord} (h : Memory.wf s.mem = true) :
    Memory.wf (s.completeQuiesce gi g code args).mem = true := by
  unfold State.completeQuiesce
  dsimp only
  split
  · simp [h]
  · rw [State.answer_mem]
    refine wf_reopen (wf_writePlan ?_)
    rw [State.dropQueues_mem]
    refine wf_writeNames (wf_takeBases (wf_moveKept (wf_cutMemory ?_)))
    rw [State.retireRegions_mem]
    split <;> simp [h]

theorem execRegionTestFail_wf (h : Memory.wf s.mem = true) : OutWf (execRegionTestFail n s) := by
  unfold execRegionTestFail
  repeat' split
  all_goals simp [h]

theorem execCoreComputeFail_wf (h : Memory.wf s.mem = true) : OutWf (execCoreComputeFail k s) := by
  unfold execCoreComputeFail
  dsimp only
  repeat' split
  all_goals simp [h]

/-- The bytes that a dropped write replaced are put back. -/
@[simp] theorem wf_takeBack {o : Outst} (h : Memory.wf s.mem = true) : Memory.wf (s.takeBack o).mem = true := by
  unfold State.takeBack
  split
  · exact wf_setBytes _ _ _ h
  · exact h

@[simp] theorem wf_dropRead {x : OpenRead} (h : Memory.wf s.mem = true) : Memory.wf (s.dropRead x).mem = true := by
  cases x with
  | load tk o => exact wf_takeBack h
  | _ => exact h

theorem execPacketTagDrop_wf {tag tile : Nat} (h : Memory.wf s.mem = true) : OutWf (execPacketTagDrop tag tile s) := by
  unfold execPacketTagDrop
  dsimp only
  repeat' split
  all_goals simp [h]

end

end Sys2Proof.Machine
end

section
/-! SUPPORT. Memory stays canonical: channels, the host side, requests and WAIT. -/
namespace Sys2Proof.Machine

/-! ## Channels and snapshots -/

section
variable {s : State} {gi : Nat} {g : Gallery} {n : Snap} {e : Bool} {d a b : BitVec 5}

theorem execSend_wf (h : Memory.wf s.mem = true) : OutWf (execSend e d a b s) :=
  issue_wf h fun t c => by
    dsimp only
    repeat' split
    all_goals simp [h]

theorem execRecv_wf (h : Memory.wf s.mem = true) : OutWf (execRecv e d a b s) :=
  issue_wf h fun t c => by
    dsimp only
    repeat' split
    all_goals simp [h]

theorem snapArea_wf {z : State} {priv : Priv} {x k : Nat} (h : Memory.wf z.mem = true) :
    (s.snapArea gi g priv x k).Wf fun _ => z := by
  unfold State.snapArea
  repeat' split
  all_goals simp [h]

theorem execSnap_wf (h : Memory.wf s.mem = true) : OutWf (execSnap e d a b s) :=
  issue_wf h fun t c => by
    have h0 : Memory.wf (s.charge t [a.toNat, b.toNat]).1.mem = true := by simpa using h
    refine Res.wf_ite trivial ?_
    dsimp only
    split
    · trivial
    · exact Res.wf_ite trivial ((snapArea_wf h0).bind fun _ _ =>
        Res.wf_ite (by simpa using h) (Res.wf_ite (by simpa using h) (by simpa using h)))

theorem execSnapshotStreamPassesLine_wf {line : Nat} (h : Memory.wf s.mem = true) :
    OutWf (execSnapshotStreamPassesLine gi line s) := by
  unfold execSnapshotStreamPassesLine
  repeat' split
  all_goals simp [h]

theorem streamAll_wf (h : Memory.wf s.mem = true) : (s.streamAll gi n).Wf id :=
  (((Res.Wf.bind (π := id) (r := .ok s) h fun _ hz => writeBulk_wf hz).bind fun _ hz => writeBulk_wf hz).bind
    fun _ hz => writeBulk_wf hz).bind fun _ hz => writeBulk_wf hz

@[simp] theorem wf_scrambleArea (h : Memory.wf s.mem = true) : Memory.wf (s.scrambleArea gi n).mem = true := by
  unfold State.scrambleArea
  refine wf_foldl _ _ _ h fun z i hz => ?_
  split
  · next hr => exact wf_writeAt (wf_reachHw hz hr)
  · exact hz

@[simp] theorem wf_streamSnap (h : Memory.wf s.mem = true) : Memory.wf (s.streamSnap gi n).1.mem = true := by
  unfold State.streamSnap
  extract_lets fails s0
  have h0 : Memory.wf s0.mem = true := h
  split
  · next hz =>
    split
    · exact wf_scrambleArea h0
    · exact (streamAll_wf h0).of_ok hz
  · exact wf_scrambleArea h0

theorem execSnapshotComplete_wf (h : Memory.wf s.mem = true) : OutWf (execSnapshotComplete gi s) := by
  unfold execSnapshotComplete
  repeat' split
  all_goals simp [h]

end

/-! ## What reaches the module from outside -/

section
variable {s : State} {gi : Nat}

theorem execModuleReset_wf {failed : Option Nat} {bad : List Nat} (h : Memory.wf s.mem = true) :
    OutWf (execModuleReset failed bad s) := by
  have h1 : Memory.wf (outsideCells s.mem) = true := wf_filter _ _ h
  unfold execModuleReset
  dsimp only
  rw [outWf_next]
  split
  · rw [foldl_mem _ _ _ fun z r => z.log_mem _ _ _ _ _]
    exact h1
  · exact h1

theorem hostPut_wf {ws : List (Loc × List Byte)} (h : Memory.wf s.mem = true) : (s.hostPut ws).Wf id := by
  have hg (r : Res State) (hr : r.Wf id) :
      (ws.foldl (fun (r : Res State) w => r.bind fun z => z.snapGuard w.1) r).Wf id := by
    induction ws generalizing r with
    | nil => exact hr
    | cons w rest ih => exact ih _ (hr.bind fun _ hz => snapGuard_wf hz)
  refine (hg (.ok s) h).bind fun z hz => ?_
  rw [Res.wf_ok, id, foldl_mem _ _ _ fun z w => z.lineState_mem _ _ _]
  exact wf_putAll _ hz

theorem execHostCxlMemAccess_wf {p : HostPath} {x : Nat} {w : Bool} {bs : List Byte} (h : Memory.wf s.mem = true) :
    OutWf (execHostCxlMemAccess p x w bs s) := by
  unfold execHostCxlMemAccess
  dsimp only
  split
  · exact h
  · refine outWf_ite h (outWf_ite h (outWf_ite (by split <;> simp [h]) (outWf_ite ?_ (by simpa using h))))
    split
    · next hp => exact (hostPut_wf h).of_ok hp
    · exact h

theorem execFabricBringUp_wf {ports : List Nat} {n : Nat} (h : Memory.wf s.mem = true) :
    OutWf (execFabricBringUp ports n s) := by
  unfold execFabricBringUp
  dsimp only
  rw [outWf_next, foldl_mem _ _ _ fun z p => z.putPort_mem _ _]
  exact h

theorem execFabricPortDown_wf {port : Nat} (h : Memory.wf s.mem = true) : OutWf (execFabricPortDown port s) := by
  simpa [execFabricPortDown] using h

theorem execFabricFlitReceive_wf {port : Nat} {flit : List Byte} (h : Memory.wf s.mem = true) :
    OutWf (execFabricFlitReceive port flit s) := by
  unfold execFabricFlitReceive
  dsimp only
  repeat' split
  all_goals simp [h]

theorem execSpdmGetMeasurements_wf {nonce : List Byte} (h : Memory.wf s.mem = true) :
    OutWf (execSpdmGetMeasurements gi nonce s) := by
  unfold execSpdmGetMeasurements
  repeat' split
  all_goals simp [h]

theorem execSpdmSecuredSession_wf (h : Memory.wf s.mem = true) : OutWf (execSpdmSecuredSession gi s) := h

theorem execTdispLock_wf (h : Memory.wf s.mem = true) : OutWf (execTdispLock gi s) := by
  unfold execTdispLock
  repeat' split
  all_goals simp [h]

theorem execTdispRunRequest_wf (h : Memory.wf s.mem = true) : OutWf (execTdispRunRequest gi s) := h

theorem execIdeKeyManagement_wf {stream : Nat} {key : List Byte} (h : Memory.wf s.mem = true) :
    OutWf (execIdeKeyManagement gi stream key s) := outWf_ite h h

theorem execGroupKeyDelivery_wf {grp : Nat} {key : List Byte} (h : Memory.wf s.mem = true) :
    OutWf (execGroupKeyDelivery gi grp key s) := by
  unfold execGroupKeyDelivery
  split
  · exact h
  · exact outWf_ite (by simpa using h) h

end
/-! ## Refresh, power and management requests -/

section
variable {s : State} {gi code : Nat} {g : Gallery} {args : List DWord} {tag : BitVec 8}

theorem execRfcal_wf {e : Bool} {d a : BitVec 5} (h : Memory.wf s.mem = true) : OutWf (execRfcal e d a s) :=
  issue_wf h fun t c => by
    dsimp only
    repeat' split
    all_goals simp [h]

theorem execRefreshWindowStart_wf {n : Nat} (h : Memory.wf s.mem = true) : OutWf (execRefreshWindowStart n s) :=
  outWf_ite (by simpa using h) h

theorem execRefreshWindowEnd_wf {n : Nat} (h : Memory.wf s.mem = true) : OutWf (execRefreshWindowEnd n s) :=
  outWf_ite (by simpa using h) h

theorem execSlewStep_wf {n : Nat} (h : Memory.wf s.mem = true) : OutWf (execSlewStep n s) :=
  outWf_ite (by simpa using h) h

theorem execPtsAdvance_wf {n : Nat} (h : Memory.wf s.mem = true) : OutWf (execPtsAdvance n s) := by
  simpa [execPtsAdvance] using h

theorem execPowerInterval_wf {temps : List Nat} (h : Memory.wf s.mem = true) : OutWf (execPowerInterval temps s) :=
  outWf_ite (by simpa using h) h

@[simp] theorem wf_writeObject (h : Memory.wf s.mem = true) : Memory.wf (s.writeObject gi args).mem = true := by
  unfold State.writeObject
  split
  · exact h
  · exact wf_writeAt h

@[simp] theorem wf_endQuiesce (h : Memory.wf s.mem = true) : Memory.wf (s.endQuiesce gi g code args).mem = true := by
  unfold State.endQuiesce
  split
  · rw [State.answer_mem]
    exact wf_reopen (wf_writeObject h)
  · exact wf_completeQuiesce h

@[simp] theorem wf_progress (h : Memory.wf s.mem = true) : Memory.wf (s.progress gi).mem = true := by
  unfold State.progress
  split
  · exact h
  · next g _ =>
    split
    · have h1 : Memory.wf (((s.stopAll gi g).finishStops).finishRetire gi g).mem = true :=
        wf_finishRetire (wf_finishStops (wf_stopAll h))
      dsimp only
      split
      · split
        · exact wf_endQuiesce h1
        · exact h1
      · exact h1
    · exact h

@[simp] theorem wf_quiesceFor (h : Memory.wf s.mem = true) : Memory.wf (s.quiesceFor gi g code args).mem = true := by
  unfold State.quiesceFor
  split
  · exact h
  · exact wf_progress (wf_beginQuiesce h)

/-- A create request is refused, or makes the gallery of a fresh tag. -/
theorem serveCreate_cases (s : State) (args : List DWord) : s.serveCreate args = s.answer 1 ∨
    ∃ gi, s.serveCreate args = (s.makeGallery gi (bitmapTiles (args.getD 0 0)) (args.getD 1 0)).answer 0 := by
  unfold State.serveCreate
  cases s.freeTag with
  | none => exact .inl rfl
  | some gi =>
    dsimp only
    split
    · exact .inr ⟨gi, rfl⟩
    · exact .inl rfl

@[simp] theorem wf_serveCreate (h : Memory.wf s.mem = true) : Memory.wf (s.serveCreate args).mem = true := by
  rcases serveCreate_cases s args with e | ⟨gi, e⟩
  · rw [e]
    exact h
  · rw [e, State.answer_mem]
    exact wf_makeGallery h

@[simp] theorem wf_serveRemove (h : Memory.wf s.mem = true) : Memory.wf (s.serveRemove gi).mem = true :=
  wf_dropGallery (wf_foldl _ _ _ h fun _ _ hz => wf_foldl _ _ _ hz fun _ _ hy => wf_killCast hy)

@[simp] theorem wf_serveReadBack (h : Memory.wf s.mem = true) : Memory.wf (s.serveReadBack gi g args).mem = true := by
  unfold State.serveReadBack
  split
  · exact h
  · split
    · exact wf_progress (wf_beginQuiesce h)
    · exact wf_writeObject h

@[simp] theorem wf_serveLog (h : Memory.wf s.mem = true) : Memory.wf (s.serveLog args).mem = true := wf_writeAt h

@[simp] theorem wf_serveIdentify (h : Memory.wf s.mem = true) : Memory.wf (s.serveIdentify gi args).mem = true := by
  unfold State.serveIdentify
  rw [State.answer_mem]
  exact wf_writeAt h

@[simp] theorem wf_serveGood (h : Memory.wf s.mem = true) : Memory.wf (s.serveGood code gi args).mem = true := by
  unfold State.serveGood
  repeat' split
  all_goals simp [h]

@[simp] theorem wf_serve (h : Memory.wf s.mem = true) : Memory.wf (s.serve code gi args).mem = true := by
  unfold State.serve
  split <;> simp [h]

@[simp] theorem wf_request (h : Memory.wf s.mem = true) : Memory.wf (s.request code tag args).mem = true := by
  unfold State.request
  repeat' split
  all_goals simp [h]

theorem execManagementRequestMalformed_wf {words : List DWord} (h : Memory.wf s.mem = true) :
    OutWf (execManagementRequestMalformed words s) := by
  unfold execManagementRequestMalformed
  refine outWf_ite h (outWf_ite h ?_)
  split <;> exact h

theorem stubRun_wf {op : Nat} {x y : DWord} (h : Memory.wf s.mem = true) : (s.stubRun gi op x y).Wf id := by
  unfold State.stubRun
  extract_lets r
  have hr : r.Wf Prod.fst := by
    simp only [r]
    split
    · exact launchOp_wf h
    · exact gnodeOp_wf h
    · exact (gdepOp_wf h).bind fun _ hz => hz
  clear_value r
  refine Res.wf_ite h ?_
  cases r with
  | ok p => simpa using hr
  | trap => simpa using h
  | late => simpa using hr
  | _ => trivial

theorem stubGo_wf {stream : Option Nat} {op : Nat} {x y : DWord} (h : Memory.wf s.mem = true) :
    OutWf (s.stubGo gi stream op x y) := by
  unfold State.stubGo
  split
  · exact h
  · refine outWf_ite h (outWf_ite h ?_)
    split
    · next hr => exact (stubRun_wf (s := State.putG s gi _) h).of_ok hr
    · trivial
    · exact h

theorem execStubOpMalformed_wf {p : HostPath} {op x y : DWord} (h : Memory.wf s.mem = true) :
    OutWf (execStubOpMalformed p op x y s) := outWf_ite (stubGo_wf h) h

@[simp] theorem wf_serveDeferred (h : Memory.wf s.mem = true) : Memory.wf (s.serveDeferred gi).mem = true := by
  unfold State.serveDeferred
  split
  · exact h
  · split
    · dsimp only
      split
      · exact wf_serve h
      · simpa using h
      · split
        · next hr => exact (stubRun_wf (s := State.putG s gi _) h).of_ok hr
        · exact h
    · exact h

@[simp] theorem wf_managed (h : Memory.wf s.mem = true) : Memory.wf s.managed.mem = true :=
  wf_foldl _ _ _ (wf_foldl _ _ _ (wf_finishSaves (wf_finishStops h)) fun _ _ hz => wf_progress hz)
    fun _ _ hz => wf_serveDeferred hz

end
/-! ## WAIT -/

section
variable {s : State} {t : Thread} {c : Cast} {tk n m : Nat} {w : WaitOn}

theorem condLoad_wf {sp : Space} {x off : Nat} (h : Memory.wf s.mem = true) :
    (s.condLoad tk t c sp x n off).Wf Prod.fst :=
  (locate_wf h).bind fun p hp => by simpa using hp

theorem stageOf_wf {x : Nat} (h : Memory.wf s.mem = true) : (s.stageOf t c x).Wf Prod.fst := by
  unfold State.stageOf
  split
  · trivial
  · split
    · trivial
    · exact Res.wf_ite trivial (by simpa using h)
    · exact Res.wf_ite (wf_walked _ _ _ _ _ h) trivial

theorem condition_wf {operand : Word} {x : Nat} (h : Memory.wf s.mem = true) :
    (s.condition tk t c operand n x).Wf Prod.fst := by
  unfold State.condition
  split
  · exact h
  · exact (condLoad_wf h).bind fun _ hp => hp
  · exact h
  · exact (stageOf_wf h).bind fun _ hp => hp
  · exact h
  · exact (condLoad_wf h).bind fun _ hp => hp

theorem conditions_wf {operand : Word} {xs : List Nat} {bs : List Bool} (h : Memory.wf s.mem = true) :
    (State.conditions tk c operand n xs m s t bs).Wf Prod.fst := by
  induction xs generalizing m s t bs with
  | nil => exact h
  | cons x rest ih => exact ((condition_wf h).after h).bind fun _ hp => ih hp

theorem capture_wf {xs : List Nat} (h : Memory.wf s.mem = true) :
    (State.capture tk c xs n s t m).Wf Prod.fst := by
  induction xs generalizing n m s t with
  | nil => exact h
  | cons x rest ih => exact Res.wf_ite (((condLoad_wf h).after h).bind fun _ hp => ih hp) (ih h)

theorem waitWord_wf (h : Memory.wf s.mem = true) : OutWf (waitWord w s) :=
  issue_wf h fun t c => by
    dsimp only
    split
    · trivial
    · split
      · trivial
      · exact Res.Wf.bind (π := Prod.fst) (Res.wf_ite (by simpa using h) (capture_wf (by simpa using h)))
          fun _ hp => by simpa using hp

theorem evaluate_wf (h : Memory.wf s.mem = true) : OutWf (s.evaluate tk) := by
  unfold State.evaluate
  split
  · split
    · exact settle_wf h ((conditions_wf h).bind fun _ hp =>
        Res.wf_ite (by simpa using hp) (Res.wf_ite (by simpa using hp) (by simpa using hp)))
    · exact h
  · exact h

@[simp] theorem wf_evaluated (h : Memory.wf s.mem = true) : Memory.wf (s.evaluated tk).mem = true := by
  have he := evaluate_wf (tk := tk) h
  unfold State.evaluated
  split
  · next hn => rwa [hn] at he
  · exact h

theorem execWaitTimeout_wf (h : Memory.wf s.mem = true) : OutWf (execWaitTimeout tk s) := by
  unfold execWaitTimeout
  repeat' split
  · exact evaluate_wf h
  all_goals exact h

end
end Sys2Proof.Machine
end

section
/-! SUPPORT. Memory stays canonical: every instruction, what follows at once, time, and the step. -/
namespace Sys2Proof.Machine

/-! ## Every instruction -/

section
variable {s : State}

theorem atomic2_wf {e : Bool} {d a : BitVec 6} {b : BitVec 5} {m w p : BitVec 1} {f : Nat → Nat → Nat → Nat}
    (h : Memory.wf s.mem = true) : OutWf (atomic2 e d a b m w p f s) := atomic_wf h

theorem windowWord_wf {e all : Bool} {d a : BitVec 6} {m : BitVec 5} {f : List (Nat × Nat) → (Nat → Nat) × Fl}
    (h : Memory.wf s.mem = true) : OutWf (windowWord e d a m all f s) := rendezvous_wf h

theorem shuffle_wf {e : Bool} {d a : BitVec 6} {m : BitVec 5} {extra : List Nat} {src : Nat → Thread → Nat}
    (h : Memory.wf s.mem = true) : OutWf (shuffle e d a m extra src s) := rendezvous_wf h

theorem uuu_wf {e : Bool} {d a b : BitVec 5} {f : DWord → DWord → DWord} (h : Memory.wf s.mem = true) :
    OutWf (uuu e d a b f s) := uniWord_wf h

theorem execCuratorBaseWrite_wf {csr : BitVec 12} {x : BitVec 64} (h : Memory.wf s.mem = true) :
    OutWf (execCuratorBaseWrite csr x s) := by
  unfold execCuratorBaseWrite
  split <;> simp [h]

theorem execSnapresWrite_wf {x : BitVec 64} (h : Memory.wf s.mem = true) : OutWf (execSnapresWrite x s) := by
  unfold execSnapresWrite
  split <;> simp [h]

theorem execCsrPlainWrite_wf {csr : BitVec 12} {x : BitVec 64} (h : Memory.wf s.mem = true) :
    OutWf (execCsrPlainWrite csr x s) := outWf_ite h (outWf_ite h (csrEffect_wf h))

theorem execPfetch_wf {e : Bool} {a : BitVec 6} {b : BitVec 5} {m : BitVec 1} {p : BitVec 3} (h : Memory.wf s.mem = true) :
    OutWf (execPfetch e a b m p s) :=
  issue_wf h fun t c => by simpa using h

theorem execPfx_wf {m : BitVec 4} {z : BitVec 1} {r : BitVec 3} {c : BitVec 6} {x : BitVec 1} (h : Memory.wf s.mem = true) :
    OutWf (execPfx m z r c x s) :=
  issue_wf h fun t c => by simpa using h

theorem execReform_wf (h : Memory.wf s.mem = true) : OutWf (execReform s) :=
  issue_wf h fun t c => by simpa using h

theorem execExit_wf (h : Memory.wf s.mem = true) : OutWf (execExit s) :=
  issue_wf h fun t c => by simpa using h

theorem execQread_wf {e : Bool} {d q sel : BitVec 5} (h : Memory.wf s.mem = true) :
    OutWf (execQread e d q sel s) :=
  issue_wf h fun t c => by simpa using h

theorem execCsrr_wf {e : Bool} {n : BitVec 12} {r : BitVec 5} (h : Memory.wf s.mem = true) :
    OutWf (execCsrr e n r s) :=
  issue_wf h fun t c => by simpa using h

theorem execRett_wf (h : Memory.wf s.mem = true) : OutWf (execRett s) :=
  issue_wf h fun t c => by simpa using h

theorem execRdtime_wf {e : Bool} {r : BitVec 5} (h : Memory.wf s.mem = true) : OutWf (execRdtime e r s) :=
  issue_wf h fun t c => by simpa using h

theorem execJmpi_wf {a : BitVec 6} (h : Memory.wf s.mem = true) : OutWf (execJmpi a s) :=
  issue_wf h fun _ _ => transfer_wf h

theorem execCalli_wf {d a : BitVec 6} (h : Memory.wf s.mem = true) : OutWf (execCalli d a s) :=
  issue_wf h fun _ _ => transfer_wf h

theorem execRet_wf {a : BitVec 6} (h : Memory.wf s.mem = true) : OutWf (execRet a s) :=
  issue_wf h fun _ _ => transfer_wf h

theorem execCall_wf {d : BitVec 6} {o : BitVec 18} (h : Memory.wf s.mem = true) : OutWf (execCall d o s) :=
  issue_wf h fun _ _ => transfer_wf h

theorem execUcall_wf {a : BitVec 5} {o : BitVec 16} (h : Memory.wf s.mem = true) : OutWf (execUcall a o s) :=
  issue_wf h fun _ _ => transfer_wf h

theorem execUret_wf {a : BitVec 5} (h : Memory.wf s.mem = true) : OutWf (execUret a s) :=
  issue_wf h fun _ _ => transfer_wf (by simpa using h)

theorem execCauseDelivery_wf {tk : Nat} (h : Memory.wf s.mem = true) : OutWf (execCauseDelivery tk s) := by
  simpa [execCauseDelivery] using h

theorem execRdvTimeout_wf {tk : Nat} (h : Memory.wf s.mem = true) : OutWf (execRdvTimeout tk s) := by
  simpa [execRdvTimeout] using h

theorem execMatrixOpStart_wf {core : Nat} (h : Memory.wf s.mem = true) : OutWf (execMatrixOpStart core s) := by
  simpa [execMatrixOpStart] using h

theorem execMatrixOpComplete_wf {core : Nat} (h : Memory.wf s.mem = true) : OutWf (execMatrixOpComplete core s) := by
  simpa [execMatrixOpComplete] using h

theorem execSliceExpiry_wf {ck : Nat} (h : Memory.wf s.mem = true) : OutWf (execSliceExpiry ck s) := by
  simpa [execSliceExpiry] using h

theorem exec_wf {i : Instr} (h : Memory.wf s.mem = true) : OutWf (exec i s) := by
  cases i with
  | scene => exact execScene_wf h
  | add | sub | addc | subb | add64 | sub64 | min | max | minu | maxu | abs | and | or | xor | andn | shl | shr
   | sar | rotl | popc | clz | ctz | brev | bswap | bfx | bfi | addi | andi | ori | xori | shli | shri | sari
   | movi | movhi | mullo | mulhi | mulhiu | mad | div | divu | rem | remu | dot4s | dot4u | dot2s | cmp | cmpi
   | plop | pmovToV | pmovToP | fadd | fsub | fmul | ffma | fmin | fmax | fclass | frnd | fcmp | pkadd | pkmul
   | pkfma | pkaddBf | pkmulBf | pkfmaBf | dadd | dsub | dmul | dfma | dmin | dmax | dcmp | frcp | frsq | fsqrt
   | fdiv | fexp2 | flog2 | fsinpi | fcospi | ftanh | drcp | drsq | ddiv | cvt | mov | sel | s2vLo | s2vHi | v2sLo
   | v2sHi | v2sPair => exact laneWord_wf h fun _ => h
  | qntTf8 e d a b => exact (quantWord_wf h : OutWf (execQntTf8 e d a b s))
  | qntTf6 e d a b => exact (quantWord_wf h : OutWf (execQntTf6 e d a b s))
  | dqntTf8 e d a b => exact (quantWord_wf h : OutWf (execDqntTf8 e d a b s))
  | dqntTf6 e d a b => exact (quantWord_wf h : OutWf (execDqntTf6 e d a b s))
  | ctbl => exact execCtbl_wf h
  | ld => exact execLd_wf h
  | st => exact execSt_wf h
  | pfetch e a b m y => exact (execPfetch_wf h : OutWf (execPfetch e a b m y s))
  | pfx m z r c y => exact (execPfx_wf h : OutWf (execPfx m z r c y s))
  | reform => exact (execReform_wf h : OutWf (execReform s))
  | exit => exact (execExit_wf h : OutWf (execExit s))
  | qread e d q y => exact (execQread_wf h : OutWf (execQread e d q y s))
  | csrr e c y => exact (execCsrr_wf h : OutWf (execCsrr e c y s))
  | rett => exact (execRett_wf h : OutWf (execRett s))
  | rdtime e y => exact (execRdtime_wf h : OutWf (execRdtime e y s))
  | mcst => exact execMcst_wf h
  | fence => exact execFence_wf h
  | aadd e d a b m w p => exact (atomic2_wf h : OutWf (execAadd e d a b m w p s))
  | amin e d a b m w p => exact (atomic2_wf h : OutWf (execAmin e d a b m w p s))
  | amax e d a b m w p => exact (atomic2_wf h : OutWf (execAmax e d a b m w p s))
  | aand e d a b m w p => exact (atomic2_wf h : OutWf (execAand e d a b m w p s))
  | aor e d a b m w p => exact (atomic2_wf h : OutWf (execAor e d a b m w p s))
  | axor e d a b m w p => exact (atomic2_wf h : OutWf (execAxor e d a b m w p s))
  | axch e d a b m w p => exact (atomic2_wf h : OutWf (execAxch e d a b m w p s))
  | afadd e d a b m w p => exact (atomic2_wf h : OutWf (execAfadd e d a b m w p s))
  | acas e d a b m w p => exact (atomic_wf h : OutWf (execAcas e d a b m w p s))
  | vote e d a m v => exact (windowWord_wf h : OutWf (execVote e d a m v s))
  | redux e d a m v => exact (windowWord_wf h : OutWf (execRedux e d a m v s))
  | scanInc e d a m v => exact (windowWord_wf h : OutWf (execScanInc e d a m v s))
  | scanExc e d a m v => exact (windowWord_wf h : OutWf (execScanExc e d a m v s))
  | had e d a m => exact (windowWord_wf h : OutWf (execHad e d a m s))
  | shflIdx e d a m y => exact (shuffle_wf h : OutWf (execShflIdx e d a m y s))
  | shflSidx e d a m y => exact (shuffle_wf h : OutWf (execShflSidx e d a m y s))
  | shflXor e d a m y => exact (shuffle_wf h : OutWf (execShflXor e d a m y s))
  | shflVidx e d a m => exact (shuffle_wf h : OutWf (execShflVidx e d a m s))
  | bra => exact execBra_wf h
  | jmpi a => exact (execJmpi_wf h : OutWf (execJmpi a s))
  | calli d a => exact (execCalli_wf h : OutWf (execCalli d a s))
  | ret a => exact (execRet_wf h : OutWf (execRet a s))
  | call d o => exact (execCall_wf h : OutWf (execCall d o s))
  | ucall a o => exact (execUcall_wf h : OutWf (execUcall a o s))
  | jtab => exact execJtab_wf h
  | uadd e d a b => exact (uuu_wf h : OutWf (execUadd e d a b s))
  | usub e d a b => exact (uuu_wf h : OutWf (execUsub e d a b s))
  | umul e d a b => exact (uuu_wf h : OutWf (execUmul e d a b s))
  | uand e d a b => exact (uuu_wf h : OutWf (execUand e d a b s))
  | uor e d a b => exact (uuu_wf h : OutWf (execUor e d a b s))
  | uxor e d a b => exact (uuu_wf h : OutWf (execUxor e d a b s))
  | ushl e d a b => exact (uuu_wf h : OutWf (execUshl e d a b s))
  | ushr e d a b => exact (uuu_wf h : OutWf (execUshr e d a b s))
  | usar e d a b => exact (uuu_wf h : OutWf (execUsar e d a b s))
  | umov e d a => exact (uniWord_wf h : OutWf (execUmov e d a s))
  | uaddi e d a i => exact (uniWord_wf h : OutWf (execUaddi e d a i s))
  | movl e d lit => exact (uniWord_wf h : OutWf (execMovl e d lit s))
  | movlHi e d lit => exact (uniWord_wf h : OutWf (execMovlHi e d lit s))
  | nop e => exact (uniWord_wf h : OutWf (execNop e s))
  | ubra => exact execUbra_wf h
  | uret a => exact (execUret_wf h : OutWf (execUret a s))
  | waitAny | waitAll => exact waitWord_wf h
  | trap | bkpt => exact softTrap_wf h
  | vres => exact execVres_wf h
  | vrel => exact execVrel_wf h
  | tfetch e r b => exact (execTfetch_wf h : OutWf (execTfetch e r b s))
  | mma | qmma | mpoly | miter => exact signWord_wf h
  | azero e d => exact (simpleAcc_wf h : OutWf (execAzero e d s))
  | aread e d a b => exact (simpleAcc_wf h : OutWf (execAread e d a b s))
  | awrite e d a b => exact (simpleAcc_wf h : OutWf (execAwrite e d a b s))
  | atrn e d b => exact (simpleAcc_wf h : OutWf (execAtrn e d b s))
  | astat e d y t => exact (simpleAcc_wf h : OutWf (execAstat e d y t s))
  | aload e d a b => exact (execAload_wf h : OutWf (execAload e d a b s))
  | astore => exact execAstore_wf h
  | acoef => exact execAcoef_wf h
  | conv => exact execConv_wf h
  | bar => exact execBar_wf h
  | binit => exact execBinit_wf h
  | gbar => exact execGbar_wf h
  | copy | gather | scatter | coll => exact engineWord_wf h
  | publish => exact execPublish_wf h
  | launch => exact execLaunch_wf h
  | gnode => exact execGnode_wf h
  | gdep => exact execGdep_wf h
  | send => exact execSend_wf h
  | recv => exact execRecv_wf h
  | rfcal => exact execRfcal_wf h
  | snap => exact execSnap_wf h
  | csrw | csrs | csrc => exact csrWord_wf h
  | ctxsave => exact execCtxsave_wf h
  | ctxload => exact execCtxload_wf h
  | wingageWrite | frmWrite | tcauseClear | tvecWrite | haltcast | rdvtoWrite | tsliceWrite =>
    exact csrEffect_wf h
  | curatorBaseWrite => exact execCuratorBaseWrite_wf h
  | snapresWrite => exact execSnapresWrite_wf h
  | csrPlainWrite => exact execCsrPlainWrite_wf h
  | moduleReset => exact execModuleReset_wf h
  | slotAged => exact execSlotAged_wf h
  | chorusDraw => exact execChorusDraw_wf h
  | laneGrant => exact execLaneGrant_wf h
  | sceneFetch => exact execSceneFetch_wf h
  | headerWaitMet => exact execHeaderWaitMet_wf h
  | translationWalk => exact execTranslationWalk_wf h
  | loadComplete => exact execLoadComplete_wf h
  | waitEvaluate => exact evaluate_wf h
  | waitTimeout => exact execWaitTimeout_wf h
  | causeDelivery tk => exact (execCauseDelivery_wf h : OutWf (execCauseDelivery tk s))
  | rdvTimeout tk => exact (execRdvTimeout_wf h : OutWf (execRdvTimeout tk s))
  | matrixOpStart core => exact (execMatrixOpStart_wf h : OutWf (execMatrixOpStart core s))
  | matrixOpComplete core => exact (execMatrixOpComplete_wf h : OutWf (execMatrixOpComplete core s))
  | accOpComplete => exact execAccOpComplete_wf h
  | slewStep => exact execSlewStep_wf h
  | fenceComplete => exact execFenceComplete_wf h
  | engineSlotFree => exact execEngineSlotFree_wf h
  | engineOpComplete => exact execEngineOpComplete_wf h
  | publishTake => exact execPublishTake_wf h
  | castEnd => exact execCastEnd_wf h
  | copyNodeStart => exact execCopyNodeStart_wf h
  | boxOfficePass => exact execBoxOfficePass_wf h
  | blockerTimeout => exact execBlockerTimeout_wf h
  | coreGate => exact execCoreGate_wf h
  | coreWakeComplete => exact execCoreWakeComplete_wf h
  | powerInterval => exact execPowerInterval_wf h
  | refreshWindowStart => exact execRefreshWindowStart_wf h
  | refreshWindowEnd => exact execRefreshWindowEnd_wf h
  | ptsAdvance => exact execPtsAdvance_wf h
  | sliceExpiry ck => exact (execSliceExpiry_wf h : OutWf (execSliceExpiry ck s))
  | sliceDecision => exact execSliceDecision_wf h
  | haltRequest => exact execHaltRequest_wf h
  | hostCxlMemAccess => exact execHostCxlMemAccess_wf h
  | packetTagDrop => exact execPacketTagDrop_wf h
  | regionTestFail => exact execRegionTestFail_wf h
  | coreComputeFail => exact execCoreComputeFail_wf h
  | snapshotComplete => exact execSnapshotComplete_wf h
  | fabricFlitReceive => exact execFabricFlitReceive_wf h
  | fabricPortDown => exact execFabricPortDown_wf h
  | stubLaunch | stubGnode | stubGdep => exact stubGo_wf h
  | createGallery | removeGallery | growGallery | shrinkGallery | migratePosition | compactGallery | retirePosition
   | setCommunicator | haltCast | readBack | readLog | stageFirmware | identify => exact wf_request h
  | spdmGetMeasurements => exact execSpdmGetMeasurements_wf h
  | tdispLock => exact execTdispLock_wf h
  | groupKeyDelivery => exact execGroupKeyDelivery_wf h
  | snapshotStreamPassesLine => exact execSnapshotStreamPassesLine_wf h
  | managementRequestMalformed => exact execManagementRequestMalformed_wf h
  | stubOpMalformed => exact execStubOpMalformed_wf h
  | spdmSecuredSession => exact execSpdmSecuredSession_wf h
  | tdispRunRequest => exact execTdispRunRequest_wf h
  | ideKeyManagement => exact execIdeKeyManagement_wf h
  | fabricBringUp => exact execFabricBringUp_wf h

end
/-! ## What follows at once, time, and the step -/

section
variable {s z : State} {ck tk : Nat}

@[simp] theorem wf_evaluateCast (h : Memory.wf s.mem = true) : Memory.wf (s.evaluateCast ck).mem = true := by
  unfold State.evaluateCast
  refine wf_foldl _ _ _ h fun z p hz => ?_
  split
  · split
    · exact wf_evaluated hz
    · exact hz
  · exact hz

@[simp] theorem wf_pollCast (h : Memory.wf s.mem = true) : Memory.wf (s.pollCast ck).mem = true := by
  unfold State.pollCast
  refine wf_foldl _ _ _ h fun z p hz => ?_
  dsimp only
  repeat' split
  all_goals simp [hz]

@[simp] theorem exits_mem (rs : List (Nat × Nat)) :
    (rs.foldl (fun (z : State) p => ((z.dropDiverges p.1).rdvExits p.1).qExits p.1) s).mem = s.mem :=
  foldl_mem _ _ _ fun z p => by simp

theorem wf_deliveries {rs : List (Nat × Nat)} (h : Memory.wf s.mem = true) : Memory.wf (rs.foldl (fun (z : State) p =>
    ((z.deliverCast p.1).evaluateCast p.1).pollCast p.1) s).mem = true :=
  wf_foldl _ _ _ h fun z p hz => wf_pollCast (wf_evaluateCast (by simpa using hz))

@[simp] theorem wf_settled (h : Memory.wf s.mem = true) : Memory.wf s.settled.mem = true := by
  unfold State.settled
  extract_lets rs s1 s2 s3 s4 s5 s6 s7
  have h2 : s2.mem = s1.mem := foldl_mem _ _ _ fun z p => by
    split
    · exact ite_mem_eq (z.gridExits_mem _ _) rfl
    · rfl
  have h3 : Memory.wf s3.mem = true := by
    simp only [s3, State.dropEngines_mem, h2, s1, exits_mem]
    exact h
  have h6 : Memory.wf s6.mem = true := by
    simp only [s6, s5, foldl_mem _ _ _ fun (z : State) (p : Nat × Nat) => z.fileCast_mem p.2 p.1, exits_mem]
    exact wf_deliveries h3
  have h7 : Memory.wf s7.mem = true := by
    simp only [s7, foldl_mem _ _ _ State.portDown_mem]
    exact wf_managed h6
  rw [foldl_mem _ _ _ State.regroup_mem]
  exact h7

@[simp] theorem wf_threadTick (h : Memory.wf s.mem = true) : Memory.wf (s.threadTick tk).mem = true := by
  unfold State.threadTick
  repeat' split
  all_goals simp [h]

@[simp] theorem wf_passTick (h : Memory.wf s.mem = true) : Memory.wf s.passTick.mem = true := by
  unfold State.passTick
  extract_lets s1 s2 s3 s4
  have h2 : s2.mem = s.mem := by simp [s2, s1]
  have h3 : Memory.wf s3.mem = true := by simpa [s3, h2] using h
  rw [foldl_mem _ _ _ State.sliceEnds_mem]
  exact wf_foldl _ _ _ h3 fun _ _ hz => wf_threadTick hz

theorem passTime_succ (s : State) (n : Nat) :
    s.passTime (n + 1) = ({ s.passTick.settled with tick := s.tick + 1 } : State).passTime n := by
  delta State.passTime
  rfl

@[simp] theorem wf_passTime {n : Nat} (h : Memory.wf s.mem = true) : Memory.wf (s.passTime n).mem = true := by
  induction n generalizing s with
  | zero => exact h
  | succ n ih =>
    rw [passTime_succ]
    refine ih ?_
    dsimp only
    exact wf_settled (wf_passTick h)

@[simp] theorem wf_hostWrites {l : Loc} {bs : List Byte} (h : Memory.wf s.mem = true) :
    Memory.wf (s.hostWrites l bs).mem = true := by
  unfold State.hostWrites
  split
  · exact wf_writeBytes bs Key.zero (some s.hostCount) h
  · exact h

theorem act_wf {t : Turn} (h : Memory.wf s.mem = true) : OutWf (s.act t) := by
  cases t with
  | pass k n =>
    dsimp only [State.act]
    split
    · split
      · exact h
      · exact exec_wf (by simpa using h)
    · exact h
  | event i =>
    dsimp only [State.act]
    split
    · exact h
    · exact exec_wf h
  | ticks n => exact wf_passTime h
  | engine op u => exact wf_engineUnit h
  | matrix k => exact wf_matrixUnit h
  | hostWrite pool a bs => exact wf_hostWrites h

theorem turn_wf {t : Turn} (h : Memory.wf s.mem = true) : OutWf (s.turn t) := by
  have ha := act_wf (t := t) h
  unfold State.turn mapNext
  split
  · next he =>
    rw [he] at ha
    exact wf_settled ha
  all_goals trivial

theorem step_wf (h : Memory.wf s.mem = true) : OutWf (step s) := by
  unfold step
  split
  · exact turn_wf h
  · exact turn_wf h

end
end Sys2Proof.Machine
end

section
/-! PROOFS. The statements of 00_scope.md about memory. -/
open Sys2Proof.Machine Sys2Proof.Safety

/-- Settles O60: no operation that writes memory leaves its canonical form, so no word, event or consequence does. -/
theorem everyStepKeepsMemoryCanonical : Obligations.EveryStepKeepsMemoryCanonical := by
  intro s z h hz
  have hs : OutWf (step s) := step_wf h
  rwa [hz] at hs

/-- Settles O59: after reset memory holds no cell. -/
theorem resetMemoryIsCanonical : Obligations.ResetMemoryIsCanonical := wf_reset
end


section
/-! SUPPORT. The return from a trap, and the entry that it makes at once (07_thread_memory_traps.md R196). -/
namespace Sys2Proof.Machine
open Sys2Proof.Safety

/-- At supervisor privilege RETT is its return. -/
theorem exec_rett {s : State} {t : Thread} {c : Cast} (h : Ready s t c []) (hp : t.priv = .supervisor) :
    exec .rett s = .next (s.returnTrap s.focus t c) := by
  have hs : supervisorOnly t = none := by simp [supervisorOnly, hp]
  exact issue_run (regs := fun _ => []) h hs

/-- The thread to which a return hands over, before it goes on or enters again. -/
def Thread.returned (t : Thread) : Thread :=
  { t with
    priv := t.tstat.ppriv
    haltIn := t.haltIn && decide (t.tstat.ppriv = .supervisor)
    sliceIn := t.sliceIn && decide (t.tstat.ppriv = .supervisor)
    kept := []
    pfx := none }

/-- The header of the scene that a return resumes in. -/
def Thread.returnHdr (t : Thread) : DWord := t.tepc - BitVec.ofNat 64 (4 * t.tstat.dist.toNat)

/-- A return that nothing held in PEND stops files its thread at TEPC. -/
theorem returnTrap_resumes {s : State} {tk : Nat} {t : Thread} {c : Cast}
    (h : t.tstat.ppriv = .supervisor ∨ (t.tstat.pendHalt = false ∧ t.tstat.pendSlice = false) ∨ s.quiescing c = true) :
    s.returnTrap tk t c = s.putT tk { t.returned with
      suppress := t.tstat.skip
      tstat := { t.tstat with skip := false }
      pc := t.tepc
      hdr := t.returnHdr
      inScene := false
      run := .filed
      age := s.tick } := by
  have hn : (t.tstat.ppriv = .program && (t.tstat.pendHalt || t.tstat.pendSlice) && !s.quiescing c) = false := by
    rcases h with h | ⟨hh, hs⟩ | h
    · simp [h]
    · simp [hh, hs]
    · simp [h]
  unfold State.returnTrap
  simp only [hn, Bool.false_eq_true, if_false]
  rfl

/-- A return to program privilege with a cause held in PEND is an entry at TEPC. -/
theorem returnTrap_enters {s : State} {tk : Nat} {t : Thread} {c : Cast} (hp : t.tstat.ppriv = .program)
    (hh : t.tstat.pendHalt = true) (hq : s.quiescing c = false) :
    s.returnTrap tk t c = s.enterTrap tk t.returned c [] 0 0 0 t.tepc t.returnHdr := by
  unfold State.returnTrap
  simp only [hp, hh, hq, decide_true, Bool.true_or, Bool.and_true, Bool.not_false, if_true]
  simp [Thread.returned, Thread.returnHdr, hp]

/-- A thread that is neither waiting nor held enters a trap as it is. -/
theorem pauseWait_withdraw {t : Thread} {tick : Nat} (hh : t.held = none) (hr : t.run = .member) :
    (t.pauseWait tick).withdraw = t := by
  have hw : t.pauseWait tick = t := by simp [Thread.pauseWait, hr]
  obtain ⟨⟩ := t
  cases hh
  rw [hw]
  rfl

/-- An entry from program privilege is handled where the vector is enabled. -/
theorem enterTrap_handled {s : State} {tk : Nat} {t : Thread} {c : Cast} {cs : List Cause} {v : DWord} {fk acc : Nat}
    {pc hdr : DWord} (hp : t.priv = .program) (hh : t.held = none) (hr : t.run = .member) (he : c.tvecEn = true) :
    s.enterTrap tk t c cs v fk acc pc hdr =
      s.putT tk { t.enter c.tvecBase cs v fk acc pc hdr s.tick with kept := t.kept ++ s.leftOwed tk t c } := by
  have hn : (t.enter c.tvecBase cs v fk acc pc hdr s.tick).tstat.nest = false := by
    simp [Thread.enter, pauseWait_withdraw hh hr, hp]
  simp [State.enterTrap, hn, he]

end Sys2Proof.Machine
end

section
/-! PROOFS. The return from a trap. -/
open Sys2Proof.Machine Sys2Proof.Safety

/-- Settles O32: a return resumes at TEPC, or enters again at once with the HALT that PEND held. -/
theorem returnFromTraps : Obligations.ReturnFromTraps := by
  intro s t c
  refine ⟨fun h hp hn => ?_, fun h hp hpp hpend hen hq hh hr => ?_, fun ht hc hp => ?_⟩
  · rw [exec_rett h hp, returnTrap_resumes hn]
    exact ⟨_, rfl, rfl, rfl, rfl, rfl, rfl, rfl, rfl, rfl, rfl, rfl, rfl, rfl⟩
  · have hdue : t.returned.dueHalt = true := by simp [Thread.dueHalt, Thread.returned, hpp, hpend]
    rw [exec_rett h hp, returnTrap_enters hpp hpend hq, enterTrap_handled (t := t.returned) hpp hh hr hen]
    refine ⟨_, _, rfl, State.thread_putT_same _ _ _, ?_, rfl, rfl, rfl⟩
    simp [Thread.enter, pauseWait_withdraw (t := t.returned) hh hr, Thread.entryCauses, hdue, causeBits, Cause.num]
  · have hs : supervisorOnly t = some (trapOf .priv 0) := by simp [supervisorOnly, hp]
    exact issue_pre ht hc hs
end

section
/-! SUPPORT. A lane register with the number that a uniform register has among the registers that words name: 64 and
above (R190). -/
namespace Sys2Proof.Machine
open Sys2Proof.Safety

/-- A trap leaves its thread filed at its vector, or ended. -/
theorem trapAt_run (s : State) (tk : Nat) (t : Thread) (c : Cast) (x : TrapInfo) :
    ∃ u, (s.trapAt tk t c x).thread tk = some u ∧ u.run ≠ .member := by
  unfold State.trapAt State.enterTrap
  dsimp only
  split
  · refine ⟨_, State.thread_putT_same s tk _, ?_⟩
    simp [Thread.ended]
  · refine ⟨_, State.thread_putT_same s tk _, ?_⟩
    simp [Thread.enter]

/-- A thread at a word that its PFX masks off and zeroes; lane register 64, past the 64 that words can name, holds 1. -/
def strayThread : Thread :=
  { Thread.fresh placedProd 0 0 0 with run := .member, inScene := true, v := [(64, 1)], pfx := some ⟨0, true, 0, 0, false⟩ }

/-- Its cast, which is all that the machine runs. -/
def strayCast : Cast := Cast.fresh 0 0 placedProd (.core 0) 0

def strayState : State := { State.reset with threads := [(0, strayThread)], casts := [(0, strayCast)] }

/-- The masked-off V2S zeroes lane register 64, where it names s0. -/
theorem exec_v2s_zeroes_stray : ∃ z u, exec (.v2sLo false 0 0) strayState = .next z ∧ z.thread 0 = some u ∧
    u.run = .member ∧ u.lane 64 = 0 := ⟨_, _, rfl, rfl, rfl, by decide⟩

end Sys2Proof.Machine
end

section
/-! PROOFS. The frame of the words that act on registers alone. -/
open Sys2Proof.Machine Sys2Proof.Safety

/-- Refutes O18: a V2S to s0 that a PFX masks off and zeroes clears lane register 64, which it does not write. R33 gives no V2S
such a PFX, and no word names that register, but the statement asks this of every state. -/
theorem not_frameOfRegisterWords : ¬ Obligations.FrameOfRegisterWords := by
  intro h
  obtain ⟨z, u, hz, hu, hrun, hlane⟩ := exec_v2s_zeroes_stray
  rcases h (.v2sLo false 0 0) strayState z strayThread strayCast _ rfl rfl rfl (.inl rfl) hz with
    ⟨x, rfl⟩ | ⟨_, _, _, y, hy, hkeeps⟩
  · obtain ⟨y, hy, hn⟩ := trapAt_run strayState 0 strayThread strayCast x
    obtain rfl : u = y := Option.some.inj (hu.symm.trans hy)
    exact hn hrun
  · obtain rfl : u = y := Option.some.inj (hu.symm.trans hy)
    have hl : u.lane 64 = strayThread.lane 64 := hkeeps.lane 64 (by decide)
    exact absurd (hlane.symm.trans hl) (by decide)
end

section
/-! SUPPORT. The checks through which every word is entered (07_thread_memory_traps.md R192). -/
namespace Sys2Proof.Machine
open Sys2Proof.Safety

/-- A word of thread t is entered through the checks of R192: its privilege check is the one that wordPriv gives, and then the
registers that namedRegs lists are checked. -/
def ChecksFirst (i : Instr) (s : State) (t : Thread) : Prop :=
  ∃ pre regs body, exec i s = issue pre regs body s ∧ wordPriv i t = pre t ∧ namedRegs i t = some (regs t)

section
variable {i : Instr} {s : State} {t : Thread}

theorem issue_checksFirst {pre : Thread → Option TrapInfo} {regs : Thread → List Nat} {body : Thread → Cast → Res State}
    (hx : exec i s = issue pre regs body s) (hp : wordPriv i t = pre t) (hr : namedRegs i t = some (regs t)) :
    ChecksFirst i s t := ⟨pre, regs, body, hx, hp, hr⟩

theorem laneWord_checksFirst {e : Bool} {dst src : Thread → List Nat} {f : Thread → Res Thread}
    (hx : exec i s = laneWord e dst src f s) (hp : wordPriv i t = none)
    (hr : namedRegs i t = some (laneRegs t (dst t) (src t))) : ChecksFirst i s t :=
  issue_checksFirst (pre := anyPriv) hx hp hr

/-- A PLOP names no lane register, masked off or not. -/
theorem plop_checksFirst {e : Bool} {d a b k : BitVec 4} : ChecksFirst (.plop e d a b k) s t :=
  have hr : laneRegs t [] [] = [] := by simp [laneRegs]
  laneWord_checksFirst rfl rfl (congrArg some hr.symm)

/-- An MCST that is not held at a frozen page begins. -/
theorem mcst_checksFirst {e : Bool} {d a : BitVec 6} {b : BitVec 5} {m z : BitVec 1} {k : BitVec 2}
    (ht : s.thread s.focus = some t) (hh : t.held = none) : ChecksFirst (.mcst e d a b m z k) s t := by
  have hr : s.mcstRest e = none := by
    cases hc : s.cast (castOf s.focus) with
    | none => simp [State.mcstRest, hc]
    | some c => simp [State.mcstRest, ht, hc, hh]
  have hx : ∃ body, execMcst e d a b m z k s = issue anyPriv (fun _ => dataRegs d.toNat (if z = 1 then 8 else 4) ++
      (if m = 1 then vRange a.toNat (2 * (k.toNat + 1)) else vRange a.toNat (k.toNat + 1) ++ [sReg b.toNat])) body s := by
    unfold execMcst
    rw [hr]
    exact ⟨_, rfl⟩
  obtain ⟨body, hx⟩ := hx
  exact issue_checksFirst hx rfl rfl

/-- Every word whose thread is not held is entered through its checks. -/
theorem word_checksFirst (ht : s.thread s.focus = some t) (hh : t.held = none) (hi : (namedRegs i t).isSome = true) :
    ChecksFirst i s t := by
  cases i with
  | add | sub | addc | subb | add64 | sub64 | min | max | minu | maxu | abs | and | or | xor | andn | shl | shr
   | sar | rotl | popc | clz | ctz | brev | bswap | bfx | bfi | addi | andi | ori | xori | shli | shri | sari
   | movi | movhi | mullo | mulhi | mulhiu | mad | div | divu | rem | remu | dot4s | dot4u | dot2s | cmp | cmpi
   | pmovToV | pmovToP | fadd | fsub | fmul | ffma | fmin | fmax | fclass | frnd | fcmp | pkadd | pkmul | pkfma
   | pkaddBf | pkmulBf | pkfmaBf | dadd | dsub | dmul | dfma | dmin | dmax | dcmp | frcp | frsq | fsqrt | fdiv
   | fexp2 | flog2 | fsinpi | fcospi | ftanh | drcp | drsq | ddiv | cvt | mov | sel | s2vLo | s2vHi | v2sLo | v2sHi
   | v2sPair => exact laneWord_checksFirst rfl rfl rfl
  | plop => exact plop_checksFirst
  | scene | qntTf8 | qntTf6 | dqntTf8 | dqntTf6 | ctbl | ld | st | pfetch | fence | aadd | amin | amax | aand | aor
   | axor | axch | acas | afadd | vote | redux | scanInc | scanExc | had | shflIdx | shflSidx | shflXor | shflVidx
   | bra | jmpi | calli | ret | jtab | call | pfx | uadd | usub | umul | uand | uor | uxor | ushl | ushr | usar
   | umov | uaddi | movl | movlHi | ubra | ucall | uret | reform | exit | waitAny | waitAll | nop | trap | bkpt
   | vres | vrel | tfetch | mma | qmma | mpoly | miter | azero | aload | astore | aread | awrite | atrn | acoef
   | astat | conv | qread | bar | binit | gbar | copy | gather | scatter | publish | coll | launch | gnode | gdep
   | send | recv | rfcal | snap | csrr | csrw | csrs | csrc | rett | rdtime | ctxsave | ctxload =>
    exact issue_checksFirst rfl rfl rfl
  | mcst => exact mcst_checksFirst ht hh
  | wingageWrite | frmWrite | tcauseClear | tvecWrite | haltcast | rdvtoWrite | tsliceWrite | curatorBaseWrite
   | snapresWrite | csrPlainWrite | moduleReset | slotAged | chorusDraw | laneGrant | sceneFetch | headerWaitMet
   | translationWalk | loadComplete | waitEvaluate | waitTimeout | causeDelivery | rdvTimeout | matrixOpStart
   | matrixOpComplete | accOpComplete | slewStep | fenceComplete | engineSlotFree | engineOpComplete | publishTake
   | castEnd | copyNodeStart | boxOfficePass | blockerTimeout | coreGate | coreWakeComplete | powerInterval
   | refreshWindowStart | refreshWindowEnd | ptsAdvance | sliceExpiry | sliceDecision | haltRequest
   | hostCxlMemAccess | packetTagDrop | regionTestFail | coreComputeFail | snapshotComplete | fabricFlitReceive
   | fabricPortDown | stubLaunch | stubGnode | stubGdep | createGallery | removeGallery | growGallery
   | shrinkGallery | migratePosition | compactGallery | retirePosition | setCommunicator | haltCast | readBack
   | readLog | stageFirmware | identify | spdmGetMeasurements | tdispLock | groupKeyDelivery
   | snapshotStreamPassesLine | managementRequestMalformed | stubOpMalformed | spdmSecuredSession | tdispRunRequest
   | ideKeyManagement | fabricBringUp => exact absurd hi Bool.false_ne_true

end

/-- A word that its privilege check lets through, and of which a register or a breakpoint does not, traps. -/
theorem issue_trapped {s : State} {t : Thread} {c : Cast} {pre : Thread → Option TrapInfo} {regs : Thread → List Nat}
    {body : Thread → Cast → Res State} {x : TrapInfo} (ht : s.thread s.focus = some t)
    (hc : s.cast (castOf s.focus) = some c) (hp : pre t = none) (hx : preChecks t c (tidOf s.focus) (regs t) = some x) :
    issue pre regs body s = .next (s.trapAt s.focus t c x) := by
  simp [issue, ht, hc, hp, hx]

section
variable {t : Thread} {c : Cast} {tid r n : Nat} {regs : List Nat}

/-- A register past its budget comes first. -/
theorem preChecks_budget (h : budgetFails c regs = some r) :
    preChecks t c tid regs = some (trapOf .budget (BitVec.ofNat 64 r)) := by
  simp [preChecks, h]

/-- An outstanding register comes next. -/
theorem preChecks_hazard (hb : InBudget c regs) (h : t.hazardOn regs = some r) :
    preChecks t c tid regs = some (trapOf .hazard (BitVec.ofNat 64 r)) := by
  simp [preChecks, budgetFails_none c regs hb, h]

/-- A breakpoint comes last. -/
theorem preChecks_hwbp (hb : InBudget c regs) (hn : NoHazard t regs) (h : breakpointAt c t tid t.pc = some n) :
    preChecks t c tid regs = some (trapOf .hwbp (BitVec.ofNat 64 n)) := by
  simp [preChecks, budgetFails_none c regs hb, hazardOn_none t regs hn, h]

end
end Sys2Proof.Machine
end

section
/-! PROOFS. The checks before a word. -/
open Sys2Proof.Machine Sys2Proof.Safety

/-- Settles O34: every word is entered through the same checks, in their order. -/
theorem checksBeforeAWordInOrder : Obligations.ChecksBeforeAWordInOrder := by
  intro i regs s t c r n above trapped ht hc hh hregs
  obtain ⟨pre, f, body, hx, hp, hf⟩ := word_checksFirst ht hh (Option.isSome_of_eq_some hregs)
  obtain rfl : regs = f t := Option.some.inj (hregs.symm.trans hf)
  rw [hx, hp]
  exact ⟨fun x hpre => issue_pre ht hc hpre, fun hpre =>
    ⟨fun hb => issue_trapped ht hc hpre (preChecks_budget hb),
      fun hb hz => issue_trapped ht hc hpre (preChecks_hazard hb hz),
      fun hb hn hw => issue_trapped ht hc hpre (preChecks_hwbp hb hn hw)⟩⟩
end

section
/-! SUPPORT. Lane words whose result the specification states in other arithmetic than the model, and the arithmetic of the words
of 05_thread_integer_control.md R129 to R134. -/
namespace Sys2Proof.Machine
open Sys2Proof.Safety

/-! ## Lane words -/

/-- A lane word whose result g is f, which keeps STEP and the privilege. -/
theorem laneWord_of_result {i : Instr} {e : Bool} {dst : List Nat} {src : Thread → List Nat} {f g : Thread → Thread}
    (hi : ∀ s, exec i s = laneWord e (fun _ => dst) src (fun t => .ok (g t)) s) (hfg : ∀ t, g t = f t)
    (hf : ∀ t, (f t).step = t.step ∧ (f t).priv = t.priv) : LaneWord i e dst src f :=
  laneWord_run (fun s => (hi s).trans (by rw [funext hfg])) hf

/-- A lane word that writes one lane register. -/
theorem laneWord_setLane {i : Instr} {e : Bool} {dst : List Nat} {src : Thread → List Nat} {d : Nat} {x y : Thread → Word}
    (hi : ∀ s, exec i s = laneWord e (fun _ => dst) src (fun t => .ok (t.setLane d (x t))) s) (h : ∀ t, x t = y t) :
    LaneWord i e dst src (fun t => t.setLane d (y t)) :=
  laneWord_of_result hi (fun t => by rw [h]) (fun _ => ⟨rfl, rfl⟩)

/-- A lane word that writes one uniform register. -/
theorem laneWord_laneToUni {i : Instr} {e : Bool} {dst : List Nat} {src : Thread → List Nat} {d : Nat} {x y : Thread → DWord}
    (hi : ∀ s, exec i s = laneWord e (fun _ => dst) src (fun t => .ok (t.laneToUni d (x t))) s) (h : ∀ t, x t = y t) :
    LaneWord i e dst src (fun t => t.laneToUni d (y t)) :=
  laneWord_of_result hi (fun t => by rw [h]) (fun _ => ⟨rfl, rfl⟩)

theorem Thread.setPred_keeps (t : Thread) (n : Nat) (b : Bool) :
    (t.setPred n b).step = t.step ∧ (t.setPred n b).priv = t.priv := by
  unfold Thread.setPred
  split <;> exact ⟨rfl, rfl⟩

/-- A lane word that writes one predicate. -/
theorem laneWord_setPred {i : Instr} {e : Bool} {dst : List Nat} {src : Thread → List Nat} {p : Nat} {x y : Thread → Bool}
    (hi : ∀ s, exec i s = laneWord e (fun _ => dst) src (fun t => .ok (t.setPred p (x t))) s) (h : ∀ t, x t = y t) :
    LaneWord i e dst src (fun t => t.setPred p (y t)) :=
  laneWord_of_result hi (fun t => by rw [h]) (fun t => t.setPred_keeps p (y t))

/-- No flag raised leaves FFLAGS. -/
theorem Thread.raise_none (t : Thread) : t.raise .none = t := by
  have h : t.fflags ||| Fl.none.bits = t.fflags := BitVec.or_zero
  simp only [Thread.raise, h]

/-- A compare that raises no flag. -/
theorem laneCompare_run {i : Instr} {e : Bool} {p : BitVec 4} {c : BitVec 2} {src : List Nat} {x y : Thread → Bool}
    (hi : ∀ s, exec i s = laneWord e (fun _ => []) (fun _ => src) (fun t => .ok (t.setCompare p c (x t))) s)
    (h : ∀ t, x t = y t) : LaneCompare i e p c src (fun t => (y t, .none)) := by
  unfold LaneCompare
  simp only [Thread.raise_none]
  exact laneWord_setPred hi fun t => by rw [h]

/-! ## Compares and predicate logic (R129 to R132, R38) -/

/-- The condition numbers mean what R38 lists. -/
theorem intCond_eq_intHolds {k : Nat} (hk : k < 10) (a b : Word) : intCond k a b = intHolds k a b := by
  match k, hk with
  | 0, _ | 1, _ | 2, _ | 3, _ | 4, _ | 5, _ | 6, _ | 7, _ | 8, _ | 9, _ => rfl

/-- The truth table is read at the two predicates as a number. -/
theorem plop_index (a b : Bool) : 2 * a.toNat + b.toNat = (if a then 2 else 0) + (if b then 1 else 0) := by
  cases a <;> cases b <;> rfl

theorem Thread.predSet_word (t : Thread) : t.predSet.setWidth 32 = BitVec.ofNat 32 (t.p.toNat + 2 ^ 15) := by
  apply BitVec.eq_of_toNat_eq
  have h : (BitVec.cons true t.p).toNat = t.p.toNat + 2 ^ 15 := by
    rw [BitVec.toNat_cons, ← Nat.shiftLeft_add_eq_or_of_lt t.p.isLt, Nat.add_comm]
    rfl
  rw [Thread.predSet, BitVec.toNat_setWidth, h, BitVec.toNat_ofNat]

/-! ## Halves of a uniform register (R133, R134) -/

theorem lowHalf_eq (x : DWord) : x.setWidth 32 = BitVec.ofNat 32 (x.toNat % 2 ^ 32) := by
  bv_omega

theorem highHalf_eq (x : DWord) : (x >>> 32).setWidth 32 = BitVec.ofNat 32 (x.toNat / 2 ^ 32) := by
  bv_omega

theorem append_words (x y : Word) : x ++ y = BitVec.ofNat 64 (x.toNat * 2 ^ 32 + y.toNat) := by
  have h : (x ++ y).toNat = x.toNat * 2 ^ 32 + y.toNat := by
    rw [BitVec.toNat_append, ← Nat.shiftLeft_add_eq_or_of_lt y.isLt, Nat.shiftLeft_eq]
  rw [← h, BitVec.ofNat_toNat, BitVec.setWidth_eq]

end Sys2Proof.Machine
end

section
/-! PROOFS. Compares, predicate logic and moves. -/
open Sys2Proof.Machine Sys2Proof.Safety

/-- Settles O4: every compare, predicate word, move and transfer is a lane word of the result that its rule states. -/
theorem lanePredicatesAndMoves : Obligations.LanePredicatesAndMoves := by
  constructor
  · intro e p c a b k d j pa pb tt i
    refine ⟨fun hk => ?_, fun hj => ?_, ?_, ?_, ?_⟩
    · exact laneCompare_run (fun _ => rfl) fun t => intCond_eq_intHolds hk _ _
    · exact laneCompare_run (fun _ => rfl) fun t => intCond_eq_intHolds hj _ _
    · exact laneWord_setPred (fun _ => rfl) fun t => by rw [plop_index]
    · exact laneWord_setLane (fun _ => rfl) Thread.predSet_word
    · exact laneWord_run (fun _ => rfl) fun _ => ⟨rfl, rfl⟩
  · intro e d a b p
    refine ⟨?_, ?_, ?_, ?_, ?_, ?_, ?_⟩
    · exact laneWord_setLane (fun _ => rfl) fun _ => rfl
    · exact laneWord_setLane (fun _ => rfl) fun _ => rfl
    · exact laneWord_setLane (fun _ => rfl) fun _ => lowHalf_eq _
    · exact laneWord_setLane (fun _ => rfl) fun _ => highHalf_eq _
    · exact laneWord_laneToUni (fun _ => rfl) fun _ => (BitVec.ofNat_toNat _ _).symm
    · exact laneWord_laneToUni (fun _ => rfl) fun _ => by rw [append_words, BitVec.toNat_setWidth]
    · exact laneWord_laneToUni (fun _ => rfl) fun _ => append_words _ _
end

section
/-! SUPPORT. What the steps of the slew limiter, of a power interval and of the timestamps change, and what they leave
(16_package_launch_power.md R355, R359, R360; 15_die_engines_refresh.md R335, R336; 14_die_memory_order.md R303). -/
namespace Sys2Proof.Machine
open Sys2Proof.Safety

/-! ## Sweeps -/

section
variable {α β : Type} {f : State → α → State} {l : List α} {a : α}

/-- What no visit changes, a sweep leaves. -/
theorem foldl_same (p : State → β) (h : ∀ z, ∀ b ∈ l, p (f z b) = p z) (s : State) : p (l.foldl f s) = p s :=
  List.foldlRecOn (motive := fun z => p z = p s) l f rfl fun z hz b hb => (h z b hb).trans hz

/-- What only the visit of a changes, a sweep that visits a once leaves as that visit does. -/
theorem foldl_once (p : State → β) (hn : l.Nodup) (ha : a ∈ l) (ho : ∀ z b, b ≠ a → p (f z b) = p z) (s : State) :
    ∃ z, p z = p s ∧ p (l.foldl f s) = p (f z a) := by
  induction l generalizing s with
  | nil => cases ha
  | cons b l ih =>
    obtain ⟨hb, hl⟩ := List.nodup_cons.mp hn
    rcases List.mem_cons.mp ha with rfl | ha
    · exact ⟨s, rfl, foldl_same p (fun z c hc => ho z c (ne_of_mem_of_not_mem hc hb)) _⟩
    · obtain ⟨z, hz, he⟩ := ih hl ha (f s b)
      exact ⟨z, hz.trans (ho s b (ne_of_mem_of_not_mem ha hb).symm), he⟩

/-- What the visit of a establishes and the others keep holds after a sweep, where P is kept throughout. -/
theorem foldl_reaches {P Q : State → Prop} (ha : a ∈ l) (hP : ∀ z b, P z → P (f z b)) (hQ : ∀ z, P z → Q (f z a))
    (hk : ∀ z b, b ≠ a → Q z → Q (f z b)) {s : State} (hs : P s) : Q (l.foldl f s) := by
  induction l generalizing s with
  | nil => cases ha
  | cons b l ih =>
    by_cases hl : a ∈ l
    · exact ih hl (hP s b hs)
    · obtain rfl : a = b := (List.mem_cons.mp ha).resolve_right hl
      exact List.foldlRecOn l f (hQ s hs) fun z hz b hb => hk z b (ne_of_mem_of_not_mem hb hl) hz

end

/-! ## Reads that other records leave -/

@[simp] theorem State.cluster_log (s : State) (c u k g j : Nat) (d : DWord) :
    (s.log c u k g d).cluster j = s.cluster j := rfl
@[simp] theorem State.tile_log (s : State) (c u k g j : Nat) (d : DWord) : (s.log c u k g d).tile j = s.tile j := rfl
@[simp] theorem State.tile_putCluster (s : State) (k j : Nat) (x : Cluster) : (s.putCluster k x).tile j = s.tile j := rfl
@[simp] theorem State.cluster_putTile (s : State) (k j : Nat) (x : Tile) : (s.putTile k x).cluster j = s.cluster j := rfl
@[simp] theorem State.cluster_putCore (s : State) (k j : Nat) (x : Core) : (s.putCore k x).cluster j = s.cluster j := rfl

/-! ## The slew limiter -/

section
variable {x : Slew} {R cap : Nat}

theorem Slew.step_up (h : x.a < R) : x.step R cap =
    { x with a := Nat.min (Nat.min R (x.a + x.up.getD x.mu 0)) cap, mu := Nat.min (x.mu + 1) 15, md := 0 } := by
  simp [Slew.step, h]

theorem Slew.step_down (h : R < x.a) : x.step R cap =
    { x with a := Nat.min (Nat.max R (x.a - x.dn.getD x.md 0)) cap, md := Nat.min (x.md + 1) 15, mu := 0 } := by
  simp [Slew.step, h, Nat.lt_asymm h]

theorem Slew.step_level (h : x.a = R) : x.step R cap = { x with a := Nat.min R cap, mu := 0, md := 0 } := by
  simp [Slew.step, h]

end

theorem fewest_mem {got : Tab Nat} {l : List Nat} {k : Nat} (h : fewest got l = some k) : k ∈ l := by
  induction l with
  | nil => cases h
  | cons i l ih =>
    simp only [fewest] at h
    split at h
    · next j hj =>
      split at h
      · cases h
        exact List.mem_cons_of_mem _ (ih hj)
      · cases h
        exact List.mem_cons_self
    · cases h
      exact List.mem_cons_self

/-- Groups go to the demanding cores alone. -/
theorem dealGroups_other {cores : List Nat} {j : Nat} (hj : j ∉ cores) (n : Nat) (got : Tab Nat) :
    tget (dealGroups cores n got) j 0 = tget got j 0 := by
  induction n generalizing got with
  | zero => rfl
  | succ n ih =>
    rw [dealGroups]
    split
    · next k hk =>
      have hkj : j ≠ k := fun h => hj (h ▸ (List.mem_filter.mp (fewest_mem hk)).1)
      rw [ih, tget_tset_other _ _ _ hkj]
    · rfl

section
variable (s : State) (k : Nat)

theorem slewed_threads : (s.slewed k).threads = s.threads := by
  unfold State.slewed
  exact (foldl_same State.threads (fun z j _ => State.putCore_threads z j _) _).trans rfl

theorem slewed_cluster : (s.slewed k).cluster k =
    { s.cluster k with
      slew := (s.cluster k).slew.step (s.demand k) (s.cluster k).cap
      stepsNow := (s.cluster k).stepsNow + 1 } := by
  unfold State.slewed
  exact (foldl_same (fun z => z.cluster k) (fun z j _ => State.cluster_putCore z j k _) _).trans
    (State.cluster_putCluster_same _ _ _)

/-- A core without demand receives no group (R359). -/
theorem slewed_idle_grants {j : Nat} (hj : j ∈ clusterCores k) (hb : (s.core j).arrayBusy = false) :
    ((s.slewed k).core j).grants = 0 := by
  unfold State.slewed
  refine foldl_reaches (P := fun _ => True) (Q := fun z => (z.core j).grants = 0) hj (fun _ _ _ => trivial)
    (fun z _ => ?_) (fun z b h hz => ?_) trivial
  · have hd : j ∉ (clusterCores k).filter (fun k => (s.core k).arrayBusy) := by simp [hb]
    rw [State.core_putCore_same]
    exact dealGroups_other hd _ _
  · rw [State.core_putCore_other _ _ h.symm]
    exact hz

end

/-! ## The bands and the windows of a store -/

section
variable {b x y : Nat}

theorem nextBand_hot (hb : b ≤ 2) (hy : 95 ≤ y) : nextBand b x y = 2 := by
  have hf : bandFor y = 2 := by rw [bandFor, if_neg (by omega), if_neg (by omega)]
  rw [nextBand, hf]
  apply Nat.max_eq_right
  split <;> omega

theorem nextBand_warm (hy : 85 ≤ y) : 1 ≤ nextBand b x y := by
  have hf : 1 ≤ bandFor y := by
    rw [bandFor, if_neg (Nat.not_lt.mpr hy)]
    split <;> decide
  exact Nat.le_trans hf (Nat.le_max_right _ _)

theorem nextBand_cool (hy : y < 85) : nextBand b x y = if 0 < b ∧ x + 3 ≤ bandEdge b then b - 1 else b := by
  have hf : bandFor y = 0 := by simp [bandFor, hy]
  rw [nextBand, hf]
  simp

end

/-- The flag that is set is the one that an access reads. -/
theorem setWindow_refreshing (s : State) (k : Nat) (b : Bool) : (s.setWindow k b).refreshing (some k) = b := by
  by_cases h : k < 2240 <;> simp [State.setWindow, State.refreshing, h]

/-! ## A power interval -/

/-- The range of a tile's clock, in 0.1 GHz (R18). -/
def ClockInRange (t : Tile) : Prop := 8 ≤ t.freq ∧ t.freq ≤ 22

/-- What the steps of a power interval before its last leave: threads, the next interval, the caps, and clocks in range. -/
structure KeepsPower (s z : State) : Prop where
  threads : z.threads = s.threads
  next : z.nextInterval = s.nextInterval
  cap : ∀ k, (z.cluster k).cap = (s.cluster k).cap
  freq : ∀ n, ClockInRange (s.tile n) → ClockInRange (z.tile n)

theorem KeepsPower.refl (s : State) : KeepsPower s s := ⟨rfl, rfl, fun _ => rfl, fun _ h => h⟩

theorem KeepsPower.trans {s z w : State} (a : KeepsPower s z) (b : KeepsPower z w) : KeepsPower s w :=
  ⟨b.threads.trans a.threads, b.next.trans a.next, fun k => (b.cap k).trans (a.cap k), fun n h => b.freq n (a.freq n h)⟩

theorem KeepsPower.foldl {α : Type} {f : State → α → State} (h : ∀ z a, KeepsPower z (f z a)) (l : List α) (s : State) :
    KeepsPower s (l.foldl f s) :=
  List.foldlRecOn l f (.refl s) fun z hz a _ => hz.trans (h z a)

section
variable (s : State) (k : Nat)

theorem putCluster_keepsPower {x : Cluster} (h : x.cap = (s.cluster k).cap) : KeepsPower s (s.putCluster k x) := by
  refine ⟨rfl, rfl, fun j => ?_, fun _ h => h⟩
  by_cases hj : j = k
  · rw [hj, State.cluster_putCluster_same, h]
  · rw [State.cluster_putCluster_other _ _ hj]

theorem putTile_keepsPower {x : Tile} (h : ClockInRange (s.tile k) → ClockInRange x) : KeepsPower s (s.putTile k x) := by
  refine ⟨rfl, rfl, fun _ => rfl, fun n hn => ?_⟩
  by_cases he : n = k
  · subst he
    rw [State.tile_putTile_same]
    exact h hn
  · rwa [State.tile_putTile_other _ _ he]

theorem log_keepsPower (c u kind g : Nat) (d : DWord) : KeepsPower s (s.log c u kind g d) :=
  ⟨rfl, rfl, fun _ => rfl, fun _ h => h⟩

theorem draw_keepsPower : KeepsPower s { s with free := s.free + 1 } := ⟨rfl, rfl, fun _ => rfl, fun _ h => h⟩

theorem changeBand_keepsPower (band : Nat) : KeepsPower s (s.changeBand k band) := by
  have calendar (z : State) (n : Nat) (c : Tab (List Seg)) : KeepsPower z { z with free := n, calendar := c } :=
    ⟨rfl, rfl, fun _ => rfl, fun _ h => h⟩
  unfold State.changeBand
  refine KeepsPower.trans ?_ (calendar _ _ _)
  split
  · exact putCluster_keepsPower s k rfl
  · exact putTile_keepsPower s _ id

theorem vaultBand_keepsPower (new : Nat → Nat) : KeepsPower s (s.vaultBand new k) := by
  unfold State.vaultBand
  dsimp only
  split
  · split
    · exact .refl s
    · exact (changeBand_keepsPower s k _).trans (log_keepsPower _ _ _ _ _ _)
  · exact .refl s

theorem weightBand_keepsPower (new : Nat → Nat) : KeepsPower s (s.weightBand new k) := by
  unfold State.weightBand
  dsimp only
  split
  · exact .refl s
  · exact changeBand_keepsPower s _ _

theorem slower_keepsPower : KeepsPower s (s.slower k) :=
  putTile_keepsPower s k fun ⟨_, h⟩ => ⟨Nat.le_max_left _ _, Nat.max_le.mpr ⟨by decide, by omega⟩⟩

theorem throttle_keepsPower (b : Bool) : KeepsPower s (s.putTile k { s.tile k with throttled := b }) :=
  putTile_keepsPower s k id

theorem heat_keepsPower (new : Nat → Nat) : KeepsPower s (s.heat new k) := by
  unfold State.heat
  dsimp only
  split
  · exact (throttle_keepsPower s k _).trans (log_keepsPower _ _ _ _ _ _)
  · split
    · exact slower_keepsPower s k
    · split
      · exact ((throttle_keepsPower s k _).trans (log_keepsPower _ _ _ _ _ _)).trans (slower_keepsPower _ k)
      · exact .refl s

theorem powerDown_keepsPower (new : Nat → Nat) : KeepsPower s (s.powerDown new) := by
  unfold State.powerDown
  split
  · exact slower_keepsPower s _
  · exact .refl s

theorem faster_keepsPower : KeepsPower s (s.faster k) := by
  unfold State.faster
  dsimp only
  split
  · next h =>
    have hf : (s.tile k).freq < 22 := by simpa using (Bool.and_eq_true_iff.mp h).2
    split
    · exact (draw_keepsPower s).trans (putTile_keepsPower _ k fun ⟨h, _⟩ => ⟨Nat.le_succ_of_le h, hf⟩)
    · exact draw_keepsPower s
  · exact .refl s

end

/-- The bands of the stores, then the heat of the tiles. -/
theorem sweeps_keepPower (s : State) (new : Nat → Nat) (cs ts : List Nat) :
    KeepsPower s (ts.foldl (fun z t => z.heat new t) (ts.foldl (fun z t => z.weightBand new t)
      (cs.foldl (fun z c => z.vaultBand new c) s))) :=
  ((KeepsPower.foldl (fun z c => vaultBand_keepsPower z c new) cs s).trans
    (KeepsPower.foldl (fun z t => weightBand_keepsPower z t new) ts _)).trans
    (KeepsPower.foldl (fun z t => heat_keepsPower z t new) ts _)

/-- The clocks go down where the module is over its power, or may go up. -/
theorem clocks_keepPower (s : State) (new : Nat → Nat) (ts : List Nat) (hot : Prop) [Decidable hot] :
    KeepsPower s (if hot then ({ s with free := s.free + 1 } : State).powerDown new
      else ts.foldl (fun z t => z.faster t) { s with free := s.free + 1 }) := by
  refine (draw_keepsPower s).trans ?_
  split
  · exact powerDown_keepsPower _ new
  · exact KeepsPower.foldl faster_keepsPower ts _

/-- The end of an interval renews every cluster, over a state that the steps before leave as KeepsPower says. -/
theorem interval_renews (s : State) (temps : List Nat) : ∃ y z, KeepsPower s y ∧
    z = (List.range 2240).foldl
      (fun (z : State) c => z.clusterInterval (fun c => temps.getD c (s.cluster c).temp) c) y ∧
    s.interval temps = { z with nextInterval := z.nextInterval + 400 } :=
  ⟨_, _, (sweeps_keepPower s _ _ _).trans (clocks_keepPower _ _ _ _), rfl, rfl⟩

theorem clusterInterval_same (s : State) (new : Nat → Nat) (k : Nat) :
    ((s.clusterInterval new k).cluster k).temp = new k ∧ ((s.clusterInterval new k).cluster k).spent = 0 ∧
      (((s.clusterInterval new k).cluster k).cap = 16 ∨
        ((s.clusterInterval new k).cluster k).cap = ((s.cluster k).cap + 1) / 2) := by
  have h : (s.clusterInterval new k).cluster k = _ := State.cluster_putCluster_same _ _ _
  rw [h]
  refine ⟨rfl, rfl, ?_⟩
  dsimp only
  split
  · exact .inr rfl
  · exact .inl rfl

theorem clusterInterval_other (s : State) (new : Nat → Nat) {k j : Nat} (h : k ≠ j) :
    (s.clusterInterval new k).cluster j = s.cluster j := State.cluster_putCluster_other _ _ h.symm

section
variable {s z : State} {new : Nat → Nat} {cs : List Nat}

/-- The renewal of clusters leaves everything else that an interval is asked about. -/
theorem clusterIntervals_keep (h : z = cs.foldl (fun (z : State) c => z.clusterInterval new c) s) :
    z.threads = s.threads ∧ z.nextInterval = s.nextInterval ∧ ∀ n, z.tile n = s.tile n := by
  subst h
  refine ⟨foldl_same State.threads ?_ s, foldl_same State.nextInterval ?_ s, fun n => foldl_same (State.tile · n) ?_ s⟩
  all_goals exact fun _ _ _ => rfl

/-- A cluster among those renewed has its sample, has spent nothing, and has a cap of 16 or half its own. -/
theorem clusterIntervals_renew {k : Nat} (h : z = cs.foldl (fun (z : State) c => z.clusterInterval new c) s)
    (hn : cs.Nodup) (hk : k ∈ cs) : (z.cluster k).temp = new k ∧ (z.cluster k).spent = 0 ∧
      ((z.cluster k).cap = 16 ∨ (z.cluster k).cap = ((s.cluster k).cap + 1) / 2) := by
  obtain ⟨w, hw, he⟩ := foldl_once (fun z => z.cluster k) hn hk (fun z _ h => clusterInterval_other z new h) s
  rw [h, he, ← hw]
  exact clusterInterval_same w new k

end

/-- A power interval moves the next one by 400 ticks and keeps the threads and the range of every clock (R18). -/
theorem interval_keeps (s : State) (temps : List Nat) :
    (s.interval temps).threads = s.threads ∧ (s.interval temps).nextInterval = s.nextInterval + 400 ∧
      ∀ n, ClockInRange (s.tile n) → ClockInRange ((s.interval temps).tile n) := by
  obtain ⟨y, z, hy, hz, he⟩ := interval_renews s temps
  obtain ⟨hthreads, hnext, htile⟩ := clusterIntervals_keep hz
  rw [he]
  refine ⟨hthreads.trans hy.threads, congrArg (· + 400) (hnext.trans hy.next), fun n hn => ?_⟩
  show ClockInRange (z.tile n)
  rw [htile]
  exact hy.freq n hn

/-- A power interval renews every cluster (R355). -/
theorem interval_cluster (s : State) (temps : List Nat) {k : Nat} (hk : k < 2240) :
    let x := (s.interval temps).cluster k
    x.temp = temps.getD k (s.cluster k).temp ∧ x.spent = 0 ∧ (x.cap = 16 ∨ x.cap = ((s.cluster k).cap + 1) / 2) := by
  obtain ⟨y, z, hy, hz, he⟩ := interval_renews s temps
  rw [he, ← hy.cap k]
  exact clusterIntervals_renew hz List.nodup_range (List.mem_range.mpr hk)

/-! ## Timestamps -/

/-- The timestamp n raised past the lease of every copy. -/
theorem foldl_lease (l : Tab Copy) (n : Nat) :
    n ≤ l.foldl (fun a p => Nat.max a (p.2.rts + 1)) n ∧
      (∀ q ∈ l, q.2.rts < l.foldl (fun a p => Nat.max a (p.2.rts + 1)) n) ∧
      ∀ m, n < m → (∀ q ∈ l, q.2.rts + 1 < m) → l.foldl (fun a p => Nat.max a (p.2.rts + 1)) n < m := by
  induction l generalizing n with
  | nil => simp
  | cons p l ih =>
    obtain ⟨hle, hpast, hlt⟩ := ih (Nat.max n (p.2.rts + 1))
    refine ⟨Nat.le_trans (Nat.le_max_left _ _) hle, List.forall_mem_cons.mpr ⟨?_, hpast⟩, fun m hn hq => ?_⟩
    · exact Nat.le_trans (Nat.le_max_right _ _) hle
    · obtain ⟨hp, hl⟩ := List.forall_mem_cons.mp hq
      exact hlt m (Nat.max_lt.mpr ⟨hn, hp⟩) hl

section
variable {s : State} {k : Nat}

theorem ptsPassed_cores (hk : k < 10000) : s.ptsPassed k = { s with cores := (s.ptsPassed k).cores } := by
  simp [State.ptsPassed, State.putPts, hk, State.putCore]

theorem ptsPassed_core_other {j : Nat} (h : j ≠ k) : (s.ptsPassed j).core k = s.core k := by
  unfold State.ptsPassed State.putPts
  split
  · exact State.core_putCore_other _ _ h.symm
  · rfl

theorem ptsPassed_copies (j : Nat) : ((s.ptsPassed j).core k).copies = (s.core k).copies := by
  by_cases h : j = k
  · subst h
    unfold State.ptsPassed State.putPts
    split
    · rw [State.core_putCore_same]
    · rfl
  · rw [ptsPassed_core_other h]

/-- The timestamp of a core whose leases are below 2^64 passes them all (R303). -/
theorem ptsPassed_passes (hk : k < 10000) (hl : ∀ q ∈ (s.core k).copies, q.2.rts + 1 < 2 ^ 64) :
    s.pts k ≤ (s.ptsPassed k).pts k ∧ ∀ q ∈ (s.core k).copies, q.2.rts < (s.ptsPassed k).pts k := by
  obtain ⟨hle, hpast, hlt⟩ := foldl_lease (s.core k).copies (s.pts k)
  have hn : s.pts k < 2 ^ 64 := by simpa [State.pts, hk] using (s.core k).pts.isLt
  have hp : (s.ptsPassed k).pts k = (s.core k).copies.foldl (fun a p => Nat.max a (p.2.rts + 1)) (s.pts k) := by
    simp only [State.ptsPassed, State.putPts, State.pts, hk, if_true, State.core_putCore_same, BitVec.toNat_ofNat]
      at hlt hn ⊢
    exact Nat.mod_eq_of_lt (hlt _ hn hl)
  rw [hp]
  exact ⟨hle, hpast⟩

theorem mem_keys_of_tfind {α : Type} {t : Tab α} {i : Nat} (h : tfind t i ≠ none) : i ∈ t.map (·.1) := by
  induction t with
  | nil => exact absurd rfl h
  | cons p t ih =>
    by_cases hp : p.1 = i
    · simp [hp]
    · exact List.mem_cons_of_mem _ (ih (by simpa [tfind, hp] using h))

/-- In every 200th tick the timestamp of each core passes its leases (R303). -/
theorem leasesPassed_passes (hk : k < 10000) (hl : ∀ q ∈ (s.core k).copies, q.2.rts + 1 < 2 ^ 64)
    (ht : s.tick % 200 = 0) (hc : tfind s.cores k ≠ none) : ∀ q ∈ (s.core k).copies, q.2.rts < s.leasesPassed.pts k := by
  rw [State.leasesPassed, if_pos ht]
  refine foldl_reaches (P := fun z => (z.core k).copies = (s.core k).copies)
    (Q := fun z => ∀ q ∈ (s.core k).copies, q.2.rts < z.pts k) (mem_keys_of_tfind hc)
    (fun z b hz => (ptsPassed_copies b).trans hz) (fun z hz => ?_) (fun z b hb hz => ?_) rfl
  · rw [← hz] at hl ⊢
    exact (ptsPassed_passes hk hl).2
  · have hp : (z.ptsPassed b).pts k = z.pts k := by simp only [State.pts, hk, if_true, ptsPassed_core_other hb]
    rwa [hp]

end
end Sys2Proof.Machine
end

section
/-! PROOFS. Power, refresh and timestamps. -/
open Sys2Proof.Machine Sys2Proof.Safety

/-- Settles O50: the limiter, the interval, the windows and the timestamps by what each step does to the part that it names. -/
theorem powerRefreshAndTimestamps : Obligations.PowerRefreshAndTimestamps := by
  refine ⟨fun s k => ⟨fun h => ?_, fun h => ?_⟩, fun s ts => ⟨fun h => ?_, fun h => ?_⟩, fun b x y hb => ?_,
    fun s k => ⟨fun h => ?_, fun h => ?_⟩, fun s k hk hl => ⟨?_, fun ht hc => leasesPassed_passes hk hl ht hc⟩⟩
  · exact if_neg (Nat.not_lt.mpr h)
  · refine ⟨s.slewed k, if_pos h, fun a => by rw [State.slewed_mem], slewed_threads s k, by rw [slewed_cluster],
      fun j hj => slewed_idle_grants s k hj, ?_⟩
    rw [slewed_cluster]
    exact ⟨fun hu => by rw [Slew.step_up hu]; exact ⟨rfl, rfl, rfl⟩,
      fun hd => by rw [Slew.step_down hd]; exact ⟨rfl, rfl, rfl⟩,
      fun he => by rw [Slew.step_level he]; exact ⟨rfl, rfl, rfl⟩⟩
  · exact if_neg (Nat.not_le.mpr h)
  · obtain ⟨hthreads, hnext, hfreq⟩ := interval_keeps s ts
    exact ⟨s.interval ts, if_pos h, fun a => by rw [State.interval_mem], hthreads, hnext,
      fun k hk => interval_cluster s ts hk, fun n lo hi => hfreq n ⟨lo, hi⟩⟩
  · refine ⟨nextBand_hot hb, nextBand_warm, fun h0 hy he => ?_, fun hy he => ?_⟩
    · rw [nextBand_cool hy, if_pos ⟨h0, he⟩]
    · rw [nextBand_cool hy, if_neg fun h => Nat.not_le.mpr he h.2]
  · exact ⟨if_pos h, if_neg (by simp [Option.isSome_iff_ne_none.mp h]), setWindow_refreshing s k true⟩
  · exact ⟨if_neg (by simp [h]), if_pos (by simp [h]), setWindow_refreshing s k false⟩
  · exact ⟨s.ptsPassed k, rfl, ptsPassed_cores hk, ptsPassed_passes hk hl⟩
end
